-- ==== Sys2Proof/Word.lean ====
section
/-! DEFINITION. The word types of the M7: bytes, 32-bit slots, 64-bit scalars and 2,048-bit vectors. -/
namespace Sys2Proof

/-- A byte of memory. -/
abbrev Byte := BitVec 8
/-- A slot of a bundle, or a lane of a vector (R186, R275). -/
abbrev W32 := BitVec 32
/-- A scalar register or pointer (R8, R178). -/
abbrev W64 := BitVec 64
/-- A vector register: 64 lanes of 32 bits (R178, R275). -/
abbrev Vec := BitVec 2048

end Sys2Proof
end

