-- ==== Sys2Proof/Syntax.lean ====
section
/-! DEFINITION. The syntax of the M7: the fields of every slot form (R186), micro-words (R306),
collective step words (R332), what the outside world can hand the device, and the one inductive of all rows of
the table of operations and events. Field names are those of the table. -/
namespace Sys2Proof

/-- Subcauses of the trap ILLEGAL (R193). -/
inductive Illegal where
  | major | minor | reserved | operand | modifier | csr | qtype
deriving DecidableEq, Repr

/-- The generic cut of a 32-bit slot along form C (R186); every other form is a regrouping of these bits. -/
structure Fields where
  (s : BitVec 1) (maj d a : BitVec 6) (f : BitVec 1) (b : BitVec 6) (g : BitVec 1) (min : BitVec 5)
deriving DecidableEq, Repr

/-- Form C with a destination or third source D, operands A and B (R186). -/
structure C3 where
  (s : BitVec 1) (d : BitVec 6) (a : BitVec 6) (f : BitVec 1) (b : BitVec 6) (g : BitVec 1)
deriving DecidableEq, Repr

/-- Form C with D and A only (R186, R187). -/
structure C2 where
  (s : BitVec 1) (d : BitVec 6) (a : BitVec 6) (f : BitVec 1)
deriving DecidableEq, Repr

/-- `sel.cN` (R232). -/
structure Sel where
  (s : BitVec 1) (d : BitVec 6) (a : BitVec 6) (f : BitVec 1) (b : BitVec 6) (g : BitVec 1) (c : BitVec 3)
deriving DecidableEq, Repr

/-- `pr.set` (R231). -/
structure PrS where
  (s : BitVec 1) (c : BitVec 3) (a : BitVec 6) (f : BitVec 1)
deriving DecidableEq, Repr

/-- `pr.get` (R231). -/
structure PrG where
  (s : BitVec 1) (d : BitVec 6) (c : BitVec 3)
deriving DecidableEq, Repr

/-- `pr.and`, `pr.or` (R231). -/
structure Pr3 where
  (s : BitVec 1) (c : BitVec 3) (x : BitVec 3) (y : BitVec 3)
deriving DecidableEq, Repr

/-- `pr.not` (R231). -/
structure Pr2 where
  (s : BitVec 1) (c : BitVec 3) (x : BitVec 3)
deriving DecidableEq, Repr

/-- Form L (R186). -/
structure L where
  (s : BitVec 1) (d : BitVec 6) (i : BitVec 19)
deriving DecidableEq, Repr

/-- Form I (R186). -/
structure FI where
  (s : BitVec 1) (d : BitVec 6) (a : BitVec 6) (f : BitVec 1) (i : BitVec 12)
deriving DecidableEq, Repr

/-- `addr.tagi` (R234). -/
structure TagI where
  (s : BitVec 1) (d : BitVec 6) (a : BitVec 6) (f : BitVec 1) (t : BitVec 4)
deriving DecidableEq, Repr

/-- A slot whose only free bit is S. -/
structure N where
  (s : BitVec 1)
deriving DecidableEq, Repr

/-- Form C with A only. -/
structure A1 where
  (s : BitVec 1) (a : BitVec 6) (f : BitVec 1)
deriving DecidableEq, Repr

/-- `ctl.loop` (R242). -/
structure Lp where
  (s : BitVec 1) (d : BitVec 6) (a : BitVec 6) (f : BitVec 1) (i : BitVec 7)
deriving DecidableEq, Repr

/-- `ctl.kadd` (R245). -/
structure Ka where
  (s : BitVec 1) (k : BitVec 4) (a : BitVec 6) (f : BitVec 1)
deriving DecidableEq, Repr

/-- `ctl.br` (R240). -/
structure Br where
  (s : BitVec 1) (c : BitVec 6) (i : BitVec 19)
deriving DecidableEq, Repr

/-- `ctl.wait` (R246), form W. -/
structure Kw where
  (s : BitVec 1) (k : BitVec 6) (c : BitVec 2) (b : BitVec 6) (g : BitVec 1)
deriving DecidableEq, Repr

/-- Form E (R186): SZ in z, ORD in o, OFF in n. -/
structure E where
  (s : BitVec 1) (d : BitVec 6) (a : BitVec 6) (z : BitVec 3) (o : BitVec 4) (n : BitVec 6)
deriving DecidableEq, Repr

/-- `mem.drain` (R252). -/
structure Dr where
  (s : BitVec 1) (c : BitVec 2)
deriving DecidableEq, Repr

/-- Form C with A and B only. -/
structure A2 where
  (s : BitVec 1) (a : BitVec 6) (f : BitVec 1) (b : BitVec 6) (g : BitVec 1)
deriving DecidableEq, Repr

/-- `view.open` (R254). -/
structure Vo where
  (s : BitVec 1) (w : BitVec 4) (a : BitVec 6) (f : BitVec 1) (q : BitVec 1) (r : BitVec 1) (c : BitVec 2)
deriving DecidableEq, Repr

/-- `view.retire` (R255). -/
structure Vr where
  (s : BitVec 1) (w : BitVec 4) (c : BitVec 2)
deriving DecidableEq, Repr

/-- `view.set` (R256). -/
structure Vs where
  (s : BitVec 1) (w : BitVec 4) (a : BitVec 6) (f : BitVec 1) (t : BitVec 3)
deriving DecidableEq, Repr

/-- `view.get` (R257). -/
structure Vg where
  (s : BitVec 1) (d : BitVec 6) (w : BitVec 4) (k : BitVec 3)
deriving DecidableEq, Repr

/-- `ten.ld`, `ten.st` (R258). -/
structure Ten where
  (s : BitVec 1) (d : BitVec 6) (a : BitVec 6) (z : BitVec 3) (o : BitVec 4) (w : BitVec 4)
deriving DecidableEq, Repr

/-- Form E of an atomic: the operation code stands in OFF (R260). -/
structure At where
  (s : BitVec 1) (d : BitVec 6) (a : BitVec 6) (z : BitVec 3) (o : BitVec 4)
deriving DecidableEq, Repr

/-- Form E of an FP32 atomic, SZ fixed to w (R260). -/
structure AtF where
  (s : BitVec 1) (d : BitVec 6) (a : BitVec 6) (o : BitVec 4)
deriving DecidableEq, Repr

/-- `atom.cas` (R261). -/
structure Cas where
  (s : BitVec 1) (d : BitVec 6) (a : BitVec 6) (z : BitVec 3) (o : BitVec 4) (c : BitVec 6)
deriving DecidableEq, Repr

/-- `mon.wait` (R264). -/
structure Mon where
  (s : BitVec 1) (d : BitVec 6) (a : BitVec 6) (z : BitVec 3) (o : BitVec 4) (t : BitVec 6)
deriving DecidableEq, Repr

/-- `ph.wait`, `ph.sig`, `ph.drop` (R268), form W. -/
structure Ph where
  (s : BitVec 1) (p : BitVec 6) (c : BitVec 2) (b : BitVec 6) (g : BitVec 1)
deriving DecidableEq, Repr

/-- `ph.reg` (R268). -/
structure PhR where
  (s : BitVec 1) (p : BitVec 6) (m : BitVec 2) (b : BitVec 6) (g : BitVec 1)
deriving DecidableEq, Repr

/-- `ph.expect` (R268). -/
structure PhE where
  (s : BitVec 1) (p : BitVec 6) (b : BitVec 6) (g : BitVec 1)
deriving DecidableEq, Repr

/-- Vector compare (R279). -/
structure VC where
  (s : BitVec 1) (c : BitVec 3) (a : BitVec 6) (f : BitVec 1) (b : BitVec 6) (g : BitVec 1)
deriving DecidableEq, Repr

/-- Reduction (R281). -/
structure Red where
  (s : BitVec 1) (d : BitVec 6) (a : BitVec 6) (f : BitVec 1) (p : BitVec 1) (c : BitVec 3)
deriving DecidableEq, Repr

/-- Form C with a format code in IMM7. -/
structure Fm where
  (s : BitVec 1) (d : BitVec 6) (a : BitVec 6) (f : BitVec 1) (t : BitVec 4)
deriving DecidableEq, Repr

/-- `vec.sel` (R280). -/
structure VSel where
  (s : BitVec 1) (d : BitVec 6) (a : BitVec 6) (f : BitVec 1) (c : BitVec 3)
deriving DecidableEq, Repr

/-- `vec.lane`, `vec.ins` (R280). -/
structure Ln where
  (s : BitVec 1) (d : BitVec 6) (a : BitVec 6) (f : BitVec 1) (k : BitVec 6)
deriving DecidableEq, Repr

/-- `acc.rd`, `acc.rdk` (R289). -/
structure Acc where
  (s : BitVec 1) (d : BitVec 6) (a : BitVec 6) (f : BitVec 1) (e : BitVec 1) (n : BitVec 3)
deriving DecidableEq, Repr

/-- `cvt.sf2b` (R238). -/
structure S2B where
  (s : BitVec 1) (d : BitVec 6) (a : BitVec 6) (f : BitVec 1) (r : BitVec 1) (q : BitVec 1) (t : BitVec 4)
deriving DecidableEq, Repr

/-- `mat.call` (R299). -/
structure MC where
  (s : BitVec 1) (p : BitVec 6) (x : BitVec 1) (e : BitVec 1) (r : BitVec 8)
deriving DecidableEq, Repr

/-- `mat.drain` (R302). -/
structure En where
  (s : BitVec 1) (e : BitVec 1)
deriving DecidableEq, Repr

/-- `mat.setp` (R303). -/
structure PnS where
  (s : BitVec 1) (n : BitVec 3) (a : BitVec 6) (f : BitVec 1)
deriving DecidableEq, Repr

/-- `mat.getp` (R303). -/
structure PnG where
  (s : BitVec 1) (d : BitVec 6) (n : BitVec 3)
deriving DecidableEq, Repr

/-- `mat.cfg` (R301). -/
structure EnA where
  (s : BitVec 1) (e : BitVec 1) (a : BitVec 6) (f : BitVec 1)
deriving DecidableEq, Repr

/-- `mat.pert` (R304). -/
structure EnA2 where
  (s : BitVec 1) (e : BitVec 1) (a : BitVec 6) (f : BitVec 1) (b : BitVec 6) (g : BitVec 1)
deriving DecidableEq, Repr

/-- Form C with D only. -/
structure D1 where
  (s : BitVec 1) (d : BitVec 6)
deriving DecidableEq, Repr

/-- `sys.csrr` (R345). -/
structure CsR where
  (s : BitVec 1) (d : BitVec 6) (i : BitVec 12)
deriving DecidableEq, Repr

/-- `sys.csrw` (R345). -/
structure CsW where
  (s : BitVec 1) (a : BitVec 6) (f : BitVec 1) (i : BitVec 12)
deriving DecidableEq, Repr

/-- The fields of a micro-word (R306) but for its operation code. -/
structure Micro where
  (ip : BitVec 1) (pa pb acc : BitVec 3) (la : BitVec 2) (x : BitVec 1) (imm : W32)
deriving DecidableEq, Repr

/-- The fields of a collective step word (R332) but for its operation code. -/
structure StepWord where
  (start store : BitVec 1) (csel : BitVec 2) (pd cd : BitVec 8) (limit : BitVec 16) (cnt : BitVec 1) (arg : BitVec 10)
deriving DecidableEq, Repr

/-- What an access does to its bytes. FP atomics name their operation as R260 numbers it. -/
inductive MemOp where
  | load
  | store
  | atom (op : Nat)
  | cas (cmp : W64)
  /-- agent operations (R327 to R329) -/
  | nmCas (n : Nat) (cmp : BitVec 256)
  | nmEnq (node : W64)
  | nmDeq
  | nmChase (hops link : Nat)
deriving DecidableEq, Repr

/-- A request of another device, or of this one to itself, under PEER (R21, R128); `hops` counts the devices it
has crossed (R32), `die` is the die of this package at which it enters (R423). -/
structure PeerReq where
  (src id device : Nat) (off : Nat) (op : MemOp) (bytes bit bits : Nat) (data : Vec) (hops die : Nat)
deriving DecidableEq, Repr

/-- Messages that flits carry (R406): requests and responses of PEER accesses, collective packets and check,
mismatch and abort flits (R332, R334, R335), log entries (R378), worklist values (R364, R365), 1588 (R413). -/
inductive Msg where
  | peerReq (r : PeerReq)
  | peerResp (id : Nat) (ok : Bool) (data : Vec)
  | packet (src group seq opid : Nat) (tag : Option Nat) (data : List Byte)
  | check (src group seq opid : Nat)
  | mismatch (group seq : Nat)
  | abort (group seq : Nat)
  | logUp (e : BitVec 256)
  | logDown (e : BitVec 256)
  | wlUp (src job min pushes compl : Nat) (whole : Bool)
  | wlDown (job min pushes compl : Nat) (whole : Bool)
  | wlIb (src job ib : Nat)
  | wlShip (src job bucket : Nat) (task : W64)
  | wlAck (job : Nat)
  | ptp (time : Nat)
deriving DecidableEq, Repr

/-- A flit at a port (R406): the fields of its link header, CRRSP, CRFWD and CRREQ in `credits`, the reserved bits and bytes of
segment 0 in `reserved`, the bytes of segments 1 to 9, and the messages of which it carries the last segment. The spec lays out
the header; what the bytes of a message are it leaves open. DESIGN CHOICE, log 53. -/
structure Flit where
  (src : BitVec 16) (credits : BitVec 12) (replay circ : Bool) (map : BitVec 27) (fseq : Nat) (tag : W64)
  (reserved : BitVec 327) (data : List Byte) (msgs : List Msg)
deriving DecidableEq, Repr

/-- What bring-up finds (R412, R414, R415): the hash of the firmware image, its version and whether its signature verifies,
FAILCODE (0 none), whether the identity key is usable, the retired columns with their detours, by core identifier (R73, R74),
and the trap handler's code in the firmware image (R390). -/
structure SelfTest where
  (image : BitVec 256) (version : Nat) (verified : Bool) (failcode : Nat) (attest : Bool) (detours : List (Nat × Nat))
  (handler : List W32)
deriving DecidableEq, Repr, Inhabited

/-- Where a host access goes (R404): a physical address of the HDM range, or an offset in BAR0. -/
inductive HostAddr where
  | hdm (pa : Nat)
  | bar0 (off : Nat)
deriving DecidableEq, Repr

/-- What meets the reads of a copy chunk (R146): nothing, or a correctable memory event. -/
inductive ChunkEvent where
  | clean | corrected
deriving DecidableEq, Repr

/-- Every row of the table of operations and events: the slots, the micro-operations, the steps of a collective
program, and the events of the device and of what stands outside it. -/
inductive Instr where
  /-- Integer add of A and B modulo 2^64 into D. (R224) -/
  | aluAdd (o : C3)
  /-- Integer subtract B from A modulo 2^64 into D. (R224) -/
  | aluSub (o : C3)
  /-- Low 64 bits of the product of A and B into D. (R224) -/
  | aluMul (o : C3)
  /-- High 64 bits of the signed product of A and B. (R224) -/
  | aluMulhs (o : C3)
  /-- High 64 bits of the unsigned product of A and B. (R224) -/
  | aluMulhu (o : C3)
  /-- Signed division rounded toward zero, variable latency, never traps. (R225) -/
  | aluDiv (o : C3)
  /-- Unsigned division, variable latency, never traps. (R225) -/
  | aluDivu (o : C3)
  /-- Signed remainder with the sign of the dividend. (R225) -/
  | aluRem (o : C3)
  /-- Unsigned remainder. (R225) -/
  | aluRemu (o : C3)
  /-- Lesser of A and B as signed values. (R224) -/
  | aluMin (o : C3)
  /-- Greater of A and B as signed values. (R224) -/
  | aluMax (o : C3)
  /-- Lesser of A and B as unsigned values. (R224) -/
  | aluMinu (o : C3)
  /-- Greater of A and B as unsigned values. (R224) -/
  | aluMaxu (o : C3)
  /-- Bitwise and of A and B. (R226) -/
  | aluAnd (o : C3)
  /-- Bitwise or of A and B. (R226) -/
  | aluOr (o : C3)
  /-- Bitwise xor of A and B. (R226) -/
  | aluXor (o : C3)
  /-- A and not B. (R226) -/
  | aluAndn (o : C3)
  /-- Shift A left by B mod 64. (R226) -/
  | aluShl (o : C3)
  /-- Logical shift A right by B mod 64. (R226) -/
  | aluShr (o : C3)
  /-- Arithmetic shift A right by B mod 64. (R226) -/
  | aluSar (o : C3)
  /-- Rotate A left by B mod 64. (R226) -/
  | aluRotl (o : C3)
  /-- Rotate A right by B mod 64. (R226) -/
  | aluRotr (o : C3)
  /-- Count leading zero bits of A. (R226) -/
  | aluClz (o : C2)
  /-- Count trailing zero bits of A. (R226) -/
  | aluCtz (o : C2)
  /-- Count one bits of A. (R226) -/
  | aluPopc (o : C2)
  /-- Reverse the bytes of A. (R226) -/
  | aluBswap (o : C2)
  /-- Copy A into D. (R226) -/
  | aluMov (o : C2)
  /-- Extract a bit field of A, sign-extended. (R228) -/
  | bitExt (o : C3)
  /-- Extract a bit field of A, zero-extended. (R228) -/
  | bitExtu (o : C3)
  /-- Insert low bits of A into a field of D. (R228) -/
  | bitIns (o : C3)
  /-- Set bit n of A. (R228) -/
  | bitSet (o : C3)
  /-- Clear bit n of A. (R228) -/
  | bitClr (o : C3)
  /-- Test bit n of A. (R228) -/
  | bitTst (o : C3)
  /-- D := 1 if A equals B. (R229) -/
  | cmpEq (o : C3)
  /-- D := 1 if A differs from B. (R229) -/
  | cmpNe (o : C3)
  /-- Signed less-than compare. (R229) -/
  | cmpLt (o : C3)
  /-- Unsigned less-than compare. (R229) -/
  | cmpLtu (o : C3)
  /-- Signed less-or-equal compare. (R229) -/
  | cmpLe (o : C3)
  /-- Unsigned less-or-equal compare. (R229) -/
  | cmpLeu (o : C3)
  /-- Select A or B by bit 0 of predicate cN. (R232) -/
  | sel (o : Sel)
  /-- Write predicate cD from A. (R231) -/
  | prSet (o : PrS)
  /-- Read predicate cA into D. (R231) -/
  | prGet (o : PrG)
  /-- cD := cA and cB. (R231) -/
  | prAnd (o : Pr3)
  /-- cD := cA or cB. (R231) -/
  | prOr (o : Pr3)
  /-- cD := not cA. (R231) -/
  | prNot (o : Pr2)
  /-- Extract the space tag of pointer A. (R233) -/
  | addrTag (o : C2)
  /-- Clear the tag bits of pointer A. (R233) -/
  | addrOff (o : C2)
  /-- Build an SPL pointer from vault and offset. (R233) -/
  | addrSpl (o : C3)
  /-- Build an SPD pointer from a place code and offset. (R233) -/
  | addrSpd (o : C3)
  /-- Build a PDV pointer from a core identifier and offset. (R233) -/
  | addrPdv (o : C3)
  /-- Build a PEER pointer from a device identifier and offset. (R233) -/
  | addrPeer (o : C3)
  /-- Write the sign-extended 19-bit immediate to D. (R235) -/
  | immLo (o : L)
  /-- Shift D left 19 and or in the immediate. (R235) -/
  | immHi (o : L)
  /-- Add the sign-extended 12-bit immediate to A. (R227) -/
  | aluAddi (o : FI)
  /-- And A with the sign-extended 12-bit immediate. (R227) -/
  | aluAndi (o : FI)
  /-- Replace the tag of A with an immediate tag. (R234) -/
  | addrTagi (o : TagI)
  /-- FP32 add, rounded once, setting flags. (R236) -/
  | fpAdd (o : C3)
  /-- FP32 subtract. (R236) -/
  | fpSub (o : C3)
  /-- FP32 multiply. (R236) -/
  | fpMul (o : C3)
  /-- FP32 divide. (R236) -/
  | fpDiv (o : C3)
  /-- FP32 square root. (R236) -/
  | fpSqrt (o : C2)
  /-- FP32 fused multiply-add A times B plus D. (R236) -/
  | fpFma (o : C3)
  /-- IEEE minimumNumber of A and B. (R237) -/
  | fpMin (o : C3)
  /-- IEEE maximumNumber of A and B. (R237) -/
  | fpMax (o : C3)
  /-- Clear the sign of A. (R236) -/
  | fpAbs (o : C2)
  /-- Invert the sign of A. (R236) -/
  | fpNeg (o : C2)
  /-- FP32 equality compare. (R236) -/
  | fpEq (o : C3)
  /-- FP32 ordered less-than compare. (R236) -/
  | fpLt (o : C3)
  /-- FP32 ordered less-or-equal compare. (R236) -/
  | fpLe (o : C3)
  /-- 1 if A or B is NaN. (R236) -/
  | fpUn (o : C3)
  /-- No operation, belonging to no slot class. (R202) -/
  | ctlNop (o : N)
  /-- Stop fetch after the bundle and begin the unit's retire. (R247) -/
  | ctlEnd (o : N)
  /-- Jump to the address in A. (R241) -/
  | ctlJr (o : A1)
  /-- Call the address in A, linking into D. (R241) -/
  | ctlCallr (o : C2)
  /-- Return to the address in A. (R241) -/
  | ctlRet (o : A1)
  /-- Set up a hardware loop level with a trip count and end bundle. (R242) -/
  | ctlLoop (o : Lp)
  /-- Write the sparsity pointer mpc. (R244) -/
  | ctlSetmpc (o : A1)
  /-- Add a signed amount to a counting semaphore. (R245) -/
  | ctlKadd (o : Ka)
  /-- Relative branch, always or on a predicate. (R240) -/
  | ctlBr (o : Br)
  /-- Relative call linking into D. (R241) -/
  | ctlCall (o : L)
  /-- Wait until a semaphore's available count reaches B, then subtract it; acquire at the scope. (R246) -/
  | ctlWait (o : Kw)
  /-- Load 1 to 256 bytes at A plus offset into D. (R250) -/
  | memLd (o : E)
  /-- Store 1 to 256 bytes of D at A plus offset. (R250) -/
  | memSt (o : E)
  /-- Load a byte at A plus register B. (R251) -/
  | memLdxb (o : C3)
  /-- Load a half-word at A plus register B. (R251) -/
  | memLdxh (o : C3)
  /-- Load a word at A plus register B. (R251) -/
  | memLdxw (o : C3)
  /-- Load a double word at A plus register B. (R251) -/
  | memLdxd (o : C3)
  /-- Load 256 bytes at A plus register B into a vector. (R251) -/
  | memLdxv (o : C3)
  /-- Store a byte at A plus register B. (R251) -/
  | memStxb (o : C3)
  /-- Store a half-word at A plus register B. (R251) -/
  | memStxh (o : C3)
  /-- Store a word at A plus register B. (R251) -/
  | memStxw (o : C3)
  /-- Store a double word at A plus register B. (R251) -/
  | memStxd (o : C3)
  /-- Store a 256-byte vector at A plus register B. (R251) -/
  | memStxv (o : C3)
  /-- Release and acquire at a scope, holding later memory bundles until earlier accesses perform. (R252) -/
  | memDrain (o : Dr)
  /-- Prefetch the line at A plus B into the caches. (R253) -/
  | memPf (o : A2)
  /-- Open a view of a tensor descriptor, allocating a directory entry if writable. (R254) -/
  | viewOpen (o : Vo)
  /-- Close a view as a release at a scope. (R255) -/
  | viewRetire (o : Vr)
  /-- Load a view's fields from a template or set one ORIGIN. (R256) -/
  | viewSet (o : Vs)
  /-- Read one 64-bit word of a view register. (R257) -/
  | viewGet (o : Vg)
  /-- Load tensor elements through a view. (R259) -/
  | tenLd (o : Ten)
  /-- Store tensor elements through a view. (R259) -/
  | tenSt (o : Ten)
  /-- Atomic add at the point of coherence, returning the old value. (R260) -/
  | atomAdd (o : At)
  /-- Atomic and. (R260) -/
  | atomAnd (o : At)
  /-- Atomic or. (R260) -/
  | atomOr (o : At)
  /-- Atomic xor. (R260) -/
  | atomXor (o : At)
  /-- Atomic signed minimum. (R260) -/
  | atomSmin (o : At)
  /-- Atomic signed maximum. (R260) -/
  | atomSmax (o : At)
  /-- Atomic unsigned minimum. (R260) -/
  | atomUmin (o : At)
  /-- Atomic unsigned maximum. (R260) -/
  | atomUmax (o : At)
  /-- Atomic swap. (R260) -/
  | atomSwap (o : At)
  /-- Atomic FP32 add. (R262) -/
  | atomFadd (o : AtF)
  /-- Atomic FP32 minimumNumber. (R262) -/
  | atomFmin (o : AtF)
  /-- Atomic FP32 maximumNumber. (R262) -/
  | atomFmax (o : AtF)
  /-- Atomic compare-and-swap of one word. (R261) -/
  | atomCas (o : Cas)
  /-- Compare a word and arm a monitor, blocking until a wake cause. (R264) -/
  | monWait (o : Mon)
  /-- Wait until the member's phase completes; acquire. (R272) -/
  | phWait (o : Ph)
  /-- Signal a phaser slot as a release. (R271) -/
  | phSig (o : Ph)
  /-- Register the context as a phaser member in a mode. (R270) -/
  | phReg (o : PhR)
  /-- Drop the context's phaser membership. (R270) -/
  | phDrop (o : Ph)
  /-- Post an expectation of engine signals on a phaser slot. (R273) -/
  | phExpect (o : PhE)
  /-- Lane-wise FP32 add. (R277) -/
  | vecAdd (o : C3)
  /-- Lane-wise FP32 subtract. (R277) -/
  | vecSub (o : C3)
  /-- Lane-wise FP32 multiply. (R277) -/
  | vecMul (o : C3)
  /-- Lane-wise FP32 fused multiply-add. (R277) -/
  | vecFma (o : C3)
  /-- Lane-wise minimumNumber. (R277) -/
  | vecMin (o : C3)
  /-- Lane-wise maximumNumber. (R277) -/
  | vecMax (o : C3)
  /-- Lane-wise absolute value. (R277) -/
  | vecAbs (o : C2)
  /-- Lane-wise negation. (R277) -/
  | vecNeg (o : C2)
  /-- Lane-wise FP32 divide. (R277) -/
  | vecDiv (o : C3)
  /-- Lane-wise FP32 square root. (R277) -/
  | vecSqrt (o : C2)
  /-- Lane-wise 32-bit integer add. (R278) -/
  | vecIadd (o : C3)
  /-- Lane-wise 32-bit integer subtract. (R278) -/
  | vecIsub (o : C3)
  /-- Lane-wise 32-bit integer multiply. (R278) -/
  | vecImul (o : C3)
  /-- Lane-wise bitwise and. (R278) -/
  | vecAnd (o : C3)
  /-- Lane-wise bitwise or. (R278) -/
  | vecOr (o : C3)
  /-- Lane-wise bitwise xor. (R278) -/
  | vecXor (o : C3)
  /-- Lane-wise shift left. (R278) -/
  | vecShl (o : C3)
  /-- Lane-wise logical shift right. (R278) -/
  | vecShr (o : C3)
  /-- Lane-wise arithmetic shift right. (R278) -/
  | vecSar (o : C3)
  /-- Lane-wise signed minimum. (R278) -/
  | vecImin (o : C3)
  /-- Lane-wise signed maximum. (R278) -/
  | vecImax (o : C3)
  /-- Lane-wise FP32 equality into a predicate. (R279) -/
  | vecEq (o : VC)
  /-- Lane-wise FP32 inequality into a predicate. (R279) -/
  | vecNe (o : VC)
  /-- Lane-wise FP32 less-than into a predicate. (R279) -/
  | vecLt (o : VC)
  /-- Lane-wise FP32 less-or-equal into a predicate. (R279) -/
  | vecLe (o : VC)
  /-- Lane-wise integer equality into a predicate. (R279) -/
  | vecIeq (o : VC)
  /-- Lane-wise signed less-than into a predicate. (R279) -/
  | vecIlt (o : VC)
  /-- Lane-wise sigmoid by the defined algorithm. (R287) -/
  | vecSigm (o : C2)
  /-- Lane-wise 2^x by the defined algorithm. (R284) -/
  | vecExp2 (o : C2)
  /-- Lane-wise reciprocal by the defined algorithm. (R285) -/
  | vecRcp (o : C2)
  /-- Lane-wise reciprocal square root. (R286) -/
  | vecRsq (o : C2)
  /-- Lane-wise log2. (R288) -/
  | vecLog2 (o : C2)
  /-- Lane-wise tanh via sigmoid. (R288) -/
  | vecTanh (o : C2)
  /-- Tree sum of the lanes into a scalar. (R281) -/
  | vecRsum (o : Red)
  /-- Tree maximum of the lanes. (R281) -/
  | vecRmax (o : Red)
  /-- Tree minimum of the lanes. (R281) -/
  | vecRmin (o : Red)
  /-- Dot-group accumulation of a register pair into a scalar. (R282) -/
  | vecDotg (o : Fm)
  /-- Copy a vector. (R280) -/
  | vecMov (o : C2)
  /-- Broadcast a scalar to every lane. (R280) -/
  | vecBcast (o : C2)
  /-- Permute lanes by index vector B. (R280) -/
  | vecPerm (o : C3)
  /-- Merge lanes of A into D by a predicate. (R280) -/
  | vecSel (o : VSel)
  /-- Extract lane k to a scalar. (R280) -/
  | vecLane (o : Ln)
  /-- Insert a scalar into lane k. (R280) -/
  | vecIns (o : Ln)
  /-- Read a half-row of an accumulator tile as FP32. (R289) -/
  | accRd (o : Acc)
  /-- Read a half-row of an accumulator tile as K19. (R289) -/
  | accRdk (o : Acc)
  /-- Narrow FP32 lanes to packed floating or tapered elements. (R291) -/
  | cvtNar (o : C3)
  /-- Widen packed elements to FP32 lanes. (R292) -/
  | cvtWid (o : C3)
  /-- Narrow FP32 lanes to packed integers. (R291) -/
  | cvtF2i (o : C3)
  /-- Widen packed integers to FP32 lanes. (R292) -/
  | cvtI2f (o : C3)
  /-- Lane-wise E8M0 code of FP32 values. (R293) -/
  | cvtE8 (o : C2)
  /-- Scalar FP32 to integer conversion. (R238) -/
  | cvtSf2i (o : S2B)
  /-- Scalar integer to FP32 conversion. (R238) -/
  | cvtSi2f (o : S2B)
  /-- Scalar FP32 narrowing to, or widening from, a narrow format. (R238) -/
  | cvtSf2b (o : S2B)
  /-- Accept a matrix call of a routine into the engine queue with a parameter snapshot. (R299) -/
  | matCall (o : MC)
  /-- Wait until the engine queue is empty and its accesses performed; set DRAINED. (R302) -/
  | matDrain (o : En)
  /-- Write a matrix parameter register. (R303) -/
  | matSetp (o : PnS)
  /-- Read a matrix parameter register. (R303) -/
  | matGetp (o : PnG)
  /-- Set the engine's operand format pair. (R301) -/
  | matCfg (o : EnA)
  /-- Set the engine's perturbation configuration and sigma. (R304) -/
  | matPert (o : EnA2)
  /-- Accept the next copy stage's schedule entries and advance the stage counter. (R322) -/
  | cpStage (o : N)
  /-- Issue a batch of atomics through the copy engine. (R324) -/
  | cpBatch (o : A2)
  /-- Issue a remote read of lines into a scratchpad tile. (R325) -/
  | cpRread (o : A2)
  /-- Move a tile to the engine side as a release at dev. (R134) -/
  | ownGive (o : A1)
  /-- Wait for engine commands on a tile, then move it to the thread side as an acquire. (R135) -/
  | ownTake (o : A1)
  /-- Near-memory compare-and-swap of up to four words. (R327) -/
  | nmCas (o : C3)
  /-- Near-memory enqueue of a node on a list. (R328) -/
  | nmEnq (o : C3)
  /-- Near-memory dequeue of a list head. (R328) -/
  | nmDeq (o : C2)
  /-- Near-memory pointer chase of up to 16 hops. (R329) -/
  | nmChase (o : C3)
  /-- Start a collective run from a descriptor, assigning the group SEQ. (R333) -/
  | collRun (o : C2)
  /-- Abort every run of the device on a group. (R335) -/
  | collAbort (o : A1)
  /-- Read word 0 of a collective group entry. (R336) -/
  | collStat (o : C2)
  /-- Build and write this device's pair-log entry, returning its sequence number. (R337) -/
  | logAppend (o : C3)
  /-- Raise the replay LIMIT and return the replay cursor. (R337) -/
  | logReplay (o : C2)
  /-- Resume a replay stalled by LOG_GAP at a sequence number. (R338) -/
  | logResume (o : A1)
  /-- Push a task into a bucket of the core's bucket unit. (R339) -/
  | wlPush (o : A2)
  /-- Pop a startable task, or DONE on termination. (R339) -/
  | wlPop (o : D1)
  /-- Count the held task complete. (R339) -/
  | wlDone (o : N)
  /-- sys.flush KIND 0: convert the column's SPLIT. (R341) -/
  | sysFlushSplit (o : A1)
  /-- sys.flush KIND 1: write back and invalidate the column's L2 slices. (R341) -/
  | sysFlushL2 (o : A1)
  /-- sys.flush KIND 2: write back dirty lines of the column's L2 slices. (R341) -/
  | sysFlushL2Clean (o : A1)
  /-- sys.flush KIND 3: invalidate L1 lines of the context's ASID. (R341) -/
  | sysFlushL1 (o : A1)
  /-- Wait until descriptor and sharding changes are in force device-wide. (R342) -/
  | sysShinv (o : N)
  /-- Translation invalidation of an ASID and VA range on this device. (R343) -/
  | sysTinv (o : A2)
  /-- Cancel a unit, launch, graph, phase or job. (R340) -/
  | lvlCancel (o : C2)
  /-- Read STATE and DONE of a level instance. (R340) -/
  | lvlStat (o : C2)
  /-- Enter the trap handler with cause SOFT. (R344) -/
  | trapRaise (o : A1)
  /-- Return from the trap handler. (R344) -/
  | trapRet (o : N)
  /-- Read a control and status register. (R345) -/
  | sysCsrr (o : CsR)
  /-- Write a control and status register. (R345) -/
  | sysCsrw (o : CsW)
  /-- First micro-word: declares the accumulator tiles and parameters written. (R307) -/
  | muDecl (e : Nat) (m : Micro)
  /-- Ends the call, setting declared lines and tiles full. (R300) -/
  | muEnd (e : Nat) (m : Micro)
  /-- Load and perturb stationary B from a tile. (R310) -/
  | muLdb (e : Nat) (m : Micro)
  /-- Load an activation latch from a tile. (R309) -/
  | muLda (e : Nat) (m : Micro)
  /-- Stream a latch through stationary B into an accumulator tile. (R311) -/
  | muMac (e : Nat) (m : Micro)
  /-- Zero an accumulator tile. (R307) -/
  | muZacc (e : Nat) (m : Micro)
  /-- Load an accumulator tile from an FP32 or BF16 tile. (R307) -/
  | muLdacc (e : Nat) (m : Micro)
  /-- Store an accumulator tile to scratchpad with encoding. (R313) -/
  | muStacc (e : Nat) (m : Micro)
  /-- Add one accumulator tile into another. (R307) -/
  | muAccadd (e : Nat) (m : Micro)
  /-- Add to OFFSET of the call's parameter copy. (R307) -/
  | muPadd (e : Nat) (m : Micro)
  /-- Add to BASEL of the call's stream-base copy. (R307) -/
  | muLbadd (e : Nat) (m : Micro)
  /-- Set a loop counter. (R307) -/
  | muCset (e : Nat) (m : Micro)
  /-- Decrement a loop counter and branch if non-zero. (R307) -/
  | muCloop (e : Nat) (m : Micro)
  /-- Engine signal on a phaser slot of the own core. (R307) -/
  | muSig (e : Nat) (m : Micro)
  /-- Collective step sending a chunk to a peer. (R332) -/
  | collSend (run : Nat) (w : StepWord)
  /-- Collective step receiving a packet into a chunk of OUT. (R332) -/
  | collRecv (run : Nat) (w : StepWord)
  /-- Collective step receiving, reducing and forwarding a chunk. (R332) -/
  | collRrs (run : Nat) (w : StepWord)
  /-- Collective step copying a chunk of BUF to OUT. (R332) -/
  | collCopy (run : Nat) (w : StepWord)
  /-- Collective step waiting on a phaser phase. (R332) -/
  | collWait (run : Nat) (w : StepWord)
  /-- Collective step advancing a loop counter. (R332) -/
  | collLoop (run : Nat) (w : StepWord)
  /-- A run ends: record, mailbox event and phaser signal. (R333) -/
  | collEnd (run : Nat)
  /-- A fetched slot whose major, minor or operation code is unassigned raises ILLEGAL and the bundle does not commit. (R196) -/
  | unassignedEncoding (cause : Illegal) (w : W32)
  /-- An incoming PEER access is translated and performed at the target. (R128) -/
  | peerAccessArrive (r : PeerReq)
  /-- A received abort flit stops the run on that group and SEQ. (R335) -/
  | collAbortFlit (group seq : Nat)
  /-- An entry from a child arrives and is forwarded, kept by rank 0, or dropped late. (R378) -/
  | logEntryArrive (entry : BitVec 256)
  /-- A released entry arrives and overwrites its ring slot once free. (R379) -/
  | logReleasedArrive (entry : BitVec 256)
  /-- A shipped task is pushed into the receiving die-0 core and acknowledged. (R365) -/
  | wlShipmentArrive (job bucket : Nat) (task : W64) (src : Nat)
  /-- At each tick devices send minima and sums up and results down the reduction tree. (R364) -/
  | wlTreeTick (job : Nat)
  /-- At each tick a device sends IB and ships tasks to a lighter neighbour. (R365) -/
  | wlBalanceTick (job : Nat)
  /-- An IEEE 1588 sync message, with the time in ns, updates time and sets or clears LOCK. (R413) -/
  | ptpSync (time : Nat)
  /-- The receiver's acknowledgement of a shipped task arrives at the sending device and is counted in COMPL. (R365) -/
  | wlShipmentAck (job : Nat)
  /-- A blocked context's condition clears and it re-issues its bundle. (R150) -/
  | contextWake (k : Nat)
  /-- A variable-latency result arrives and fills its entry or register. (R181) -/
  | resultArrive (k id : Nat)
  /-- A committed access performs at its point of coherence. (R116) -/
  | accessPerform (k id : Nat)
  /-- A page walk finishes, inserting a translation or faulting. (R68) -/
  | walkComplete (i : Nat)
  /-- A host write performs at the point of coherence as a release at sys. (R129) -/
  | hostMemWrite (a : HostAddr) (data : List Byte)
  /-- Power-up runs the bring-up steps in order. (R414) -/
  | powerUp (r : SelfTest)
  /-- A write to a register that has no row of its own. (R3) -/
  | registerWrite (die off n : Nat) (v : W64)
  /-- Expiry of a monitored wait's 2^OFF clk timeout wakes it with TIMEOUT. (R265) -/
  | monTimeout (k : Nat)
  /-- A column's SPLIT changes after pending accesses drain, converting ways. (R62) -/
  | splitConversion (core new : Nat)
  /-- An accepted call starts its routine once earlier commands finish and its phase completes. (R300) -/
  | matCallStart (e : Nat)
  /-- A write to LQDOOR reads and validates a launch record. (R156) -/
  | lqSubmit (die q : Nat) (ptr : W64)
  /-- The scheduler places a unit in a free eligible context. (R347) -/
  | unitPlace (k : Nat)
  /-- A placed unit starts once its stage-0 entries complete and inputs are resident. (R161) -/
  | unitStart (k : Nat)
  /-- The core loads a launch's code image into its overlay store. (R176) -/
  | overlayLoad (k : Nat)
  /-- The last retire step ends; the context frees and DONE increments. (R175) -/
  | unitRetireComplete (k : Nat)
  /-- A stopped unit leaves its context once its accesses and results settle. (R167) -/
  | unitStopFree (k : Nat)
  /-- Privileged write of STATE 0 frees an ended level entry. (R166) -/
  | levelEntryFree (i : Nat)
  /-- Privileged write of STATE 3 ends a running job. (R166) -/
  | jobEnd (slot : Nat)
  /-- A mailbox submits its handler launch with the oldest value. (R171) -/
  | mailboxHandlerStart (die n : Nat)
  /-- Writing 1 to OVF clears it and DROPS. (R169) -/
  | mailboxOvfClear (die n : Nat)
  /-- A retired view's directory entry frees once its writes have performed. (R50) -/
  | liveViewEntryFree (core i : Nat)
  /-- An error response to a PEER or HOST access discards the issuing launch. (R32) -/
  | targetErrorResponse (k id : Nat)
  /-- A host read returns the value at the point of coherence. (R405) -/
  | hostMemRead (a : HostAddr) (n : Nat)
  /-- A backlog entry is reread and enters a freed copy-engine queue place. (R322) -/
  | copyBacklogDrain (octant : Nat)
  /-- A copy entry makes its stage-start checks, failing or starting its chunks. (R323) -/
  | copyEntryStart (id : Nat)
  /-- A copy entry reads and writes one 4 KiB destination chunk. (R146) -/
  | copyChunk (id : Nat) (ev : ChunkEvent)
  /-- After the last chunk the entry bumps its semaphore, writes its record, captures and signals. (R323) -/
  | copyEntryComplete (id : Nat)
  /-- A scratchpad completion record write waits until its tile is given. (R418) -/
  | copyRecordWrite (id : Nat)
  /-- A batch atomic's elements finish and its phaser is signalled. (R324) -/
  | batchAtomicComplete (id : Nat)
  /-- A remote read's lines are filled and its phaser is signalled. (R325) -/
  | rreadComplete (id : Nat)
  /-- MEPRE REQ saves the running call and its launch's queued calls. (R402) -/
  | mepreSave (e : Nat)
  /-- MEPRE RESTORE puts the saved call and kept calls back at the queue head. (R402) -/
  | mepreRestore (e : Nat)
  /-- PRECTL REQ stops the context at a bundle boundary to save it. (R400) -/
  | contextSave (k : Nat)
  /-- After pending results arrive the image is written and STATE becomes saved. (R400) -/
  | contextSaveComplete (k : Nat)
  /-- PRECTL RESTORE reloads the image into the free context. (R400) -/
  | contextRestore (k : Nat)
  /-- Writing group word 0 with V=1 sets SEQ 0 and clears CANC. (R330) -/
  | collGroupDefine (g : Nat) (v : W64)
  /-- At each tick boundary running engines send check flits to their peers. (R334) -/
  | collCheckTick
  /-- An OPID mismatch or mismatch flit ends runs, sets CANC and posts COLL_ORDER. (R334) -/
  | collOrder (group seq : Nat)
  /-- The staggered delay expires and the run's phaser signal is sent. (R358) -/
  | staggerRelease (i : Nat)
  /-- Writing LOGCTL EN=1 enables the log if every condition holds. (R376) -/
  | logEnable (v : W64)
  /-- Writing LOGCTL EN=0 stops further rounds and ends waits. (R376) -/
  | logDisable
  /-- At each tick a device sends new entries up and released entries down the tree. (R378) -/
  | logTickSend
  /-- KT ticks expire and rank 0 releases the round with VOID entries. (R378) -/
  | logVoidTimeout
  /-- MORDANT applies a round once LIMIT admits it and all slots are ready. (R381) -/
  | mordantRound
  /-- GAPT ticks expire at an unready slot; MORDANT stalls and posts LOG_GAP. (R384) -/
  | logGap
  /-- Every 64 clk the dies sample local bucket values and sum the wave counts. (R360) -/
  | wlSample
  /-- Every 1,024 clk the scheduler may move one core between pipeline stages. (R352) -/
  | pipeRebalance (launch : Nat)
  /-- Every 120 clk the governor updates IEST, GOV, HOLD and ballast. (R357) -/
  | slewGovernor (iest : Nat) (rise : Bool)
  /-- A die reaching TLIM caps SHAPE and sets THERM. (R416) -/
  | thermalLimit (die temp : Nat)
  /-- A die reaching TTRIP lowers GOV until issue stops. (R416) -/
  | thermalTrip (die temp : Nat)
  /-- TEMP falling below TLIM resumes issue within the slew limit. (R416) -/
  | thermalRecover (die temp : Nat)
  /-- At a tick boundary with DET=1 each egress releases its queued flits. (R78) -/
  | tickRelease
  /-- A TICKCTL write sets DET only while LOCK is 1. (R77) -/
  | tickDetWrite (v : W32)
  /-- A Finzor flit is checked and its messages and credits delivered. (R409) -/
  | flitReceive (port : Nat) (f : Flit)
  /-- A received replay request makes the sender retransmit from an FSEQ. (R409) -/
  | replayRequest (port fseq : Nat)
  /-- Writing REATT re-attests a locked port, clearing LOCK and setting UP. (R412) -/
  | portReattest (port : Nat)
  /-- An uncorrectable memory error is found, with or without a launch. (R397) -/
  | memoryError (pa : Nat) (launch : Option Nat)
  /-- A fault-ring record is written once space is free, then HEAD advances. (R394) -/
  | faultRecordWrite
  /-- FRESUME ACTION 0 resumes at TRAP_PC or resumes a suspended copy. (R391) -/
  | fresumeResume (seq : Nat)
  /-- FRESUME ACTION 1 resumes at the next bundle. (R391) -/
  | fresumeSkip (seq : Nat)
  /-- FRESUME ACTION 2 cancels the launch. (R391) -/
  | fresumeCancel (seq : Nat)
  /-- FRESUME ACTION 3 resumes at a given VA. (R391) -/
  | fresumeRedirect (seq : Nat)
  /-- UMBER finishes an emulated bundle and commits it. (R392) -/
  | emulationComplete (k : Nat)
  /-- A microprogram store or directory write waits until the engine is idle. (R305) -/
  | mprogWrite (die off : Nat) (v : W64)
  /-- A descriptor or sharding write updates all four die copies. (R34) -/
  | tableWrite (die off n : Nat) (v : W64)
  /-- An armed monitored wait wakes with cause SPURIOUS at any time and commits with D := 5. (R265) -/
  | spuriousWake (k : Nat)
  /-- A Finzor port's link partner comes up and the firmware at both ends attests it, setting the session key, FSEQ 0 and UP. (R412) -/
  | portAttestation (port : Nat)
  /-- A running copy entry is pre-empted at a 4 KiB chunk boundary, leaving later lines empty and its phaser signal pending, and later resumes. (R146) -/
  | copyPreEmption (id : Nat)
  /-- A parity error in internal state is detected and discards the affected launch under class INTERNAL, cause 0x2. (R388) -/
  | internalParityError (launch : Nat)
deriving DecidableEq, Repr

end Sys2Proof
end

