-- ==== Sys2Proof/Decode.lean ====
section
/-! DEFINITION. Decoding a slot (R186, R187, R194 to R196), a micro-word (R306, R307) and a collective step word
(R332), and the encoder written from the same rows. A slot is first cut into the fields of form C; `decodeFields`
names its row, refusing by subcause what the rows leave out, in the order of R193: unassigned code, then reserved
bits. -/
namespace Sys2Proof

/-- Cut a slot along form C (R186). -/
def Fields.ofWord (w : W32) : Fields :=
  { s := w.extractLsb' 31 1, maj := w.extractLsb' 25 6, d := w.extractLsb' 19 6, a := w.extractLsb' 13 6,
    f := w.extractLsb' 12 1, b := w.extractLsb' 6 6, g := w.extractLsb' 5 1, min := w.extractLsb' 0 5 }

/-- Put a slot together again. -/
def Fields.toWord (f : Fields) : W32 :=
  f.s ++ f.maj ++ f.d ++ f.a ++ f.f ++ f.b ++ f.g ++ f.min

/-- A row whose unused bits must be 0 (R187). -/
def Fields.unless (reserved : Bool) (i : Instr) : Except Illegal Instr :=
  if reserved then .error .reserved else .ok i

/-- Minors of major 0x00 (R195). -/
def decodeMaj00 (f : Fields) : Except Illegal Instr :=
  match f.min with
  | 0x1#5 => .ok (.aluAdd { s := f.s, d := f.d, a := f.a, f := f.f, b := f.b, g := f.g })
  | 0x2#5 => .ok (.aluSub { s := f.s, d := f.d, a := f.a, f := f.f, b := f.b, g := f.g })
  | 0x3#5 => .ok (.aluMul { s := f.s, d := f.d, a := f.a, f := f.f, b := f.b, g := f.g })
  | 0x4#5 => .ok (.aluMulhs { s := f.s, d := f.d, a := f.a, f := f.f, b := f.b, g := f.g })
  | 0x5#5 => .ok (.aluMulhu { s := f.s, d := f.d, a := f.a, f := f.f, b := f.b, g := f.g })
  | 0x6#5 => .ok (.aluDiv { s := f.s, d := f.d, a := f.a, f := f.f, b := f.b, g := f.g })
  | 0x7#5 => .ok (.aluDivu { s := f.s, d := f.d, a := f.a, f := f.f, b := f.b, g := f.g })
  | 0x8#5 => .ok (.aluRem { s := f.s, d := f.d, a := f.a, f := f.f, b := f.b, g := f.g })
  | 0x9#5 => .ok (.aluRemu { s := f.s, d := f.d, a := f.a, f := f.f, b := f.b, g := f.g })
  | 0xa#5 => .ok (.aluMin { s := f.s, d := f.d, a := f.a, f := f.f, b := f.b, g := f.g })
  | 0xb#5 => .ok (.aluMax { s := f.s, d := f.d, a := f.a, f := f.f, b := f.b, g := f.g })
  | 0xc#5 => .ok (.aluMinu { s := f.s, d := f.d, a := f.a, f := f.f, b := f.b, g := f.g })
  | 0xd#5 => .ok (.aluMaxu { s := f.s, d := f.d, a := f.a, f := f.f, b := f.b, g := f.g })
  | _ => .error .minor

/-- Minors of major 0x01 (R195). -/
def decodeMaj01 (f : Fields) : Except Illegal Instr :=
  match f.min with
  | 0x0#5 => .ok (.aluAnd { s := f.s, d := f.d, a := f.a, f := f.f, b := f.b, g := f.g })
  | 0x1#5 => .ok (.aluOr { s := f.s, d := f.d, a := f.a, f := f.f, b := f.b, g := f.g })
  | 0x2#5 => .ok (.aluXor { s := f.s, d := f.d, a := f.a, f := f.f, b := f.b, g := f.g })
  | 0x3#5 => .ok (.aluAndn { s := f.s, d := f.d, a := f.a, f := f.f, b := f.b, g := f.g })
  | 0x4#5 => .ok (.aluShl { s := f.s, d := f.d, a := f.a, f := f.f, b := f.b, g := f.g })
  | 0x5#5 => .ok (.aluShr { s := f.s, d := f.d, a := f.a, f := f.f, b := f.b, g := f.g })
  | 0x6#5 => .ok (.aluSar { s := f.s, d := f.d, a := f.a, f := f.f, b := f.b, g := f.g })
  | 0x7#5 => .ok (.aluRotl { s := f.s, d := f.d, a := f.a, f := f.f, b := f.b, g := f.g })
  | 0x8#5 => .ok (.aluRotr { s := f.s, d := f.d, a := f.a, f := f.f, b := f.b, g := f.g })
  | 0x9#5 => Fields.unless (f.b != 0 || f.g != 0) (.aluClz { s := f.s, d := f.d, a := f.a, f := f.f })
  | 0xa#5 => Fields.unless (f.b != 0 || f.g != 0) (.aluCtz { s := f.s, d := f.d, a := f.a, f := f.f })
  | 0xb#5 => Fields.unless (f.b != 0 || f.g != 0) (.aluPopc { s := f.s, d := f.d, a := f.a, f := f.f })
  | 0xc#5 => Fields.unless (f.b != 0 || f.g != 0) (.aluBswap { s := f.s, d := f.d, a := f.a, f := f.f })
  | 0xd#5 => Fields.unless (f.b != 0 || f.g != 0) (.aluMov { s := f.s, d := f.d, a := f.a, f := f.f })
  | _ => .error .minor

/-- Minors of major 0x02 (R195). -/
def decodeMaj02 (f : Fields) : Except Illegal Instr :=
  match f.min with
  | 0x0#5 => .ok (.bitExt { s := f.s, d := f.d, a := f.a, f := f.f, b := f.b, g := f.g })
  | 0x1#5 => .ok (.bitExtu { s := f.s, d := f.d, a := f.a, f := f.f, b := f.b, g := f.g })
  | 0x2#5 => .ok (.bitIns { s := f.s, d := f.d, a := f.a, f := f.f, b := f.b, g := f.g })
  | 0x3#5 => .ok (.bitSet { s := f.s, d := f.d, a := f.a, f := f.f, b := f.b, g := f.g })
  | 0x4#5 => .ok (.bitClr { s := f.s, d := f.d, a := f.a, f := f.f, b := f.b, g := f.g })
  | 0x5#5 => .ok (.bitTst { s := f.s, d := f.d, a := f.a, f := f.f, b := f.b, g := f.g })
  | _ => .error .minor

/-- Minors of major 0x03 (R195). -/
def decodeMaj03 (f : Fields) : Except Illegal Instr :=
  match f.min with
  | 0x0#5 => .ok (.cmpEq { s := f.s, d := f.d, a := f.a, f := f.f, b := f.b, g := f.g })
  | 0x1#5 => .ok (.cmpNe { s := f.s, d := f.d, a := f.a, f := f.f, b := f.b, g := f.g })
  | 0x2#5 => .ok (.cmpLt { s := f.s, d := f.d, a := f.a, f := f.f, b := f.b, g := f.g })
  | 0x3#5 => .ok (.cmpLtu { s := f.s, d := f.d, a := f.a, f := f.f, b := f.b, g := f.g })
  | 0x4#5 => .ok (.cmpLe { s := f.s, d := f.d, a := f.a, f := f.f, b := f.b, g := f.g })
  | 0x5#5 => .ok (.cmpLeu { s := f.s, d := f.d, a := f.a, f := f.f, b := f.b, g := f.g })
  | _ => .error .minor

/-- Minors of major 0x04 (R195). -/
def decodeMaj04 (f : Fields) : Except Illegal Instr :=
  if f.min.extractLsb' 3 2 != 0 then .error .minor else .ok (.sel { s := f.s, d := f.d, a := f.a, f := f.f, b := f.b, g := f.g, c := f.min.extractLsb' 0 3 })

/-- Minors of major 0x05 (R195). -/
def decodeMaj05 (f : Fields) : Except Illegal Instr :=
  match f.min with
  | 0x0#5 => Fields.unless (f.d.extractLsb' 3 3 != 0 || f.b != 0 || f.g != 0) (.prSet { s := f.s, c := f.d.extractLsb' 0 3, a := f.a, f := f.f })
  | 0x1#5 => Fields.unless (f.a.extractLsb' 3 3 != 0 || f.f != 0 || f.b != 0 || f.g != 0) (.prGet { s := f.s, d := f.d, c := f.a.extractLsb' 0 3 })
  | 0x2#5 => Fields.unless (f.d.extractLsb' 3 3 != 0 || f.a.extractLsb' 3 3 != 0 || f.f != 0 || f.b.extractLsb' 3 3 != 0 || f.g != 0) (.prAnd { s := f.s, c := f.d.extractLsb' 0 3, x := f.a.extractLsb' 0 3, y := f.b.extractLsb' 0 3 })
  | 0x3#5 => Fields.unless (f.d.extractLsb' 3 3 != 0 || f.a.extractLsb' 3 3 != 0 || f.f != 0 || f.b.extractLsb' 3 3 != 0 || f.g != 0) (.prOr { s := f.s, c := f.d.extractLsb' 0 3, x := f.a.extractLsb' 0 3, y := f.b.extractLsb' 0 3 })
  | 0x4#5 => Fields.unless (f.d.extractLsb' 3 3 != 0 || f.a.extractLsb' 3 3 != 0 || f.f != 0 || f.b != 0 || f.g != 0) (.prNot { s := f.s, c := f.d.extractLsb' 0 3, x := f.a.extractLsb' 0 3 })
  | _ => .error .minor

/-- Minors of major 0x06 (R195). -/
def decodeMaj06 (f : Fields) : Except Illegal Instr :=
  match f.min with
  | 0x0#5 => Fields.unless (f.b != 0 || f.g != 0) (.addrTag { s := f.s, d := f.d, a := f.a, f := f.f })
  | 0x1#5 => Fields.unless (f.b != 0 || f.g != 0) (.addrOff { s := f.s, d := f.d, a := f.a, f := f.f })
  | 0x2#5 => .ok (.addrSpl { s := f.s, d := f.d, a := f.a, f := f.f, b := f.b, g := f.g })
  | 0x3#5 => .ok (.addrSpd { s := f.s, d := f.d, a := f.a, f := f.f, b := f.b, g := f.g })
  | 0x4#5 => .ok (.addrPdv { s := f.s, d := f.d, a := f.a, f := f.f, b := f.b, g := f.g })
  | 0x5#5 => .ok (.addrPeer { s := f.s, d := f.d, a := f.a, f := f.f, b := f.b, g := f.g })
  | _ => .error .minor

/-- Minors of major 0x0C (R195). -/
def decodeMaj0C (f : Fields) : Except Illegal Instr :=
  match f.min with
  | 0x0#5 => .ok (.fpAdd { s := f.s, d := f.d, a := f.a, f := f.f, b := f.b, g := f.g })
  | 0x1#5 => .ok (.fpSub { s := f.s, d := f.d, a := f.a, f := f.f, b := f.b, g := f.g })
  | 0x2#5 => .ok (.fpMul { s := f.s, d := f.d, a := f.a, f := f.f, b := f.b, g := f.g })
  | 0x3#5 => .ok (.fpDiv { s := f.s, d := f.d, a := f.a, f := f.f, b := f.b, g := f.g })
  | 0x4#5 => Fields.unless (f.b != 0 || f.g != 0) (.fpSqrt { s := f.s, d := f.d, a := f.a, f := f.f })
  | 0x5#5 => .ok (.fpFma { s := f.s, d := f.d, a := f.a, f := f.f, b := f.b, g := f.g })
  | 0x6#5 => .ok (.fpMin { s := f.s, d := f.d, a := f.a, f := f.f, b := f.b, g := f.g })
  | 0x7#5 => .ok (.fpMax { s := f.s, d := f.d, a := f.a, f := f.f, b := f.b, g := f.g })
  | 0x8#5 => Fields.unless (f.b != 0 || f.g != 0) (.fpAbs { s := f.s, d := f.d, a := f.a, f := f.f })
  | 0x9#5 => Fields.unless (f.b != 0 || f.g != 0) (.fpNeg { s := f.s, d := f.d, a := f.a, f := f.f })
  | 0xa#5 => .ok (.fpEq { s := f.s, d := f.d, a := f.a, f := f.f, b := f.b, g := f.g })
  | 0xb#5 => .ok (.fpLt { s := f.s, d := f.d, a := f.a, f := f.f, b := f.b, g := f.g })
  | 0xc#5 => .ok (.fpLe { s := f.s, d := f.d, a := f.a, f := f.f, b := f.b, g := f.g })
  | 0xd#5 => .ok (.fpUn { s := f.s, d := f.d, a := f.a, f := f.f, b := f.b, g := f.g })
  | _ => .error .minor

/-- Minors of major 0x10 (R195). -/
def decodeMaj10 (f : Fields) : Except Illegal Instr :=
  match f.min with
  | 0x0#5 => Fields.unless (f.d != 0 || f.a != 0 || f.f != 0 || f.b != 0 || f.g != 0) (.ctlNop { s := f.s })
  | 0x1#5 => Fields.unless (f.d != 0 || f.a != 0 || f.f != 0 || f.b != 0 || f.g != 0) (.ctlEnd { s := f.s })
  | 0x2#5 => Fields.unless (f.d != 0 || f.b != 0 || f.g != 0) (.ctlJr { s := f.s, a := f.a, f := f.f })
  | 0x3#5 => Fields.unless (f.b != 0 || f.g != 0) (.ctlCallr { s := f.s, d := f.d, a := f.a, f := f.f })
  | 0x4#5 => Fields.unless (f.d != 0 || f.b != 0 || f.g != 0) (.ctlRet { s := f.s, a := f.a, f := f.f })
  | 0x5#5 => .ok (.ctlLoop { s := f.s, d := f.d, a := f.a, f := f.f, i := f.b ++ f.g })
  | 0x6#5 => Fields.unless (f.d != 0 || f.b != 0 || f.g != 0) (.ctlSetmpc { s := f.s, a := f.a, f := f.f })
  | 0x7#5 => Fields.unless (f.d.extractLsb' 4 2 != 0 || f.b != 0 || f.g != 0) (.ctlKadd { s := f.s, k := f.d.extractLsb' 0 4, a := f.a, f := f.f })
  | _ => .error .minor

/-- Minors of major 0x13 (R195). -/
def decodeMaj13 (f : Fields) : Except Illegal Instr :=
  match f.min with
  | 0x0#5 => Fields.unless (f.a.extractLsb' 0 4 != 0 || f.f != 0) (.ctlWait { s := f.s, k := f.d, c := f.a.extractLsb' 4 2, b := f.b, g := f.g })
  | _ => .error .minor

/-- Minors of major 0x16 (R195). -/
def decodeMaj16 (f : Fields) : Except Illegal Instr :=
  match f.min with
  | 0x0#5 => .ok (.memLdxb { s := f.s, d := f.d, a := f.a, f := f.f, b := f.b, g := f.g })
  | 0x1#5 => .ok (.memLdxh { s := f.s, d := f.d, a := f.a, f := f.f, b := f.b, g := f.g })
  | 0x2#5 => .ok (.memLdxw { s := f.s, d := f.d, a := f.a, f := f.f, b := f.b, g := f.g })
  | 0x3#5 => .ok (.memLdxd { s := f.s, d := f.d, a := f.a, f := f.f, b := f.b, g := f.g })
  | 0x4#5 => .ok (.memLdxv { s := f.s, d := f.d, a := f.a, f := f.f, b := f.b, g := f.g })
  | 0x8#5 => .ok (.memStxb { s := f.s, d := f.d, a := f.a, f := f.f, b := f.b, g := f.g })
  | 0x9#5 => .ok (.memStxh { s := f.s, d := f.d, a := f.a, f := f.f, b := f.b, g := f.g })
  | 0xa#5 => .ok (.memStxw { s := f.s, d := f.d, a := f.a, f := f.f, b := f.b, g := f.g })
  | 0xb#5 => .ok (.memStxd { s := f.s, d := f.d, a := f.a, f := f.f, b := f.b, g := f.g })
  | 0xc#5 => .ok (.memStxv { s := f.s, d := f.d, a := f.a, f := f.f, b := f.b, g := f.g })
  | 0x10#5 => Fields.unless (f.d.extractLsb' 2 4 != 0 || f.a != 0 || f.f != 0 || f.b != 0 || f.g != 0) (.memDrain { s := f.s, c := f.d.extractLsb' 0 2 })
  | 0x11#5 => Fields.unless (f.d != 0) (.memPf { s := f.s, a := f.a, f := f.f, b := f.b, g := f.g })
  | _ => .error .minor

/-- Minors of major 0x17 (R195). -/
def decodeMaj17 (f : Fields) : Except Illegal Instr :=
  match f.min with
  | 0x0#5 => Fields.unless (f.d.extractLsb' 4 2 != 0 || f.b.extractLsb' 4 2 != 0 || f.g != 0) (.viewOpen { s := f.s, w := f.d.extractLsb' 0 4, a := f.a, f := f.f, q := f.b.extractLsb' 3 1, r := f.b.extractLsb' 2 1, c := f.b.extractLsb' 0 2 })
  | 0x1#5 => Fields.unless (f.d.extractLsb' 4 2 != 0 || f.a != 0 || f.f != 0 || f.b.extractLsb' 2 4 != 0 || f.g != 0) (.viewRetire { s := f.s, w := f.d.extractLsb' 0 4, c := f.b.extractLsb' 0 2 })
  | 0x2#5 => Fields.unless (f.d.extractLsb' 4 2 != 0 || f.b.extractLsb' 2 4 != 0) (.viewSet { s := f.s, w := f.d.extractLsb' 0 4, a := f.a, f := f.f, t := f.b.extractLsb' 0 2 ++ f.g })
  | 0x3#5 => Fields.unless (f.a.extractLsb' 4 2 != 0 || f.f != 0 || f.b.extractLsb' 2 4 != 0) (.viewGet { s := f.s, d := f.d, w := f.a.extractLsb' 0 4, k := f.b.extractLsb' 0 2 ++ f.g })
  | _ => .error .minor

/-- Minors of major 0x1C (R195); an SZ that `atom.fadd`, `atom.fmin` and `atom.fmax` lack is MODIFIER before any operand is
checked. DESIGN CHOICE, log 95. -/
def decodeMaj1C (f : Fields) : Except Illegal Instr :=
  match (f.g ++ f.min : BitVec 6) with
  | 0x0#6 => .ok (.atomAdd { s := f.s, d := f.d, a := f.a, z := f.f ++ f.b.extractLsb' 4 2, o := f.b.extractLsb' 0 4 })
  | 0x1#6 => .ok (.atomAnd { s := f.s, d := f.d, a := f.a, z := f.f ++ f.b.extractLsb' 4 2, o := f.b.extractLsb' 0 4 })
  | 0x2#6 => .ok (.atomOr { s := f.s, d := f.d, a := f.a, z := f.f ++ f.b.extractLsb' 4 2, o := f.b.extractLsb' 0 4 })
  | 0x3#6 => .ok (.atomXor { s := f.s, d := f.d, a := f.a, z := f.f ++ f.b.extractLsb' 4 2, o := f.b.extractLsb' 0 4 })
  | 0x4#6 => .ok (.atomSmin { s := f.s, d := f.d, a := f.a, z := f.f ++ f.b.extractLsb' 4 2, o := f.b.extractLsb' 0 4 })
  | 0x5#6 => .ok (.atomSmax { s := f.s, d := f.d, a := f.a, z := f.f ++ f.b.extractLsb' 4 2, o := f.b.extractLsb' 0 4 })
  | 0x6#6 => .ok (.atomUmin { s := f.s, d := f.d, a := f.a, z := f.f ++ f.b.extractLsb' 4 2, o := f.b.extractLsb' 0 4 })
  | 0x7#6 => .ok (.atomUmax { s := f.s, d := f.d, a := f.a, z := f.f ++ f.b.extractLsb' 4 2, o := f.b.extractLsb' 0 4 })
  | 0x8#6 => .ok (.atomSwap { s := f.s, d := f.d, a := f.a, z := f.f ++ f.b.extractLsb' 4 2, o := f.b.extractLsb' 0 4 })
  | 0x9#6 => if f.f ++ f.b.extractLsb' 4 2 != 2#3 then .error .modifier else .ok (.atomFadd { s := f.s, d := f.d, a := f.a, o := f.b.extractLsb' 0 4 })
  | 0xa#6 => if f.f ++ f.b.extractLsb' 4 2 != 2#3 then .error .modifier else .ok (.atomFmin { s := f.s, d := f.d, a := f.a, o := f.b.extractLsb' 0 4 })
  | 0xb#6 => if f.f ++ f.b.extractLsb' 4 2 != 2#3 then .error .modifier else .ok (.atomFmax { s := f.s, d := f.d, a := f.a, o := f.b.extractLsb' 0 4 })
  | _ => .error .minor

/-- Minors of major 0x1F (R195). -/
def decodeMaj1F (f : Fields) : Except Illegal Instr :=
  match f.min with
  | 0x0#5 => Fields.unless (f.a.extractLsb' 0 4 != 0 || f.f != 0) (.phWait { s := f.s, p := f.d, c := f.a.extractLsb' 4 2, b := f.b, g := f.g })
  | 0x1#5 => Fields.unless (f.a.extractLsb' 0 4 != 0 || f.f != 0) (.phSig { s := f.s, p := f.d, c := f.a.extractLsb' 4 2, b := f.b, g := f.g })
  | 0x2#5 => Fields.unless (f.a.extractLsb' 0 4 != 0 || f.f != 0) (.phReg { s := f.s, p := f.d, m := f.a.extractLsb' 4 2, b := f.b, g := f.g })
  | 0x3#5 => Fields.unless (f.a.extractLsb' 0 4 != 0 || f.f != 0) (.phDrop { s := f.s, p := f.d, c := f.a.extractLsb' 4 2, b := f.b, g := f.g })
  | 0x4#5 => Fields.unless (f.a != 0 || f.f != 0) (.phExpect { s := f.s, p := f.d, b := f.b, g := f.g })
  | _ => .error .minor

/-- Minors of major 0x20 (R195). -/
def decodeMaj20 (f : Fields) : Except Illegal Instr :=
  match f.min with
  | 0x0#5 => .ok (.vecAdd { s := f.s, d := f.d, a := f.a, f := f.f, b := f.b, g := f.g })
  | 0x1#5 => .ok (.vecSub { s := f.s, d := f.d, a := f.a, f := f.f, b := f.b, g := f.g })
  | 0x2#5 => .ok (.vecMul { s := f.s, d := f.d, a := f.a, f := f.f, b := f.b, g := f.g })
  | 0x3#5 => .ok (.vecFma { s := f.s, d := f.d, a := f.a, f := f.f, b := f.b, g := f.g })
  | 0x4#5 => .ok (.vecMin { s := f.s, d := f.d, a := f.a, f := f.f, b := f.b, g := f.g })
  | 0x5#5 => .ok (.vecMax { s := f.s, d := f.d, a := f.a, f := f.f, b := f.b, g := f.g })
  | 0x6#5 => Fields.unless (f.b != 0 || f.g != 0) (.vecAbs { s := f.s, d := f.d, a := f.a, f := f.f })
  | 0x7#5 => Fields.unless (f.b != 0 || f.g != 0) (.vecNeg { s := f.s, d := f.d, a := f.a, f := f.f })
  | 0x8#5 => .ok (.vecDiv { s := f.s, d := f.d, a := f.a, f := f.f, b := f.b, g := f.g })
  | 0x9#5 => Fields.unless (f.b != 0 || f.g != 0) (.vecSqrt { s := f.s, d := f.d, a := f.a, f := f.f })
  | _ => .error .minor

/-- Minors of major 0x21 (R195). -/
def decodeMaj21 (f : Fields) : Except Illegal Instr :=
  match f.min with
  | 0x0#5 => .ok (.vecIadd { s := f.s, d := f.d, a := f.a, f := f.f, b := f.b, g := f.g })
  | 0x1#5 => .ok (.vecIsub { s := f.s, d := f.d, a := f.a, f := f.f, b := f.b, g := f.g })
  | 0x2#5 => .ok (.vecImul { s := f.s, d := f.d, a := f.a, f := f.f, b := f.b, g := f.g })
  | 0x3#5 => .ok (.vecAnd { s := f.s, d := f.d, a := f.a, f := f.f, b := f.b, g := f.g })
  | 0x4#5 => .ok (.vecOr { s := f.s, d := f.d, a := f.a, f := f.f, b := f.b, g := f.g })
  | 0x5#5 => .ok (.vecXor { s := f.s, d := f.d, a := f.a, f := f.f, b := f.b, g := f.g })
  | 0x6#5 => .ok (.vecShl { s := f.s, d := f.d, a := f.a, f := f.f, b := f.b, g := f.g })
  | 0x7#5 => .ok (.vecShr { s := f.s, d := f.d, a := f.a, f := f.f, b := f.b, g := f.g })
  | 0x8#5 => .ok (.vecSar { s := f.s, d := f.d, a := f.a, f := f.f, b := f.b, g := f.g })
  | 0x9#5 => .ok (.vecImin { s := f.s, d := f.d, a := f.a, f := f.f, b := f.b, g := f.g })
  | 0xa#5 => .ok (.vecImax { s := f.s, d := f.d, a := f.a, f := f.f, b := f.b, g := f.g })
  | _ => .error .minor

/-- Minors of major 0x22 (R195). -/
def decodeMaj22 (f : Fields) : Except Illegal Instr :=
  match f.min with
  | 0x0#5 => Fields.unless (f.d.extractLsb' 3 3 != 0) (.vecEq { s := f.s, c := f.d.extractLsb' 0 3, a := f.a, f := f.f, b := f.b, g := f.g })
  | 0x1#5 => Fields.unless (f.d.extractLsb' 3 3 != 0) (.vecNe { s := f.s, c := f.d.extractLsb' 0 3, a := f.a, f := f.f, b := f.b, g := f.g })
  | 0x2#5 => Fields.unless (f.d.extractLsb' 3 3 != 0) (.vecLt { s := f.s, c := f.d.extractLsb' 0 3, a := f.a, f := f.f, b := f.b, g := f.g })
  | 0x3#5 => Fields.unless (f.d.extractLsb' 3 3 != 0) (.vecLe { s := f.s, c := f.d.extractLsb' 0 3, a := f.a, f := f.f, b := f.b, g := f.g })
  | 0x4#5 => Fields.unless (f.d.extractLsb' 3 3 != 0) (.vecIeq { s := f.s, c := f.d.extractLsb' 0 3, a := f.a, f := f.f, b := f.b, g := f.g })
  | 0x5#5 => Fields.unless (f.d.extractLsb' 3 3 != 0) (.vecIlt { s := f.s, c := f.d.extractLsb' 0 3, a := f.a, f := f.f, b := f.b, g := f.g })
  | _ => .error .minor

/-- Minors of major 0x23 (R195). -/
def decodeMaj23 (f : Fields) : Except Illegal Instr :=
  match f.min with
  | 0x0#5 => Fields.unless (f.b != 0 || f.g != 0) (.vecSigm { s := f.s, d := f.d, a := f.a, f := f.f })
  | 0x1#5 => Fields.unless (f.b != 0 || f.g != 0) (.vecExp2 { s := f.s, d := f.d, a := f.a, f := f.f })
  | 0x2#5 => Fields.unless (f.b != 0 || f.g != 0) (.vecRcp { s := f.s, d := f.d, a := f.a, f := f.f })
  | 0x3#5 => Fields.unless (f.b != 0 || f.g != 0) (.vecRsq { s := f.s, d := f.d, a := f.a, f := f.f })
  | 0x4#5 => Fields.unless (f.b != 0 || f.g != 0) (.vecLog2 { s := f.s, d := f.d, a := f.a, f := f.f })
  | 0x5#5 => Fields.unless (f.b != 0 || f.g != 0) (.vecTanh { s := f.s, d := f.d, a := f.a, f := f.f })
  | _ => .error .minor

/-- Minors of major 0x24 (R195). -/
def decodeMaj24 (f : Fields) : Except Illegal Instr :=
  match f.min with
  | 0x0#5 => Fields.unless (f.b.extractLsb' 4 2 != 0 || f.g != 0) (.vecRsum { s := f.s, d := f.d, a := f.a, f := f.f, p := f.b.extractLsb' 3 1, c := f.b.extractLsb' 0 3 })
  | 0x1#5 => Fields.unless (f.b.extractLsb' 4 2 != 0 || f.g != 0) (.vecRmax { s := f.s, d := f.d, a := f.a, f := f.f, p := f.b.extractLsb' 3 1, c := f.b.extractLsb' 0 3 })
  | 0x2#5 => Fields.unless (f.b.extractLsb' 4 2 != 0 || f.g != 0) (.vecRmin { s := f.s, d := f.d, a := f.a, f := f.f, p := f.b.extractLsb' 3 1, c := f.b.extractLsb' 0 3 })
  | 0x3#5 => Fields.unless (f.b.extractLsb' 3 3 != 0) (.vecDotg { s := f.s, d := f.d, a := f.a, f := f.f, t := f.b.extractLsb' 0 3 ++ f.g })
  | _ => .error .minor

/-- Minors of major 0x25 (R195). -/
def decodeMaj25 (f : Fields) : Except Illegal Instr :=
  match f.min with
  | 0x0#5 => Fields.unless (f.b != 0 || f.g != 0) (.vecMov { s := f.s, d := f.d, a := f.a, f := f.f })
  | 0x1#5 => Fields.unless (f.b != 0 || f.g != 0) (.vecBcast { s := f.s, d := f.d, a := f.a, f := f.f })
  | 0x2#5 => .ok (.vecPerm { s := f.s, d := f.d, a := f.a, f := f.f, b := f.b, g := f.g })
  | 0x3#5 => Fields.unless (f.b.extractLsb' 3 3 != 0 || f.g != 0) (.vecSel { s := f.s, d := f.d, a := f.a, f := f.f, c := f.b.extractLsb' 0 3 })
  | 0x4#5 => Fields.unless (f.b.extractLsb' 5 1 != 0) (.vecLane { s := f.s, d := f.d, a := f.a, f := f.f, k := f.b.extractLsb' 0 5 ++ f.g })
  | 0x5#5 => Fields.unless (f.b.extractLsb' 5 1 != 0) (.vecIns { s := f.s, d := f.d, a := f.a, f := f.f, k := f.b.extractLsb' 0 5 ++ f.g })
  | _ => .error .minor

/-- Minors of major 0x26 (R195). -/
def decodeMaj26 (f : Fields) : Except Illegal Instr :=
  match f.min with
  | 0x0#5 => Fields.unless (f.b.extractLsb' 3 3 != 0) (.accRd { s := f.s, d := f.d, a := f.a, f := f.f, e := f.b.extractLsb' 2 1, n := f.b.extractLsb' 0 2 ++ f.g })
  | 0x1#5 => Fields.unless (f.b.extractLsb' 3 3 != 0) (.accRdk { s := f.s, d := f.d, a := f.a, f := f.f, e := f.b.extractLsb' 2 1, n := f.b.extractLsb' 0 2 ++ f.g })
  | _ => .error .minor

/-- Minors of major 0x2C (R195). -/
def decodeMaj2C (f : Fields) : Except Illegal Instr :=
  match f.min with
  | 0x0#5 => .ok (.cvtNar { s := f.s, d := f.d, a := f.a, f := f.f, b := f.b, g := f.g })
  | 0x1#5 => .ok (.cvtWid { s := f.s, d := f.d, a := f.a, f := f.f, b := f.b, g := f.g })
  | 0x2#5 => .ok (.cvtF2i { s := f.s, d := f.d, a := f.a, f := f.f, b := f.b, g := f.g })
  | 0x3#5 => .ok (.cvtI2f { s := f.s, d := f.d, a := f.a, f := f.f, b := f.b, g := f.g })
  | 0x4#5 => Fields.unless (f.b != 0 || f.g != 0) (.cvtE8 { s := f.s, d := f.d, a := f.a, f := f.f })
  | _ => .error .minor

/-- Minors of major 0x2D (R195). -/
def decodeMaj2D (f : Fields) : Except Illegal Instr :=
  match f.min with
  | 0x0#5 => Fields.unless (f.b.extractLsb' 5 1 != 0) (.cvtSf2i { s := f.s, d := f.d, a := f.a, f := f.f, r := f.b.extractLsb' 4 1, q := f.b.extractLsb' 3 1, t := f.b.extractLsb' 0 3 ++ f.g })
  | 0x1#5 => Fields.unless (f.b.extractLsb' 5 1 != 0) (.cvtSi2f { s := f.s, d := f.d, a := f.a, f := f.f, r := f.b.extractLsb' 4 1, q := f.b.extractLsb' 3 1, t := f.b.extractLsb' 0 3 ++ f.g })
  | 0x2#5 => Fields.unless (f.b.extractLsb' 5 1 != 0) (.cvtSf2b { s := f.s, d := f.d, a := f.a, f := f.f, r := f.b.extractLsb' 4 1, q := f.b.extractLsb' 3 1, t := f.b.extractLsb' 0 3 ++ f.g })
  | _ => .error .minor

/-- Minors of major 0x31 (R195). -/
def decodeMaj31 (f : Fields) : Except Illegal Instr :=
  match f.min with
  | 0x0#5 => Fields.unless (f.d.extractLsb' 1 5 != 0 || f.a != 0 || f.f != 0 || f.b != 0 || f.g != 0) (.matDrain { s := f.s, e := f.d.extractLsb' 0 1 })
  | 0x1#5 => Fields.unless (f.d.extractLsb' 3 3 != 0 || f.b != 0 || f.g != 0) (.matSetp { s := f.s, n := f.d.extractLsb' 0 3, a := f.a, f := f.f })
  | 0x2#5 => Fields.unless (f.a.extractLsb' 3 3 != 0 || f.f != 0 || f.b != 0 || f.g != 0) (.matGetp { s := f.s, d := f.d, n := f.a.extractLsb' 0 3 })
  | 0x3#5 => Fields.unless (f.d.extractLsb' 1 5 != 0 || f.b != 0 || f.g != 0) (.matCfg { s := f.s, e := f.d.extractLsb' 0 1, a := f.a, f := f.f })
  | 0x4#5 => Fields.unless (f.d.extractLsb' 1 5 != 0) (.matPert { s := f.s, e := f.d.extractLsb' 0 1, a := f.a, f := f.f, b := f.b, g := f.g })
  | _ => .error .minor

/-- Minors of major 0x38 (R195). -/
def decodeMaj38 (f : Fields) : Except Illegal Instr :=
  match f.min with
  | 0x0#5 => Fields.unless (f.d != 0 || f.a != 0 || f.f != 0 || f.b != 0 || f.g != 0) (.cpStage { s := f.s })
  | 0x1#5 => Fields.unless (f.d != 0) (.cpBatch { s := f.s, a := f.a, f := f.f, b := f.b, g := f.g })
  | 0x2#5 => Fields.unless (f.d != 0) (.cpRread { s := f.s, a := f.a, f := f.f, b := f.b, g := f.g })
  | 0x8#5 => Fields.unless (f.d != 0 || f.b != 0 || f.g != 0) (.ownGive { s := f.s, a := f.a, f := f.f })
  | 0x9#5 => Fields.unless (f.d != 0 || f.b != 0 || f.g != 0) (.ownTake { s := f.s, a := f.a, f := f.f })
  | _ => .error .minor

/-- Minors of major 0x39 (R195). -/
def decodeMaj39 (f : Fields) : Except Illegal Instr :=
  match f.min with
  | 0x0#5 => .ok (.nmCas { s := f.s, d := f.d, a := f.a, f := f.f, b := f.b, g := f.g })
  | 0x1#5 => .ok (.nmEnq { s := f.s, d := f.d, a := f.a, f := f.f, b := f.b, g := f.g })
  | 0x2#5 => Fields.unless (f.b != 0 || f.g != 0) (.nmDeq { s := f.s, d := f.d, a := f.a, f := f.f })
  | 0x3#5 => .ok (.nmChase { s := f.s, d := f.d, a := f.a, f := f.f, b := f.b, g := f.g })
  | _ => .error .minor

/-- Minors of major 0x3A (R195). -/
def decodeMaj3A (f : Fields) : Except Illegal Instr :=
  match f.min with
  | 0x0#5 => Fields.unless (f.b != 0 || f.g != 0) (.collRun { s := f.s, d := f.d, a := f.a, f := f.f })
  | 0x1#5 => Fields.unless (f.d != 0 || f.b != 0 || f.g != 0) (.collAbort { s := f.s, a := f.a, f := f.f })
  | 0x2#5 => Fields.unless (f.b != 0 || f.g != 0) (.collStat { s := f.s, d := f.d, a := f.a, f := f.f })
  | 0x8#5 => .ok (.logAppend { s := f.s, d := f.d, a := f.a, f := f.f, b := f.b, g := f.g })
  | 0x9#5 => Fields.unless (f.b != 0 || f.g != 0) (.logReplay { s := f.s, d := f.d, a := f.a, f := f.f })
  | 0xa#5 => Fields.unless (f.d != 0 || f.b != 0 || f.g != 0) (.logResume { s := f.s, a := f.a, f := f.f })
  | _ => .error .minor

/-- Minors of major 0x3B (R195). -/
def decodeMaj3B (f : Fields) : Except Illegal Instr :=
  match f.min with
  | 0x0#5 => Fields.unless (f.d != 0) (.wlPush { s := f.s, a := f.a, f := f.f, b := f.b, g := f.g })
  | 0x1#5 => Fields.unless (f.a != 0 || f.f != 0 || f.b != 0 || f.g != 0) (.wlPop { s := f.s, d := f.d })
  | 0x2#5 => Fields.unless (f.d != 0 || f.a != 0 || f.f != 0 || f.b != 0 || f.g != 0) (.wlDone { s := f.s })
  | _ => .error .minor

/-- Minors of major 0x3C (R195). -/
def decodeMaj3C (f : Fields) : Except Illegal Instr :=
  match f.min with
  | 0x0#5 => Fields.unless (f.d != 0 || f.b != 0 || f.g != 0) (.sysFlushSplit { s := f.s, a := f.a, f := f.f })
  | 0x1#5 => Fields.unless (f.d != 0 || f.a != 0 || f.f != 0 || f.b != 0 || f.g != 0) (.sysShinv { s := f.s })
  | 0x2#5 => Fields.unless (f.d != 0) (.sysTinv { s := f.s, a := f.a, f := f.f, b := f.b, g := f.g })
  | 0x8#5 => Fields.unless (f.b != 0 || f.g != 0) (.lvlCancel { s := f.s, d := f.d, a := f.a, f := f.f })
  | 0x9#5 => Fields.unless (f.b != 0 || f.g != 0) (.lvlStat { s := f.s, d := f.d, a := f.a, f := f.f })
  | 0x10#5 => Fields.unless (f.d != 0 || f.b != 0 || f.g != 0) (.trapRaise { s := f.s, a := f.a, f := f.f })
  | 0x11#5 => Fields.unless (f.d != 0 || f.a != 0 || f.f != 0 || f.b != 0 || f.g != 0) (.trapRet { s := f.s })
  | _ => .error .minor

/-- The row of a cut slot (R194, R195); every code left out is refused (R196). -/
def decodeFields (f : Fields) : Except Illegal Instr :=
  match f.maj with
  | 0x0#6 => decodeMaj00 f
  | 0x1#6 => decodeMaj01 f
  | 0x2#6 => decodeMaj02 f
  | 0x3#6 => decodeMaj03 f
  | 0x4#6 => decodeMaj04 f
  | 0x5#6 => decodeMaj05 f
  | 0x6#6 => decodeMaj06 f
  | 0x7#6 => .ok (.immLo { s := f.s, d := f.d, i := f.a ++ f.f ++ f.b ++ f.g ++ f.min })
  | 0x8#6 => .ok (.immHi { s := f.s, d := f.d, i := f.a ++ f.f ++ f.b ++ f.g ++ f.min })
  | 0x9#6 => .ok (.aluAddi { s := f.s, d := f.d, a := f.a, f := f.f, i := f.b ++ f.g ++ f.min })
  | 0xa#6 => .ok (.aluAndi { s := f.s, d := f.d, a := f.a, f := f.f, i := f.b ++ f.g ++ f.min })
  | 0xb#6 => Fields.unless (f.b != 0 || f.g != 0 || f.min.extractLsb' 4 1 != 0) (.addrTagi { s := f.s, d := f.d, a := f.a, f := f.f, t := f.min.extractLsb' 0 4 })
  | 0xc#6 => decodeMaj0C f
  | 0x10#6 => decodeMaj10 f
  | 0x11#6 => .ok (.ctlBr { s := f.s, c := f.d, i := f.a ++ f.f ++ f.b ++ f.g ++ f.min })
  | 0x12#6 => .ok (.ctlCall { s := f.s, d := f.d, i := f.a ++ f.f ++ f.b ++ f.g ++ f.min })
  | 0x13#6 => decodeMaj13 f
  | 0x14#6 => .ok (.memLd { s := f.s, d := f.d, a := f.a, z := f.f ++ f.b.extractLsb' 4 2, o := f.b.extractLsb' 0 4, n := f.g ++ f.min })
  | 0x15#6 => .ok (.memSt { s := f.s, d := f.d, a := f.a, z := f.f ++ f.b.extractLsb' 4 2, o := f.b.extractLsb' 0 4, n := f.g ++ f.min })
  | 0x16#6 => decodeMaj16 f
  | 0x17#6 => decodeMaj17 f
  | 0x18#6 => Fields.unless (f.g != 0 || f.min.extractLsb' 4 1 != 0) (.tenLd { s := f.s, d := f.d, a := f.a, z := f.f ++ f.b.extractLsb' 4 2, o := f.b.extractLsb' 0 4, w := f.min.extractLsb' 0 4 })
  | 0x19#6 => Fields.unless (f.g != 0 || f.min.extractLsb' 4 1 != 0) (.tenSt { s := f.s, d := f.d, a := f.a, z := f.f ++ f.b.extractLsb' 4 2, o := f.b.extractLsb' 0 4, w := f.min.extractLsb' 0 4 })
  | 0x1c#6 => decodeMaj1C f
  | 0x1d#6 => .ok (.atomCas { s := f.s, d := f.d, a := f.a, z := f.f ++ f.b.extractLsb' 4 2, o := f.b.extractLsb' 0 4, c := f.g ++ f.min })
  | 0x1e#6 => .ok (.monWait { s := f.s, d := f.d, a := f.a, z := f.f ++ f.b.extractLsb' 4 2, o := f.b.extractLsb' 0 4, t := f.g ++ f.min })
  | 0x1f#6 => decodeMaj1F f
  | 0x20#6 => decodeMaj20 f
  | 0x21#6 => decodeMaj21 f
  | 0x22#6 => decodeMaj22 f
  | 0x23#6 => decodeMaj23 f
  | 0x24#6 => decodeMaj24 f
  | 0x25#6 => decodeMaj25 f
  | 0x26#6 => decodeMaj26 f
  | 0x2c#6 => decodeMaj2C f
  | 0x2d#6 => decodeMaj2D f
  | 0x30#6 => Fields.unless (f.a != 0 || f.f != 0 || f.b.extractLsb' 4 2 != 0) (.matCall { s := f.s, p := f.d, x := f.b.extractLsb' 3 1, e := f.b.extractLsb' 2 1, r := f.b.extractLsb' 0 2 ++ f.g ++ f.min })
  | 0x31#6 => decodeMaj31 f
  | 0x38#6 => decodeMaj38 f
  | 0x39#6 => decodeMaj39 f
  | 0x3a#6 => decodeMaj3A f
  | 0x3b#6 => decodeMaj3B f
  | 0x3c#6 => decodeMaj3C f
  | 0x3d#6 => Fields.unless (f.a != 0 || f.f != 0) (.sysCsrr { s := f.s, d := f.d, i := f.b ++ f.g ++ f.min })
  | 0x3e#6 => Fields.unless (f.d != 0) (.sysCsrw { s := f.s, a := f.a, f := f.f, i := f.b ++ f.g ++ f.min })
  | _ => .error .major

/-- Decode one 32-bit slot. -/
def decodeSlot (w : W32) : Except Illegal Instr := decodeFields (.ofWord w)

/-- The fields of a slot instruction; none for what is no slot. The four rows of `sys.flush` have one encoding: KIND
stands in a register (R341). -/
def Instr.fields : Instr → Option Fields
  | .aluAdd o => some { s := o.s, maj := 0x0#6, d := o.d, a := o.a, f := o.f, b := o.b, g := o.g, min := 0x1#5 }
  | .aluSub o => some { s := o.s, maj := 0x0#6, d := o.d, a := o.a, f := o.f, b := o.b, g := o.g, min := 0x2#5 }
  | .aluMul o => some { s := o.s, maj := 0x0#6, d := o.d, a := o.a, f := o.f, b := o.b, g := o.g, min := 0x3#5 }
  | .aluMulhs o => some { s := o.s, maj := 0x0#6, d := o.d, a := o.a, f := o.f, b := o.b, g := o.g, min := 0x4#5 }
  | .aluMulhu o => some { s := o.s, maj := 0x0#6, d := o.d, a := o.a, f := o.f, b := o.b, g := o.g, min := 0x5#5 }
  | .aluDiv o => some { s := o.s, maj := 0x0#6, d := o.d, a := o.a, f := o.f, b := o.b, g := o.g, min := 0x6#5 }
  | .aluDivu o => some { s := o.s, maj := 0x0#6, d := o.d, a := o.a, f := o.f, b := o.b, g := o.g, min := 0x7#5 }
  | .aluRem o => some { s := o.s, maj := 0x0#6, d := o.d, a := o.a, f := o.f, b := o.b, g := o.g, min := 0x8#5 }
  | .aluRemu o => some { s := o.s, maj := 0x0#6, d := o.d, a := o.a, f := o.f, b := o.b, g := o.g, min := 0x9#5 }
  | .aluMin o => some { s := o.s, maj := 0x0#6, d := o.d, a := o.a, f := o.f, b := o.b, g := o.g, min := 0xa#5 }
  | .aluMax o => some { s := o.s, maj := 0x0#6, d := o.d, a := o.a, f := o.f, b := o.b, g := o.g, min := 0xb#5 }
  | .aluMinu o => some { s := o.s, maj := 0x0#6, d := o.d, a := o.a, f := o.f, b := o.b, g := o.g, min := 0xc#5 }
  | .aluMaxu o => some { s := o.s, maj := 0x0#6, d := o.d, a := o.a, f := o.f, b := o.b, g := o.g, min := 0xd#5 }
  | .aluAnd o => some { s := o.s, maj := 0x1#6, d := o.d, a := o.a, f := o.f, b := o.b, g := o.g, min := 0x0#5 }
  | .aluOr o => some { s := o.s, maj := 0x1#6, d := o.d, a := o.a, f := o.f, b := o.b, g := o.g, min := 0x1#5 }
  | .aluXor o => some { s := o.s, maj := 0x1#6, d := o.d, a := o.a, f := o.f, b := o.b, g := o.g, min := 0x2#5 }
  | .aluAndn o => some { s := o.s, maj := 0x1#6, d := o.d, a := o.a, f := o.f, b := o.b, g := o.g, min := 0x3#5 }
  | .aluShl o => some { s := o.s, maj := 0x1#6, d := o.d, a := o.a, f := o.f, b := o.b, g := o.g, min := 0x4#5 }
  | .aluShr o => some { s := o.s, maj := 0x1#6, d := o.d, a := o.a, f := o.f, b := o.b, g := o.g, min := 0x5#5 }
  | .aluSar o => some { s := o.s, maj := 0x1#6, d := o.d, a := o.a, f := o.f, b := o.b, g := o.g, min := 0x6#5 }
  | .aluRotl o => some { s := o.s, maj := 0x1#6, d := o.d, a := o.a, f := o.f, b := o.b, g := o.g, min := 0x7#5 }
  | .aluRotr o => some { s := o.s, maj := 0x1#6, d := o.d, a := o.a, f := o.f, b := o.b, g := o.g, min := 0x8#5 }
  | .aluClz o => some { s := o.s, maj := 0x1#6, d := o.d, a := o.a, f := o.f, b := 0x0#6, g := 0x0#1, min := 0x9#5 }
  | .aluCtz o => some { s := o.s, maj := 0x1#6, d := o.d, a := o.a, f := o.f, b := 0x0#6, g := 0x0#1, min := 0xa#5 }
  | .aluPopc o => some { s := o.s, maj := 0x1#6, d := o.d, a := o.a, f := o.f, b := 0x0#6, g := 0x0#1, min := 0xb#5 }
  | .aluBswap o => some { s := o.s, maj := 0x1#6, d := o.d, a := o.a, f := o.f, b := 0x0#6, g := 0x0#1, min := 0xc#5 }
  | .aluMov o => some { s := o.s, maj := 0x1#6, d := o.d, a := o.a, f := o.f, b := 0x0#6, g := 0x0#1, min := 0xd#5 }
  | .bitExt o => some { s := o.s, maj := 0x2#6, d := o.d, a := o.a, f := o.f, b := o.b, g := o.g, min := 0x0#5 }
  | .bitExtu o => some { s := o.s, maj := 0x2#6, d := o.d, a := o.a, f := o.f, b := o.b, g := o.g, min := 0x1#5 }
  | .bitIns o => some { s := o.s, maj := 0x2#6, d := o.d, a := o.a, f := o.f, b := o.b, g := o.g, min := 0x2#5 }
  | .bitSet o => some { s := o.s, maj := 0x2#6, d := o.d, a := o.a, f := o.f, b := o.b, g := o.g, min := 0x3#5 }
  | .bitClr o => some { s := o.s, maj := 0x2#6, d := o.d, a := o.a, f := o.f, b := o.b, g := o.g, min := 0x4#5 }
  | .bitTst o => some { s := o.s, maj := 0x2#6, d := o.d, a := o.a, f := o.f, b := o.b, g := o.g, min := 0x5#5 }
  | .cmpEq o => some { s := o.s, maj := 0x3#6, d := o.d, a := o.a, f := o.f, b := o.b, g := o.g, min := 0x0#5 }
  | .cmpNe o => some { s := o.s, maj := 0x3#6, d := o.d, a := o.a, f := o.f, b := o.b, g := o.g, min := 0x1#5 }
  | .cmpLt o => some { s := o.s, maj := 0x3#6, d := o.d, a := o.a, f := o.f, b := o.b, g := o.g, min := 0x2#5 }
  | .cmpLtu o => some { s := o.s, maj := 0x3#6, d := o.d, a := o.a, f := o.f, b := o.b, g := o.g, min := 0x3#5 }
  | .cmpLe o => some { s := o.s, maj := 0x3#6, d := o.d, a := o.a, f := o.f, b := o.b, g := o.g, min := 0x4#5 }
  | .cmpLeu o => some { s := o.s, maj := 0x3#6, d := o.d, a := o.a, f := o.f, b := o.b, g := o.g, min := 0x5#5 }
  | .sel o => some { s := o.s, maj := 0x4#6, d := o.d, a := o.a, f := o.f, b := o.b, g := o.g, min := 0x0#2 ++ o.c }
  | .prSet o => some { s := o.s, maj := 0x5#6, d := 0x0#3 ++ o.c, a := o.a, f := o.f, b := 0x0#6, g := 0x0#1, min := 0x0#5 }
  | .prGet o => some { s := o.s, maj := 0x5#6, d := o.d, a := 0x0#3 ++ o.c, f := 0x0#1, b := 0x0#6, g := 0x0#1, min := 0x1#5 }
  | .prAnd o => some { s := o.s, maj := 0x5#6, d := 0x0#3 ++ o.c, a := 0x0#3 ++ o.x, f := 0x0#1, b := 0x0#3 ++ o.y, g := 0x0#1, min := 0x2#5 }
  | .prOr o => some { s := o.s, maj := 0x5#6, d := 0x0#3 ++ o.c, a := 0x0#3 ++ o.x, f := 0x0#1, b := 0x0#3 ++ o.y, g := 0x0#1, min := 0x3#5 }
  | .prNot o => some { s := o.s, maj := 0x5#6, d := 0x0#3 ++ o.c, a := 0x0#3 ++ o.x, f := 0x0#1, b := 0x0#6, g := 0x0#1, min := 0x4#5 }
  | .addrTag o => some { s := o.s, maj := 0x6#6, d := o.d, a := o.a, f := o.f, b := 0x0#6, g := 0x0#1, min := 0x0#5 }
  | .addrOff o => some { s := o.s, maj := 0x6#6, d := o.d, a := o.a, f := o.f, b := 0x0#6, g := 0x0#1, min := 0x1#5 }
  | .addrSpl o => some { s := o.s, maj := 0x6#6, d := o.d, a := o.a, f := o.f, b := o.b, g := o.g, min := 0x2#5 }
  | .addrSpd o => some { s := o.s, maj := 0x6#6, d := o.d, a := o.a, f := o.f, b := o.b, g := o.g, min := 0x3#5 }
  | .addrPdv o => some { s := o.s, maj := 0x6#6, d := o.d, a := o.a, f := o.f, b := o.b, g := o.g, min := 0x4#5 }
  | .addrPeer o => some { s := o.s, maj := 0x6#6, d := o.d, a := o.a, f := o.f, b := o.b, g := o.g, min := 0x5#5 }
  | .immLo o => some { s := o.s, maj := 0x7#6, d := o.d, a := o.i.extractLsb' 13 6, f := o.i.extractLsb' 12 1, b := o.i.extractLsb' 6 6, g := o.i.extractLsb' 5 1, min := o.i.extractLsb' 0 5 }
  | .immHi o => some { s := o.s, maj := 0x8#6, d := o.d, a := o.i.extractLsb' 13 6, f := o.i.extractLsb' 12 1, b := o.i.extractLsb' 6 6, g := o.i.extractLsb' 5 1, min := o.i.extractLsb' 0 5 }
  | .aluAddi o => some { s := o.s, maj := 0x9#6, d := o.d, a := o.a, f := o.f, b := o.i.extractLsb' 6 6, g := o.i.extractLsb' 5 1, min := o.i.extractLsb' 0 5 }
  | .aluAndi o => some { s := o.s, maj := 0xa#6, d := o.d, a := o.a, f := o.f, b := o.i.extractLsb' 6 6, g := o.i.extractLsb' 5 1, min := o.i.extractLsb' 0 5 }
  | .addrTagi o => some { s := o.s, maj := 0xb#6, d := o.d, a := o.a, f := o.f, b := 0x0#6, g := 0x0#1, min := 0x0#1 ++ o.t }
  | .fpAdd o => some { s := o.s, maj := 0xc#6, d := o.d, a := o.a, f := o.f, b := o.b, g := o.g, min := 0x0#5 }
  | .fpSub o => some { s := o.s, maj := 0xc#6, d := o.d, a := o.a, f := o.f, b := o.b, g := o.g, min := 0x1#5 }
  | .fpMul o => some { s := o.s, maj := 0xc#6, d := o.d, a := o.a, f := o.f, b := o.b, g := o.g, min := 0x2#5 }
  | .fpDiv o => some { s := o.s, maj := 0xc#6, d := o.d, a := o.a, f := o.f, b := o.b, g := o.g, min := 0x3#5 }
  | .fpSqrt o => some { s := o.s, maj := 0xc#6, d := o.d, a := o.a, f := o.f, b := 0x0#6, g := 0x0#1, min := 0x4#5 }
  | .fpFma o => some { s := o.s, maj := 0xc#6, d := o.d, a := o.a, f := o.f, b := o.b, g := o.g, min := 0x5#5 }
  | .fpMin o => some { s := o.s, maj := 0xc#6, d := o.d, a := o.a, f := o.f, b := o.b, g := o.g, min := 0x6#5 }
  | .fpMax o => some { s := o.s, maj := 0xc#6, d := o.d, a := o.a, f := o.f, b := o.b, g := o.g, min := 0x7#5 }
  | .fpAbs o => some { s := o.s, maj := 0xc#6, d := o.d, a := o.a, f := o.f, b := 0x0#6, g := 0x0#1, min := 0x8#5 }
  | .fpNeg o => some { s := o.s, maj := 0xc#6, d := o.d, a := o.a, f := o.f, b := 0x0#6, g := 0x0#1, min := 0x9#5 }
  | .fpEq o => some { s := o.s, maj := 0xc#6, d := o.d, a := o.a, f := o.f, b := o.b, g := o.g, min := 0xa#5 }
  | .fpLt o => some { s := o.s, maj := 0xc#6, d := o.d, a := o.a, f := o.f, b := o.b, g := o.g, min := 0xb#5 }
  | .fpLe o => some { s := o.s, maj := 0xc#6, d := o.d, a := o.a, f := o.f, b := o.b, g := o.g, min := 0xc#5 }
  | .fpUn o => some { s := o.s, maj := 0xc#6, d := o.d, a := o.a, f := o.f, b := o.b, g := o.g, min := 0xd#5 }
  | .ctlNop o => some { s := o.s, maj := 0x10#6, d := 0x0#6, a := 0x0#6, f := 0x0#1, b := 0x0#6, g := 0x0#1, min := 0x0#5 }
  | .ctlEnd o => some { s := o.s, maj := 0x10#6, d := 0x0#6, a := 0x0#6, f := 0x0#1, b := 0x0#6, g := 0x0#1, min := 0x1#5 }
  | .ctlJr o => some { s := o.s, maj := 0x10#6, d := 0x0#6, a := o.a, f := o.f, b := 0x0#6, g := 0x0#1, min := 0x2#5 }
  | .ctlCallr o => some { s := o.s, maj := 0x10#6, d := o.d, a := o.a, f := o.f, b := 0x0#6, g := 0x0#1, min := 0x3#5 }
  | .ctlRet o => some { s := o.s, maj := 0x10#6, d := 0x0#6, a := o.a, f := o.f, b := 0x0#6, g := 0x0#1, min := 0x4#5 }
  | .ctlLoop o => some { s := o.s, maj := 0x10#6, d := o.d, a := o.a, f := o.f, b := o.i.extractLsb' 1 6, g := o.i.extractLsb' 0 1, min := 0x5#5 }
  | .ctlSetmpc o => some { s := o.s, maj := 0x10#6, d := 0x0#6, a := o.a, f := o.f, b := 0x0#6, g := 0x0#1, min := 0x6#5 }
  | .ctlKadd o => some { s := o.s, maj := 0x10#6, d := 0x0#2 ++ o.k, a := o.a, f := o.f, b := 0x0#6, g := 0x0#1, min := 0x7#5 }
  | .ctlBr o => some { s := o.s, maj := 0x11#6, d := o.c, a := o.i.extractLsb' 13 6, f := o.i.extractLsb' 12 1, b := o.i.extractLsb' 6 6, g := o.i.extractLsb' 5 1, min := o.i.extractLsb' 0 5 }
  | .ctlCall o => some { s := o.s, maj := 0x12#6, d := o.d, a := o.i.extractLsb' 13 6, f := o.i.extractLsb' 12 1, b := o.i.extractLsb' 6 6, g := o.i.extractLsb' 5 1, min := o.i.extractLsb' 0 5 }
  | .ctlWait o => some { s := o.s, maj := 0x13#6, d := o.k, a := o.c ++ 0x0#4, f := 0x0#1, b := o.b, g := o.g, min := 0x0#5 }
  | .memLd o => some { s := o.s, maj := 0x14#6, d := o.d, a := o.a, f := o.z.extractLsb' 2 1, b := o.z.extractLsb' 0 2 ++ o.o, g := o.n.extractLsb' 5 1, min := o.n.extractLsb' 0 5 }
  | .memSt o => some { s := o.s, maj := 0x15#6, d := o.d, a := o.a, f := o.z.extractLsb' 2 1, b := o.z.extractLsb' 0 2 ++ o.o, g := o.n.extractLsb' 5 1, min := o.n.extractLsb' 0 5 }
  | .memLdxb o => some { s := o.s, maj := 0x16#6, d := o.d, a := o.a, f := o.f, b := o.b, g := o.g, min := 0x0#5 }
  | .memLdxh o => some { s := o.s, maj := 0x16#6, d := o.d, a := o.a, f := o.f, b := o.b, g := o.g, min := 0x1#5 }
  | .memLdxw o => some { s := o.s, maj := 0x16#6, d := o.d, a := o.a, f := o.f, b := o.b, g := o.g, min := 0x2#5 }
  | .memLdxd o => some { s := o.s, maj := 0x16#6, d := o.d, a := o.a, f := o.f, b := o.b, g := o.g, min := 0x3#5 }
  | .memLdxv o => some { s := o.s, maj := 0x16#6, d := o.d, a := o.a, f := o.f, b := o.b, g := o.g, min := 0x4#5 }
  | .memStxb o => some { s := o.s, maj := 0x16#6, d := o.d, a := o.a, f := o.f, b := o.b, g := o.g, min := 0x8#5 }
  | .memStxh o => some { s := o.s, maj := 0x16#6, d := o.d, a := o.a, f := o.f, b := o.b, g := o.g, min := 0x9#5 }
  | .memStxw o => some { s := o.s, maj := 0x16#6, d := o.d, a := o.a, f := o.f, b := o.b, g := o.g, min := 0xa#5 }
  | .memStxd o => some { s := o.s, maj := 0x16#6, d := o.d, a := o.a, f := o.f, b := o.b, g := o.g, min := 0xb#5 }
  | .memStxv o => some { s := o.s, maj := 0x16#6, d := o.d, a := o.a, f := o.f, b := o.b, g := o.g, min := 0xc#5 }
  | .memDrain o => some { s := o.s, maj := 0x16#6, d := 0x0#4 ++ o.c, a := 0x0#6, f := 0x0#1, b := 0x0#6, g := 0x0#1, min := 0x10#5 }
  | .memPf o => some { s := o.s, maj := 0x16#6, d := 0x0#6, a := o.a, f := o.f, b := o.b, g := o.g, min := 0x11#5 }
  | .viewOpen o => some { s := o.s, maj := 0x17#6, d := 0x0#2 ++ o.w, a := o.a, f := o.f, b := 0x0#2 ++ o.q ++ o.r ++ o.c, g := 0x0#1, min := 0x0#5 }
  | .viewRetire o => some { s := o.s, maj := 0x17#6, d := 0x0#2 ++ o.w, a := 0x0#6, f := 0x0#1, b := 0x0#4 ++ o.c, g := 0x0#1, min := 0x1#5 }
  | .viewSet o => some { s := o.s, maj := 0x17#6, d := 0x0#2 ++ o.w, a := o.a, f := o.f, b := 0x0#4 ++ o.t.extractLsb' 1 2, g := o.t.extractLsb' 0 1, min := 0x2#5 }
  | .viewGet o => some { s := o.s, maj := 0x17#6, d := o.d, a := 0x0#2 ++ o.w, f := 0x0#1, b := 0x0#4 ++ o.k.extractLsb' 1 2, g := o.k.extractLsb' 0 1, min := 0x3#5 }
  | .tenLd o => some { s := o.s, maj := 0x18#6, d := o.d, a := o.a, f := o.z.extractLsb' 2 1, b := o.z.extractLsb' 0 2 ++ o.o, g := 0x0#1, min := 0x0#1 ++ o.w }
  | .tenSt o => some { s := o.s, maj := 0x19#6, d := o.d, a := o.a, f := o.z.extractLsb' 2 1, b := o.z.extractLsb' 0 2 ++ o.o, g := 0x0#1, min := 0x0#1 ++ o.w }
  | .atomAdd o => some { s := o.s, maj := 0x1c#6, d := o.d, a := o.a, f := o.z.extractLsb' 2 1, b := o.z.extractLsb' 0 2 ++ o.o, g := 0x0#1, min := 0x0#5 }
  | .atomAnd o => some { s := o.s, maj := 0x1c#6, d := o.d, a := o.a, f := o.z.extractLsb' 2 1, b := o.z.extractLsb' 0 2 ++ o.o, g := 0x0#1, min := 0x1#5 }
  | .atomOr o => some { s := o.s, maj := 0x1c#6, d := o.d, a := o.a, f := o.z.extractLsb' 2 1, b := o.z.extractLsb' 0 2 ++ o.o, g := 0x0#1, min := 0x2#5 }
  | .atomXor o => some { s := o.s, maj := 0x1c#6, d := o.d, a := o.a, f := o.z.extractLsb' 2 1, b := o.z.extractLsb' 0 2 ++ o.o, g := 0x0#1, min := 0x3#5 }
  | .atomSmin o => some { s := o.s, maj := 0x1c#6, d := o.d, a := o.a, f := o.z.extractLsb' 2 1, b := o.z.extractLsb' 0 2 ++ o.o, g := 0x0#1, min := 0x4#5 }
  | .atomSmax o => some { s := o.s, maj := 0x1c#6, d := o.d, a := o.a, f := o.z.extractLsb' 2 1, b := o.z.extractLsb' 0 2 ++ o.o, g := 0x0#1, min := 0x5#5 }
  | .atomUmin o => some { s := o.s, maj := 0x1c#6, d := o.d, a := o.a, f := o.z.extractLsb' 2 1, b := o.z.extractLsb' 0 2 ++ o.o, g := 0x0#1, min := 0x6#5 }
  | .atomUmax o => some { s := o.s, maj := 0x1c#6, d := o.d, a := o.a, f := o.z.extractLsb' 2 1, b := o.z.extractLsb' 0 2 ++ o.o, g := 0x0#1, min := 0x7#5 }
  | .atomSwap o => some { s := o.s, maj := 0x1c#6, d := o.d, a := o.a, f := o.z.extractLsb' 2 1, b := o.z.extractLsb' 0 2 ++ o.o, g := 0x0#1, min := 0x8#5 }
  | .atomFadd o => some { s := o.s, maj := 0x1c#6, d := o.d, a := o.a, f := 0x0#1, b := 0x2#2 ++ o.o, g := 0x0#1, min := 0x9#5 }
  | .atomFmin o => some { s := o.s, maj := 0x1c#6, d := o.d, a := o.a, f := 0x0#1, b := 0x2#2 ++ o.o, g := 0x0#1, min := 0xa#5 }
  | .atomFmax o => some { s := o.s, maj := 0x1c#6, d := o.d, a := o.a, f := 0x0#1, b := 0x2#2 ++ o.o, g := 0x0#1, min := 0xb#5 }
  | .atomCas o => some { s := o.s, maj := 0x1d#6, d := o.d, a := o.a, f := o.z.extractLsb' 2 1, b := o.z.extractLsb' 0 2 ++ o.o, g := o.c.extractLsb' 5 1, min := o.c.extractLsb' 0 5 }
  | .monWait o => some { s := o.s, maj := 0x1e#6, d := o.d, a := o.a, f := o.z.extractLsb' 2 1, b := o.z.extractLsb' 0 2 ++ o.o, g := o.t.extractLsb' 5 1, min := o.t.extractLsb' 0 5 }
  | .phWait o => some { s := o.s, maj := 0x1f#6, d := o.p, a := o.c ++ 0x0#4, f := 0x0#1, b := o.b, g := o.g, min := 0x0#5 }
  | .phSig o => some { s := o.s, maj := 0x1f#6, d := o.p, a := o.c ++ 0x0#4, f := 0x0#1, b := o.b, g := o.g, min := 0x1#5 }
  | .phReg o => some { s := o.s, maj := 0x1f#6, d := o.p, a := o.m ++ 0x0#4, f := 0x0#1, b := o.b, g := o.g, min := 0x2#5 }
  | .phDrop o => some { s := o.s, maj := 0x1f#6, d := o.p, a := o.c ++ 0x0#4, f := 0x0#1, b := o.b, g := o.g, min := 0x3#5 }
  | .phExpect o => some { s := o.s, maj := 0x1f#6, d := o.p, a := 0x0#6, f := 0x0#1, b := o.b, g := o.g, min := 0x4#5 }
  | .vecAdd o => some { s := o.s, maj := 0x20#6, d := o.d, a := o.a, f := o.f, b := o.b, g := o.g, min := 0x0#5 }
  | .vecSub o => some { s := o.s, maj := 0x20#6, d := o.d, a := o.a, f := o.f, b := o.b, g := o.g, min := 0x1#5 }
  | .vecMul o => some { s := o.s, maj := 0x20#6, d := o.d, a := o.a, f := o.f, b := o.b, g := o.g, min := 0x2#5 }
  | .vecFma o => some { s := o.s, maj := 0x20#6, d := o.d, a := o.a, f := o.f, b := o.b, g := o.g, min := 0x3#5 }
  | .vecMin o => some { s := o.s, maj := 0x20#6, d := o.d, a := o.a, f := o.f, b := o.b, g := o.g, min := 0x4#5 }
  | .vecMax o => some { s := o.s, maj := 0x20#6, d := o.d, a := o.a, f := o.f, b := o.b, g := o.g, min := 0x5#5 }
  | .vecAbs o => some { s := o.s, maj := 0x20#6, d := o.d, a := o.a, f := o.f, b := 0x0#6, g := 0x0#1, min := 0x6#5 }
  | .vecNeg o => some { s := o.s, maj := 0x20#6, d := o.d, a := o.a, f := o.f, b := 0x0#6, g := 0x0#1, min := 0x7#5 }
  | .vecDiv o => some { s := o.s, maj := 0x20#6, d := o.d, a := o.a, f := o.f, b := o.b, g := o.g, min := 0x8#5 }
  | .vecSqrt o => some { s := o.s, maj := 0x20#6, d := o.d, a := o.a, f := o.f, b := 0x0#6, g := 0x0#1, min := 0x9#5 }
  | .vecIadd o => some { s := o.s, maj := 0x21#6, d := o.d, a := o.a, f := o.f, b := o.b, g := o.g, min := 0x0#5 }
  | .vecIsub o => some { s := o.s, maj := 0x21#6, d := o.d, a := o.a, f := o.f, b := o.b, g := o.g, min := 0x1#5 }
  | .vecImul o => some { s := o.s, maj := 0x21#6, d := o.d, a := o.a, f := o.f, b := o.b, g := o.g, min := 0x2#5 }
  | .vecAnd o => some { s := o.s, maj := 0x21#6, d := o.d, a := o.a, f := o.f, b := o.b, g := o.g, min := 0x3#5 }
  | .vecOr o => some { s := o.s, maj := 0x21#6, d := o.d, a := o.a, f := o.f, b := o.b, g := o.g, min := 0x4#5 }
  | .vecXor o => some { s := o.s, maj := 0x21#6, d := o.d, a := o.a, f := o.f, b := o.b, g := o.g, min := 0x5#5 }
  | .vecShl o => some { s := o.s, maj := 0x21#6, d := o.d, a := o.a, f := o.f, b := o.b, g := o.g, min := 0x6#5 }
  | .vecShr o => some { s := o.s, maj := 0x21#6, d := o.d, a := o.a, f := o.f, b := o.b, g := o.g, min := 0x7#5 }
  | .vecSar o => some { s := o.s, maj := 0x21#6, d := o.d, a := o.a, f := o.f, b := o.b, g := o.g, min := 0x8#5 }
  | .vecImin o => some { s := o.s, maj := 0x21#6, d := o.d, a := o.a, f := o.f, b := o.b, g := o.g, min := 0x9#5 }
  | .vecImax o => some { s := o.s, maj := 0x21#6, d := o.d, a := o.a, f := o.f, b := o.b, g := o.g, min := 0xa#5 }
  | .vecEq o => some { s := o.s, maj := 0x22#6, d := 0x0#3 ++ o.c, a := o.a, f := o.f, b := o.b, g := o.g, min := 0x0#5 }
  | .vecNe o => some { s := o.s, maj := 0x22#6, d := 0x0#3 ++ o.c, a := o.a, f := o.f, b := o.b, g := o.g, min := 0x1#5 }
  | .vecLt o => some { s := o.s, maj := 0x22#6, d := 0x0#3 ++ o.c, a := o.a, f := o.f, b := o.b, g := o.g, min := 0x2#5 }
  | .vecLe o => some { s := o.s, maj := 0x22#6, d := 0x0#3 ++ o.c, a := o.a, f := o.f, b := o.b, g := o.g, min := 0x3#5 }
  | .vecIeq o => some { s := o.s, maj := 0x22#6, d := 0x0#3 ++ o.c, a := o.a, f := o.f, b := o.b, g := o.g, min := 0x4#5 }
  | .vecIlt o => some { s := o.s, maj := 0x22#6, d := 0x0#3 ++ o.c, a := o.a, f := o.f, b := o.b, g := o.g, min := 0x5#5 }
  | .vecSigm o => some { s := o.s, maj := 0x23#6, d := o.d, a := o.a, f := o.f, b := 0x0#6, g := 0x0#1, min := 0x0#5 }
  | .vecExp2 o => some { s := o.s, maj := 0x23#6, d := o.d, a := o.a, f := o.f, b := 0x0#6, g := 0x0#1, min := 0x1#5 }
  | .vecRcp o => some { s := o.s, maj := 0x23#6, d := o.d, a := o.a, f := o.f, b := 0x0#6, g := 0x0#1, min := 0x2#5 }
  | .vecRsq o => some { s := o.s, maj := 0x23#6, d := o.d, a := o.a, f := o.f, b := 0x0#6, g := 0x0#1, min := 0x3#5 }
  | .vecLog2 o => some { s := o.s, maj := 0x23#6, d := o.d, a := o.a, f := o.f, b := 0x0#6, g := 0x0#1, min := 0x4#5 }
  | .vecTanh o => some { s := o.s, maj := 0x23#6, d := o.d, a := o.a, f := o.f, b := 0x0#6, g := 0x0#1, min := 0x5#5 }
  | .vecRsum o => some { s := o.s, maj := 0x24#6, d := o.d, a := o.a, f := o.f, b := 0x0#2 ++ o.p ++ o.c, g := 0x0#1, min := 0x0#5 }
  | .vecRmax o => some { s := o.s, maj := 0x24#6, d := o.d, a := o.a, f := o.f, b := 0x0#2 ++ o.p ++ o.c, g := 0x0#1, min := 0x1#5 }
  | .vecRmin o => some { s := o.s, maj := 0x24#6, d := o.d, a := o.a, f := o.f, b := 0x0#2 ++ o.p ++ o.c, g := 0x0#1, min := 0x2#5 }
  | .vecDotg o => some { s := o.s, maj := 0x24#6, d := o.d, a := o.a, f := o.f, b := 0x0#3 ++ o.t.extractLsb' 1 3, g := o.t.extractLsb' 0 1, min := 0x3#5 }
  | .vecMov o => some { s := o.s, maj := 0x25#6, d := o.d, a := o.a, f := o.f, b := 0x0#6, g := 0x0#1, min := 0x0#5 }
  | .vecBcast o => some { s := o.s, maj := 0x25#6, d := o.d, a := o.a, f := o.f, b := 0x0#6, g := 0x0#1, min := 0x1#5 }
  | .vecPerm o => some { s := o.s, maj := 0x25#6, d := o.d, a := o.a, f := o.f, b := o.b, g := o.g, min := 0x2#5 }
  | .vecSel o => some { s := o.s, maj := 0x25#6, d := o.d, a := o.a, f := o.f, b := 0x0#3 ++ o.c, g := 0x0#1, min := 0x3#5 }
  | .vecLane o => some { s := o.s, maj := 0x25#6, d := o.d, a := o.a, f := o.f, b := 0x0#1 ++ o.k.extractLsb' 1 5, g := o.k.extractLsb' 0 1, min := 0x4#5 }
  | .vecIns o => some { s := o.s, maj := 0x25#6, d := o.d, a := o.a, f := o.f, b := 0x0#1 ++ o.k.extractLsb' 1 5, g := o.k.extractLsb' 0 1, min := 0x5#5 }
  | .accRd o => some { s := o.s, maj := 0x26#6, d := o.d, a := o.a, f := o.f, b := 0x0#3 ++ o.e ++ o.n.extractLsb' 1 2, g := o.n.extractLsb' 0 1, min := 0x0#5 }
  | .accRdk o => some { s := o.s, maj := 0x26#6, d := o.d, a := o.a, f := o.f, b := 0x0#3 ++ o.e ++ o.n.extractLsb' 1 2, g := o.n.extractLsb' 0 1, min := 0x1#5 }
  | .cvtNar o => some { s := o.s, maj := 0x2c#6, d := o.d, a := o.a, f := o.f, b := o.b, g := o.g, min := 0x0#5 }
  | .cvtWid o => some { s := o.s, maj := 0x2c#6, d := o.d, a := o.a, f := o.f, b := o.b, g := o.g, min := 0x1#5 }
  | .cvtF2i o => some { s := o.s, maj := 0x2c#6, d := o.d, a := o.a, f := o.f, b := o.b, g := o.g, min := 0x2#5 }
  | .cvtI2f o => some { s := o.s, maj := 0x2c#6, d := o.d, a := o.a, f := o.f, b := o.b, g := o.g, min := 0x3#5 }
  | .cvtE8 o => some { s := o.s, maj := 0x2c#6, d := o.d, a := o.a, f := o.f, b := 0x0#6, g := 0x0#1, min := 0x4#5 }
  | .cvtSf2i o => some { s := o.s, maj := 0x2d#6, d := o.d, a := o.a, f := o.f, b := 0x0#1 ++ o.r ++ o.q ++ o.t.extractLsb' 1 3, g := o.t.extractLsb' 0 1, min := 0x0#5 }
  | .cvtSi2f o => some { s := o.s, maj := 0x2d#6, d := o.d, a := o.a, f := o.f, b := 0x0#1 ++ o.r ++ o.q ++ o.t.extractLsb' 1 3, g := o.t.extractLsb' 0 1, min := 0x1#5 }
  | .cvtSf2b o => some { s := o.s, maj := 0x2d#6, d := o.d, a := o.a, f := o.f, b := 0x0#1 ++ o.r ++ o.q ++ o.t.extractLsb' 1 3, g := o.t.extractLsb' 0 1, min := 0x2#5 }
  | .matCall o => some { s := o.s, maj := 0x30#6, d := o.p, a := 0x0#6, f := 0x0#1, b := 0x0#2 ++ o.x ++ o.e ++ o.r.extractLsb' 6 2, g := o.r.extractLsb' 5 1, min := o.r.extractLsb' 0 5 }
  | .matDrain o => some { s := o.s, maj := 0x31#6, d := 0x0#5 ++ o.e, a := 0x0#6, f := 0x0#1, b := 0x0#6, g := 0x0#1, min := 0x0#5 }
  | .matSetp o => some { s := o.s, maj := 0x31#6, d := 0x0#3 ++ o.n, a := o.a, f := o.f, b := 0x0#6, g := 0x0#1, min := 0x1#5 }
  | .matGetp o => some { s := o.s, maj := 0x31#6, d := o.d, a := 0x0#3 ++ o.n, f := 0x0#1, b := 0x0#6, g := 0x0#1, min := 0x2#5 }
  | .matCfg o => some { s := o.s, maj := 0x31#6, d := 0x0#5 ++ o.e, a := o.a, f := o.f, b := 0x0#6, g := 0x0#1, min := 0x3#5 }
  | .matPert o => some { s := o.s, maj := 0x31#6, d := 0x0#5 ++ o.e, a := o.a, f := o.f, b := o.b, g := o.g, min := 0x4#5 }
  | .cpStage o => some { s := o.s, maj := 0x38#6, d := 0x0#6, a := 0x0#6, f := 0x0#1, b := 0x0#6, g := 0x0#1, min := 0x0#5 }
  | .cpBatch o => some { s := o.s, maj := 0x38#6, d := 0x0#6, a := o.a, f := o.f, b := o.b, g := o.g, min := 0x1#5 }
  | .cpRread o => some { s := o.s, maj := 0x38#6, d := 0x0#6, a := o.a, f := o.f, b := o.b, g := o.g, min := 0x2#5 }
  | .ownGive o => some { s := o.s, maj := 0x38#6, d := 0x0#6, a := o.a, f := o.f, b := 0x0#6, g := 0x0#1, min := 0x8#5 }
  | .ownTake o => some { s := o.s, maj := 0x38#6, d := 0x0#6, a := o.a, f := o.f, b := 0x0#6, g := 0x0#1, min := 0x9#5 }
  | .nmCas o => some { s := o.s, maj := 0x39#6, d := o.d, a := o.a, f := o.f, b := o.b, g := o.g, min := 0x0#5 }
  | .nmEnq o => some { s := o.s, maj := 0x39#6, d := o.d, a := o.a, f := o.f, b := o.b, g := o.g, min := 0x1#5 }
  | .nmDeq o => some { s := o.s, maj := 0x39#6, d := o.d, a := o.a, f := o.f, b := 0x0#6, g := 0x0#1, min := 0x2#5 }
  | .nmChase o => some { s := o.s, maj := 0x39#6, d := o.d, a := o.a, f := o.f, b := o.b, g := o.g, min := 0x3#5 }
  | .collRun o => some { s := o.s, maj := 0x3a#6, d := o.d, a := o.a, f := o.f, b := 0x0#6, g := 0x0#1, min := 0x0#5 }
  | .collAbort o => some { s := o.s, maj := 0x3a#6, d := 0x0#6, a := o.a, f := o.f, b := 0x0#6, g := 0x0#1, min := 0x1#5 }
  | .collStat o => some { s := o.s, maj := 0x3a#6, d := o.d, a := o.a, f := o.f, b := 0x0#6, g := 0x0#1, min := 0x2#5 }
  | .logAppend o => some { s := o.s, maj := 0x3a#6, d := o.d, a := o.a, f := o.f, b := o.b, g := o.g, min := 0x8#5 }
  | .logReplay o => some { s := o.s, maj := 0x3a#6, d := o.d, a := o.a, f := o.f, b := 0x0#6, g := 0x0#1, min := 0x9#5 }
  | .logResume o => some { s := o.s, maj := 0x3a#6, d := 0x0#6, a := o.a, f := o.f, b := 0x0#6, g := 0x0#1, min := 0xa#5 }
  | .wlPush o => some { s := o.s, maj := 0x3b#6, d := 0x0#6, a := o.a, f := o.f, b := o.b, g := o.g, min := 0x0#5 }
  | .wlPop o => some { s := o.s, maj := 0x3b#6, d := o.d, a := 0x0#6, f := 0x0#1, b := 0x0#6, g := 0x0#1, min := 0x1#5 }
  | .wlDone o => some { s := o.s, maj := 0x3b#6, d := 0x0#6, a := 0x0#6, f := 0x0#1, b := 0x0#6, g := 0x0#1, min := 0x2#5 }
  | .sysFlushSplit o => some { s := o.s, maj := 0x3c#6, d := 0x0#6, a := o.a, f := o.f, b := 0x0#6, g := 0x0#1, min := 0x0#5 }
  | .sysFlushL2 o => some { s := o.s, maj := 0x3c#6, d := 0x0#6, a := o.a, f := o.f, b := 0x0#6, g := 0x0#1, min := 0x0#5 }
  | .sysFlushL2Clean o => some { s := o.s, maj := 0x3c#6, d := 0x0#6, a := o.a, f := o.f, b := 0x0#6, g := 0x0#1, min := 0x0#5 }
  | .sysFlushL1 o => some { s := o.s, maj := 0x3c#6, d := 0x0#6, a := o.a, f := o.f, b := 0x0#6, g := 0x0#1, min := 0x0#5 }
  | .sysShinv o => some { s := o.s, maj := 0x3c#6, d := 0x0#6, a := 0x0#6, f := 0x0#1, b := 0x0#6, g := 0x0#1, min := 0x1#5 }
  | .sysTinv o => some { s := o.s, maj := 0x3c#6, d := 0x0#6, a := o.a, f := o.f, b := o.b, g := o.g, min := 0x2#5 }
  | .lvlCancel o => some { s := o.s, maj := 0x3c#6, d := o.d, a := o.a, f := o.f, b := 0x0#6, g := 0x0#1, min := 0x8#5 }
  | .lvlStat o => some { s := o.s, maj := 0x3c#6, d := o.d, a := o.a, f := o.f, b := 0x0#6, g := 0x0#1, min := 0x9#5 }
  | .trapRaise o => some { s := o.s, maj := 0x3c#6, d := 0x0#6, a := o.a, f := o.f, b := 0x0#6, g := 0x0#1, min := 0x10#5 }
  | .trapRet o => some { s := o.s, maj := 0x3c#6, d := 0x0#6, a := 0x0#6, f := 0x0#1, b := 0x0#6, g := 0x0#1, min := 0x11#5 }
  | .sysCsrr o => some { s := o.s, maj := 0x3d#6, d := o.d, a := 0x0#6, f := 0x0#1, b := o.i.extractLsb' 6 6, g := o.i.extractLsb' 5 1, min := o.i.extractLsb' 0 5 }
  | .sysCsrw o => some { s := o.s, maj := 0x3e#6, d := 0x0#6, a := o.a, f := o.f, b := o.i.extractLsb' 6 6, g := o.i.extractLsb' 5 1, min := o.i.extractLsb' 0 5 }
  | _ => none

/-- The word of a slot instruction (R186). -/
def encode (i : Instr) : Option W32 := i.fields.map Fields.toWord

/-- The micro-operation of a micro-word for engine `e` (R306, R307): a non-zero reserved bit, OP 14 or 15, or a
non-zero field that the operation does not use is refused. -/
def decodeMicro (e : Nat) (w : W64) : Option Instr :=
  let m : Micro :=
    { ip := w.extractLsb' 63 1, pa := w.extractLsb' 53 3, pb := w.extractLsb' 50 3,
      acc := w.extractLsb' 47 3, la := w.extractLsb' 45 2, x := w.extractLsb' 44 1, imm := w.extractLsb' 0 32 }
  let only (pa pb acc la x : Bool) (immMask : W32) : Bool :=
    (pa || m.pa == 0) && (pb || m.pb == 0) && (acc || m.acc == 0) && (la || m.la == 0) && (x || m.x == 0)
      && (m.imm &&& ~~~immMask) == 0
  let take (ok : Bool) (i : Instr) : Option Instr := if ok then some i else none
  if w.extractLsb' 60 3 != 0 || w.extractLsb' 32 12 != 0 then none else
  match (w.extractLsb' 56 4).toNat with
  | 0 => take (only false false false false false 0xFFFF#32) (.muDecl e m)
  | 1 => take (only false false false false false 0#32) (.muEnd e m)
  | 2 => take (only true true false false true 0#32) (.muLdb e m)
  | 3 => take (only true false false true true 0#32) (.muLda e m)
  | 4 => take (only false false true true true 0#32) (.muMac e m)
  | 5 => take (only false false true false false 0#32) (.muZacc e m)
  | 6 => take (only true false true false false 0#32) (.muLdacc e m)
  | 7 => take (only true false true false true 0#32) (.muStacc e m)
  | 8 => take (only false false true false false 7#32) (.muAccadd e m)
  | 9 => take (only true false false false false 0xFFFFFFFF#32) (.muPadd e m)
  | 10 => take (only false true false false false 0xFFFFFFFF#32) (.muLbadd e m)
  | 11 => take (only false false false false true 0xFFFFFFFF#32) (.muCset e m)
  | 12 => take (only false false false false true 0xFFF#32) (.muCloop e m)
  | 13 => take (only false false false false false 0x3F#32) (.muSig e m)
  | _ => none

/-- A micro-word from its operation code and fields (R306). -/
def Micro.toWord (op : BitVec 4) (m : Micro) : W64 :=
  m.ip ++ 0#3 ++ op ++ m.pa ++ m.pb ++ m.acc ++ m.la ++ m.x ++ 0#12 ++ m.imm

/-- The word of a micro-operation. -/
def encodeMicro : Instr → Option W64
  | .muDecl _ m => some (m.toWord 0) | .muEnd _ m => some (m.toWord 1) | .muLdb _ m => some (m.toWord 2)
  | .muLda _ m => some (m.toWord 3) | .muMac _ m => some (m.toWord 4) | .muZacc _ m => some (m.toWord 5)
  | .muLdacc _ m => some (m.toWord 6) | .muStacc _ m => some (m.toWord 7) | .muAccadd _ m => some (m.toWord 8)
  | .muPadd _ m => some (m.toWord 9) | .muLbadd _ m => some (m.toWord 10) | .muCset _ m => some (m.toWord 11)
  | .muCloop _ m => some (m.toWord 12) | .muSig _ m => some (m.toWord 13)
  | _ => none

/-- The step of a collective step word for run `r` (R332); OP 7 to 15 and CSEL 3 are refused, and reserved
bits ignored (R4). -/
def decodeStep (r : Nat) (w : W64) : Option Instr :=
  let st : StepWord :=
    { start := w.extractLsb' 59 1, store := w.extractLsb' 58 1, csel := w.extractLsb' 56 2,
      pd := w.extractLsb' 48 8, cd := w.extractLsb' 40 8, limit := w.extractLsb' 24 16, cnt := w.extractLsb' 10 1,
      arg := w.extractLsb' 0 10 }
  if st.csel == 3#2 then none else
  match (w.extractLsb' 60 4).toNat with
  | 0 => some (.collSend r st) | 1 => some (.collRecv r st) | 2 => some (.collRrs r st) | 3 => some (.collCopy r st)
  | 4 => some (.collWait r st) | 5 => some (.collLoop r st) | 6 => some (.collEnd r)
  | _ => none

/-- A step word from its operation code and fields (R332). -/
def StepWord.toWord (op : BitVec 4) (st : StepWord) : W64 :=
  op ++ st.start ++ st.store ++ st.csel ++ st.pd ++ st.cd ++ st.limit ++ 0#13 ++ st.cnt ++ st.arg

/-- The step word of a collective step. -/
def encodeStep : Instr → Option W64
  | .collSend _ st => some (st.toWord 0) | .collRecv _ st => some (st.toWord 1) | .collRrs _ st => some (st.toWord 2)
  | .collCopy _ st => some (st.toWord 3) | .collWait _ st => some (st.toWord 4) | .collLoop _ st => some (st.toWord 5)
  | .collEnd _ => some 0x6000000000000000#64
  | _ => none

/-- What the decoder reads from an instruction whose bits are `w`, numbered as the table numbers them. Slots have 32
bits (R186); the table gives no bits to micro-words, which have 64 (R306) and are read for engine 0 here. -/
def decodeTableWord (nbits w : Nat) : Option Instr :=
  if nbits ≤ 32 then
    match decodeSlot (BitVec.ofNat 32 w) with
    | .ok i => some i
    | .error _ => none
  else decodeMicro 0 (BitVec.ofNat 64 w)

end Sys2Proof
end

