-- ==== Sys2Proof/Config.lean ====
section
/-! DEFINITION. What an implementation fixes, and the free values: values that the spec leaves open. A free value has no
body, so nothing can be proved of it but what holds for every value. -/
namespace Sys2Proof.Config

/-- Contents that the spec leaves undefined, one byte for each use (R147, R397; log 6, log 7). -/
opaque freeByte : Nat → Byte

/-- Choices that the spec leaves to the device and that programs can see only through timing or a stale copy: the way
that a cache replaces (R63, R65, R68; log 6). -/
opaque victim : Nat → Nat

/-- How many segments a message takes beyond its first, and the bytes of each (R406; log 53). -/
opaque moreSegments : Msg → Nat
/-- See `moreSegments`. -/
opaque segmentBytes : Msg → Nat → List Byte

/-- The buffer credits that a flit returns (R406, R407; log 53). -/
opaque credits : Nat → BitVec 12

/-- The leading 64 bits of the AES-256-GCM tag of an empty plaintext under a key, a nonce and additional authenticated data (R408;
log 110). -/
opaque gcmTag : BitVec 256 → BitVec 96 → List Byte → W64

/-- What an attestation brings, by the number of signatures given before it (R412; log 110): the peer's nonce, this end's
ML-KEM-1024 public key or ciphertext, the LMS signature over a report's contents, and the shared secret. -/
opaque peerNonce : Nat → List Byte
/-- See `peerNonce`. -/
opaque kemValue : Nat → List Byte
/-- See `peerNonce`. -/
opaque lmsSign : Nat → List Byte → List Byte
/-- See `peerNonce`. -/
opaque sharedSecret : Nat → BitVec 256

/-- What self-test finds at power-up (R414, R415; log 5). -/
opaque selfTest : Nat → SelfTest

end Sys2Proof.Config
end

