-- ==== Sys2Proof/Machine/State.lean ====
section
/-! DEFINITION. The state of one M7 as plain data: its contexts and cores, its memories, its engines, the
scheduler's launches, the log, the fabric ports and its registers. Large sparse things are tables sorted by key;
what is not listed has its reset value. Fields of the model alone say so. -/
namespace Sys2Proof.Machine

/-- A table sorted by key, each key once; what it does not list has the reader's default. -/
abbrev Tbl (α : Type) := List (Nat × α)

/-- Why a step stops the machine. -/
inductive Fault where
  /-- Raised by `step` on a device whose bring-up failed: it stops at the failing step (R414). Safe: nothing is
  claimed of a device that never came up. -/
  | bringUpFailed
deriving DecidableEq, Repr

/-- Why an instruction has no meaning here. -/
inductive Refusal where
  /-- Raised by the arm of an instruction that the model has not reached. Safe. -/
  | notModelled (mnemonic : String)
deriving DecidableEq, Repr

/-- Where a slot's result goes (R179, R188). -/
inductive Dest where
  | push
  | g (n : Nat)
  | h (n : Nat)
  | drop
deriving DecidableEq, Repr

/-- A trap or fault: class, cause and FAULT_ADDR (R388, R389); none: the bundle address. -/
structure Trap where
  (cls cause : Nat) (addr : Option W64)
deriving DecidableEq, Repr

/-- What a blocked bundle waits for (R150, R246, R252, R317). -/
inductive Block where
  /-- a semaphore of the context reaches an amount (R246) -/
  | semaphore (k amount : Nat)
  /-- a phase of a slot completes (R272) -/
  | phase (core slot phase : Nat)
  /-- the phase that a leaving member waited for has completed: the wait is over (R269) -/
  | passed (core slot : Nat)
  /-- the drains of the context are over (R252) -/
  | drain
  /-- no command accepted so far names the tile (R135) -/
  | take (tile : Nat)
  /-- an engine's queue has a place (R299) -/
  | engineQueue (e : Nat)
  /-- an engine is idle (R302) -/
  | engineIdle (e : Nat)
  /-- an octant has room for a stage of `count` entries (R322) -/
  | octant (n count : Nat)
  /-- a collective engine of the die has a place (R333) -/
  | collective (die : Nat)
  /-- the bucket unit has room (R339) -/
  | bucket
  /-- a task may start, or the job is done (R339, R361, R367) -/
  | task
  /-- the slot of a sequence number is free (R374) -/
  | logSlot (seq : Nat)
  /-- a monitored line (R264) -/
  | monitor
  /-- a maintenance operation has finished; `split` is the SPLIT that a flush asks for (R341, R342, R343) -/
  | maintenance (split : Option Nat)
  /-- firmware performs the bundle (R392) -/
  | emulation
deriving DecidableEq, Repr

/-- What a bundle that cannot issue waits for: a stall holds the core (R151), a block does not (R150). -/
inductive Wait where
  /-- a register or queue entry fills (R185) -/
  | reg
  /-- a line fills (R139) -/
  | line (key : Nat)
  /-- the live-view directory has `room` free entries, with those of the views that the bundle's opens retire, each done with
  at a scope (R50, R51) -/
  | directory (room : Nat) (owns : List (Nat × Nat))
  /-- an accumulator tile fills (R143) -/
  | acc (e n : Nat)
  /-- the page walk of an address ends (R68); `addr` is the effective address of the access (R30) -/
  | walk (va addr : Nat) (write : Bool)
  /-- a record on another device arrives (R26, R32) -/
  | fetch (device off bytes : Nat)
  /-- a view's pending accesses have performed (R256) -/
  | view (w : Nat)
  /-- a record read before commit may read now: earlier accesses that it must follow have performed (R49, R104, R256,
  R322, R331) -/
  | read
  | block (b : Block)
deriving DecidableEq, Repr

/-- Where one piece of an access goes, after resolution (R29, R41, R68). -/
inductive Place where
  /-- on-device memory by key: a physical address, or a scratchpad byte (see `spKey`) -/
  | mem (key : Nat)
  /-- a virtual address and the key it translates to (R68) -/
  | va (va key : Nat)
  /-- a virtual address still to be translated before commit -/
  | untranslated (va : Nat)
  /-- a virtual address whose line the L1 held at commit (R20, R63) -/
  | cached (va : Nat)
  /-- bytes of a VA store that has performed at core scope, at the own column's L2 boundary (R116) -/
  | bound (va key : Nat)
  | peer (device off : Nat)
  | host (addr : Nat)
  | mmio (die off : Nat)
  /-- an element outside the tensor with EDGE 1 (R45) -/
  | outside
deriving DecidableEq, Repr

/-- One indivisible piece of an access: `bits` bits at bit `bit` of `bytes` bytes, held at bit `lo` of the data
(R38, R106). -/
structure Piece where
  (place : Place) (bytes bit bits lo : Nat)
deriving DecidableEq, Repr

/-- A memory access of a unit (R101, R118, R189): its operation, strength, cache hint, acquire, data, the pieces
that have not performed, what was read, and the result it fills. `foot` holds the view and its descriptor (R46), `entry`
the live-view directory entry of the view (R48), `index` the view index of its first element (R44). `data` of a load holds what
the L1 gave at commit for its cached pieces. -/
structure Access where
  (op : MemOp) (strong : Option Nat) (hint : Nat) (acquire : Bool) (slot asid : Nat) (data : Vec) (pieces : List Piece)
  (got : Vec) (res : Option Nat) (view : Option Nat) (foot : Option (BitVec 512 × BitVec 1024)) (sent : Bool) (entry : Option Nat)
  (index : W64)
deriving DecidableEq, Repr

/-- What a release makes visible once it takes effect (R121, R122). -/
inductive Release where
  /-- `view.retire`: later stores wait for it, and the directory entry of the view is then freed (R50, R255) -/
  | view (entry : Option Nat)
  /-- `ph.sig`, and `ph.drop` where it counts as a signal (R270, R271) -/
  | signal (core slot : Nat) (drop : Bool)
  /-- `own.give`: engines may then use the tile (R134) -/
  | give (tile : Nat)
  /-- `wl.push`: the task may then be popped (R339) -/
  | push (job bucket : Nat) (task : W64)
  /-- `wl.done` (R367) -/
  | taskDone (job : Nat)
  /-- `log.append`: the entry reaches its slot (R338) -/
  | append (seq : Nat) (entry : BitVec 256)
  /-- `log.resume` (R338) -/
  | resume (seq : Nat)
deriving DecidableEq, Repr

/-- What a unit has committed and the device has still to do, in program order. -/
inductive PendKind where
  | access (a : Access)
  | release (scope : Nat) (r : Release)
  | drain (scope : Nat)
  /-- the acquire of a `view.open` (R123) -/
  | acquire (scope : Nat)
deriving DecidableEq, Repr

/-- An entry of a unit's pending list, with the number of its bundle (R104). -/
structure Pend where
  (id bundle : Nat) (kind : PendKind)
deriving DecidableEq, Repr

/-- A result on its way to its register or queue entry (R181); `flags` are those of an FP atomic (R262). -/
structure Result where
  (id : Nat) (val : Vec) (flags : BitVec 5)
deriving DecidableEq, Repr

/-- The effects that the slots of a bundle ask for; all take place when the bundle commits (R101, R102, R192). -/
inductive Effect where
  /-- an immediate result (R181) -/
  | imm (d : Dest) (v : W64)
  /-- a variable-latency result (R181) -/
  | late (d : Dest) (isVec : Bool) (v : Vec)
  /-- a memory access; a result goes to `d` (R250) -/
  | access (a : Access) (d : Option (Dest × Bool))
  | flags (f : BitVec 5)
  | pred (c : Nat) (v : W64)
  | param (p : Nat) (v : W64)
  | mpc (v : W64)
  | kadd (k : Nat) (v : W64)
  | ksub (k n : Nat)
  | csr (n : Nat) (v : W64)
  | acquire (scope : Nat)
  | drain (scope : Nat)
  | prefetch (p : Place)
  /-- a record of `n` bytes was read at a pointer before commit (R26): the tags of the caches follow -/
  | loaded (p : W64) (n : Nat)
  /-- the bits of a mask of a view register (R256) -/
  | viewWrite (w : Nat) (mask v : BitVec 512)
  | viewOpen (w : Nat) (desc : BitVec 1024) (scope : Nat) (wr aq : Bool)
  | viewRetire (w scope : Nat)
  /-- a monitored wait: its read, comparand, timeout exponent and destination (R264) -/
  | monitor (a : Access) (cmp : W64) (timeout : Nat) (d : Dest)
  /-- the slot passed its checks and waits (R150, R246, R272, R317) -/
  | blocked (w : Wait)
  | phSignal (core slot scope : Nat)
  | phReg (core slot mode : Nat)
  | phDrop (core slot scope : Nat)
  | phWait (core slot : Nat)
  | phExpect (core slot count : Nat)
  | give (tile : Nat)
  | take (tile : Nat)
  | stage (entries : List (Nat × BitVec 512))
  | batch (opnd res : Nat) (ctl : W64)
  | rread (dst ph : Nat) (lines : List Place)
  | matCall (e routine ph : Nat) (mask : Option (BitVec 256))
  | matDrained (e : Nat)
  | matCfg (e : Nat) (v : W64)
  | matPert (e : Nat) (pert : W64) (sigma : W32)
  | collRun (desc : BitVec 1024)
  | collAbort (g : Nat)
  | logAppend (seq : Nat) (entry : BitVec 256)
  | logReplay (limit : Nat)
  | logResume (seq : Nat)
  | wlPush (bucket : Nat) (task : W64)
  | wlTake (core job bucket : Nat) (task : W64)
  | wlDone
  | flush (kind newSplit : Nat)
  | shinv
  | tinv (asid first pages : Nat)
  | cancel (level inst : Nat)
  | jump (pc : W64)
  | endUnit
  | loop (level : Nat) (count endAt skipTo : W64)
  | trapRaise (a : W64)
  | trapRet
deriving DecidableEq, Repr

/-- A g register with its full/empty state: `pend` names the producer it waits for (R183). -/
structure GReg where
  (val : W64) (pend : Option Nat)
deriving DecidableEq, Repr

/-- An h register with its full/empty state (R183). -/
structure HReg where
  (val : Vec) (pend : Option Nat)
deriving DecidableEq, Repr

/-- A result-queue entry: tag, value (a scalar in the low 64 bits) and producer it waits for (R180 to R182). -/
structure QEntry where
  (isVec : Bool) (val : Vec) (pend : Option Nat)
deriving DecidableEq, Repr

/-- A hardware loop level (R242). -/
structure Loop where
  (active : Bool) (start endAt count : W64)
deriving DecidableEq, Repr

/-- An armed monitor (R264): the line, when it was armed, the timeout's end, the wake cause once there is one, and
the bundle that waits. -/
structure Monitor where
  (line armedAt : Nat) (until' : Option Nat) (woken : Option Nat) (pc : W64)
deriving DecidableEq, Repr

/-- What a context is doing (R149, R167, R174, R348, R390, R392, R400). -/
inductive CtxStatus where
  | free
  /-- placed, not yet started (R348) -/
  | reserved
  | running
  /-- in handler mode, waiting for the decision on a fault record (R390) -/
  | handler
  /-- firmware performs its bundle (R392) -/
  | emulating
  /-- the retire of R174 runs -/
  | retiring
  /-- stopped by a cancel or a discard, leaving (R167) -/
  | stopping
  /-- being saved (R400) -/
  | saving
deriving DecidableEq, Repr

/-- The unit a context holds: launch (the number the scheduler gave the record), logical index, pipeline stage and
slots (R158, R163, R164), mailbox value, and what its record fixed. -/
structure UnitInfo where
  (launch index stage : Nat) (inSlot outSlot : Option Nat) (prio : Nat) (priv : Bool) (job lcore : Nat)
deriving DecidableEq, Repr

/-- A context (R149, R178). -/
structure Ctx where
  status : CtxStatus
  unit : UnitInfo
  pc : W64
  q : Vector QEntry 16
  g : Vector GReg 32
  h : Vector HReg 16
  w : Vector (BitVec 512) 16
  /-- descriptor shadows of the views (R43) -/
  shadow : Vector (BitVec 1024) 16
  p : Vector W64 8
  k : Vector W32 16
  /-- units of each semaphore that engine completions still hold (R323) -/
  kHeld : Vector Nat 16
  c : Vector W64 8
  mpc : W64
  lp0 : Loop
  lp1 : Loop
  asid : W64
  asperm : W64
  ptroot : W64
  pclass : W64
  fpflags : BitVec 5
  faultInfo : W64
  faultAddr : W64
  trapPc : W64
  /-- copy stage counter (R322) -/
  stageCtr : Nat
  /-- held task and its bucket (R339, R368) -/
  task : Option (W64 × Nat)
  monitor : Option Monitor
  /-- tiles given and not taken back (R174) -/
  given : List Nat
  skip : Nat
  /-- sequence number of the fault record whose decision the handler awaits (R391) -/
  record : Option Nat
  /-- the handler's own register bank (R390, R401) -/
  bank : Vector GReg 32
  /-- code of the handler store runs, at `pc` (R390) -/
  handling : Bool
  wait : Option Wait
  pend : List Pend
  results : List Result
  /-- model: the number of the next bundle, which orders accesses (R104) -/
  bundleNo : Nat
deriving DecidableEq, Repr

/-- A line in an L1: ASID, line of the virtual address, contents (R63). -/
structure L1Line where
  (asid line : Nat) (data : BitVec 1024)
deriving DecidableEq, Repr

/-- An entry of the live-view directory (R48): context, view, retire scope once retired. The bounding box and the lowest
and highest resolved bytes are those of the pending writes that name the entry (`entryBox`, `entryWindow`). -/
structure DirEntry where
  (ctx view : Nat) (retired : Option Nat)
deriving DecidableEq, Repr

/-- Bytes of a VA store between the L2 boundary of its column and their point of coherence (R113, R116): the pending entry
`id` of context `k`, the place of the bits in its data, and the value. -/
structure Fwd where
  (k id lo key bytes bit bits value : Nat)
deriving DecidableEq, Repr

/-- A member of a phaser slot (R267); one that drops its membership while it joins goes at the next completion without becoming
active (R270). -/
inductive MemberState where
  | active | joining | leaving | quitting
deriving DecidableEq, Repr

/-- A member of a phaser slot (R267): `held` is a joining member's signal (R271), `pending` says that a committed
signal is not yet counted (R271). -/
structure Member where
  (core ctx mode : Nat) (sigd held pending : Bool) (local' : Nat) (state : MemberState)
deriving DecidableEq, Repr

/-- A phaser slot (R267). -/
structure Phaser where
  (phase pend credit : Nat) (expd : Bool) (nsig arr : Nat) (members : List Member)
deriving DecidableEq, Repr

/-- A task of the bucket unit (R359). -/
structure Task where
  (job bucket : Nat) (word : W64)
deriving DecidableEq, Repr

/-- A core: the contexts' shared parts (R63, R48, R176, R177, R267, R349, R359, R362). -/
structure Core where
  /-- the context that issues (R349) -/
  cur : Option Nat
  /-- the context chosen last (R349) -/
  last : Nat
  /-- lines, the most recently used first -/
  l1 : List L1Line
  /-- stores past the L2 boundary, the oldest first (R116) -/
  fwd : List Fwd
  /-- the handler's code, as UMBER has loaded it (R390) -/
  handlerStore : List W32
  dir : Tbl DirEntry
  ovlTag : Nat
  ovlCode : W64
  ovlWords : List W32
  /-- model: the launch whose image was loaded last -/
  ovlLaunch : Option Nat
  viewStall : W64
  ctxSw : W64
  phasers : Tbl Phaser
  tasks : List Task
  wlDelta : W64
  wlCfg : W64
  wlSpill : W64
  /-- PUSHES and COMPL of each job (R366) -/
  wlCounts : Tbl (Nat × Nat)
  /-- jobs marked done at this core (R367) -/
  wlDone : List Nat
deriving DecidableEq, Repr

/-- A matrix call, queued or running (R299, R307, R316). -/
structure MatCall where
  (id core ctx launch : Nat) (params : Vector W64 8) (pert : W64) (sigma : W32) (mfmt : W64)
  (mask : Option (BitVec 256)) (routine ph phase : Nat) (started : Bool) (word : Nat) (n0 n1 : Nat) (accw parw : Nat)
  (lines : List Nat) (tiles : List Nat) (stop : Bool)
deriving DecidableEq, Repr

/-- A latch: row count and elements by 256 × row + logical position, in the place of R85; those not listed hold +0, or
a free value of number `junk` once a cancel or an engine pre-emption has left the contents undefined (R294, R309).
`kept` lists the logical positions that the latch holds. -/
structure Latch where
  (rows : Nat) (kept : List Nat) (elems : Tbl W32) (junk : Option Nat)
deriving DecidableEq, Repr

/-- An accumulator tile: elements by 128 × row + column, FP32; those not listed are +0 (R294). -/
structure AccTile where
  (full : Bool) (elems : Tbl W32)
deriving DecidableEq, Repr

/-- A matrix engine (R294). Stationary B is keyed by 128 × logical position + column; `bCols` is COLS + 1 of the last
LDB (R311), `bRows` the logical positions that its physical rows carry (R309). -/
structure Engine where
  b : Tbl W32
  bRows : List Nat
  bJunk : Option Nat
  bCols : Nat
  latches : Vector Latch 4
  acc : Vector AccTile 8
  queue : List MatCall
  mfmt : W64
  pert : W64
  sigma : W32
  satcnt : W32
  drained : Bool
  /-- microprogram writes that wait until the engine is idle: offset, bytes, value (R305) -/
  writes : List (Nat × Nat × W64)
  /-- issue-rate accumulator (R356) -/
  shape : Nat
deriving DecidableEq, Repr

/-- A translation-cache entry (R68): column, slice, ASID, page size, page number, frame, W. -/
structure TlbEntry where
  (column slice asid size page frame : Nat) (write : Bool)
deriving DecidableEq, Repr

/-- A page walk in progress (R68). -/
structure Walk where
  (ctx slot asid root va addr : Nat) (write : Bool)
deriving DecidableEq, Repr

/-- The state of an L2 line (R67). -/
inductive LineState where
  | shared | modified
deriving DecidableEq, Repr

/-- An L2 line's tag: column, slice, line, state (R65, R67). Contents stand in memory. DEDUCED, log 24. -/
structure L2Line where
  (column slice line : Nat) (state : LineState) (dirty : Bool)
deriving DecidableEq, Repr

/-- An LLC line's tag: home slice, line, sharers, where none stands for OVERFLOW, and whether LPDDR-6 is behind it (R66,
R67). -/
structure LlcLine where
  (slice line : Nat) (sharers : Option (List Nat)) (dirty : Bool)
deriving DecidableEq, Repr

/-- Where a copy command stands (R146, R322). -/
inductive CopyState where
  | queued | backlog | running | preempted
  /-- suspended by the fault record with this sequence number (R146) -/
  | suspended (seq : Nat)
  /-- all chunks moved: the completion runs (R323) -/
  | completing
  /-- failed at stage start with class and cause (R323) -/
  | failed (cls cause : Nat)
deriving DecidableEq, Repr

/-- A copy command (R320 to R323): its entry, index, owner, octant, chunks done and counts. `stage0` entries are the
scheduler's own (R161); `crec` is the translated place of the record. -/
structure CopyCmd where
  (id core ctx launch unit index : Nat) (entry : BitVec 512) (state : CopyState) (stage0 : Bool) (chunk clipped sat : Nat)
  (lines tiles : List Nat) (view : Option (BitVec 512 × BitVec 1024)) (crec : Option Place) (step : Nat) (semLost : Bool)
deriving DecidableEq, Repr

/-- A batch of atomics (R324): tiles by number, the result lines that are not full yet, and the elements on their way with the
device and offset of each. -/
structure BatchCmd where
  (id core ctx launch opnd res : Nat) (ctl : W64) (lines : List Nat) (waiting : List (Nat × Nat × Nat)) (next : Nat)
deriving DecidableEq, Repr

/-- A remote read (R325): its destination, phaser slot, and the lines still to read, each with its place as the issue found
it. -/
structure RreadCmd where
  (id core ctx launch dst count ph : Nat) (waiting : List (Nat × Place))
deriving DecidableEq, Repr

/-- A collective run (R331 to R335); `phase` is the slot and the phase that its wait step records (R332), `lines` the lines
that the run has set empty and still has to write (R137), `event` the mailbox event that follows its record (R333). -/
structure CollRun where
  (id die core ctx launch group seq opid : Nat) (desc : BitVec 1024) (step n0 n1 satcnt : Nat) (phase : Option (Nat × Nat))
  (started : Bool) (peers : List Nat) (status : Option Nat) (recorded : Bool) (lines : List Nat) (stop : Bool) (event : Option W64)
deriving DecidableEq, Repr

/-- A packet at the collective ingress (R332). -/
structure Packet where
  (src group seq opid : Nat) (tag : Option Nat) (data : List Byte)
deriving DecidableEq, Repr

/-- A read of another device's memory that an engine or a record read has sent (R21, R325): who waits for it, and the
answer once it is there, where none inside stands for a failure (R32). -/
structure Fetch where
  (id owner device off bytes : Nat) (answer : Option (Option Nat))
deriving DecidableEq, Repr

/-- A staggered phaser signal (R358). -/
structure Stagger where
  (core ctx slot launch due : Nat)
deriving DecidableEq, Repr

/-- A slot of a pipeline queue (R164): free, reserved or occupied (with the order in which it became so). -/
inductive PipeSlot where
  | free | reserved | occupied (order : Nat)
deriving DecidableEq, Repr

/-- A launch in the scheduler (R156, R157, R346): its record, queue, validation order, progress per stage, stage-0
copies, mailbox and pipeline state; `map` has the cores of a DET launch as the remap table placed them at validation (R172),
`ring` the slot of each pipeline queue that follows the one reserved last (R164). -/
structure Launch where
  (id die queue asid : Nat) (asperm root : W64) (record : BitVec 2048) (stageTab : BitVec 3072) (ptr : W64)
  (mailbox : Option Nat) (value : W64)
  /-- units placed, started, retired, for each stage (R158, R164, R166) -/
  (placed started : List Nat)
  /-- slots of each pipeline queue and cores of each stage (R164, R351) -/
  (slots : List (List PipeSlot)) (cores : List (List Nat)) (order : Nat)
  (ring : List Nat) (map : List Nat)
  /-- the 1,024-clk pass that last rebalanced its cores (R352) -/
  (balanced : Nat)
  /-- the launch has ended (R154) -/
  (done : Bool)
deriving DecidableEq, Repr

/-- What a placed unit waits for before it starts (R161): entries of stage 0 that are still to be read or to complete,
and the completions counted for its semaphores. -/
structure StageZero where
  (ctx : Nat) (unread : Bool) (waiting : List Nat) (sems : List Nat) (dead : Bool)
deriving DecidableEq, Repr

/-- A fault record (R394) before and after it is written. -/
structure FaultRec where
  (seq kind src cls cause slot : Nat) (launch : Option Nat) (addr : W64) (job launchId : Nat) (host : Bool) (device core ctx : Nat) (pc entry : W64)
  (regions : List W64)
deriving DecidableEq, Repr

/-- How a slot's issue ends without effects: a trap, a wait, or a discarding fault that its record read met (R32, R396). -/
inductive Stop where
  | trap (t : Trap)
  | wait (w : Wait)
  | dead (r : FaultRec)
deriving DecidableEq, Repr

/-- A record that waits for system software's decision (R391, R393, R395), with the decision once it is there. -/
structure Decision where
  (seq : Nat) (copy : Option Nat) (ctx : Option Nat) (action : Option (Nat × W64))
deriving DecidableEq, Repr

/-- A context saved to memory that may be restored (R400); `bumps` lists semaphores that completions raised meanwhile. -/
structure SavedCtx where
  (key : Nat) (unit : UnitInfo) (given : List Nat) (kHeld : Vector Nat 16) (bumps : List Nat) (bundleNo : Nat) (record : Option Nat) (bucket : Nat)
deriving DecidableEq, Repr

/-- Calls saved by an engine pre-emption (R402). -/
structure SavedCalls where
  (engine : Nat) (call : MatCall) (kept : List MatCall)
deriving DecidableEq, Repr

/-- An attestation report (R412): the hash of the firmware image, the device identifier, the port, the peer's nonce, the
ML-KEM-1024 public key or ciphertext, and the signature under the identity key. -/
structure Report where
  (image : BitVec 256) (device port : Nat) (nonce kem signature : List Byte)
deriving DecidableEq, Repr

/-- The session of a Finzor port (R406 to R409, R412, R78): flits sent, the next FSEQ, the FSEQ whose replay is awaited, the replay
requests sent, each naming an FSEQ, flits kept for retransmission, messages at the egress, each with whether it may leave and
whether it is circuit traffic (R76), the session key, and the report that this end has sent. DESIGN CHOICE, log 53. -/
structure Port where
  (sent expect : Nat) (failed : Option Nat) (asked : List Nat) (kept : List Flit) (egress : List (Msg × Bool × Bool))
  (key : BitVec 256) (report : Option Report)
deriving DecidableEq, Repr

/-- How the last host access completed (R404): bytes read, a write, or Unsupported Request. -/
inductive HostReply where
  | idle
  | data (bytes : List Byte)
  | written
  | unsupported
deriving DecidableEq, Repr

/-- The worklist of a job on this device (R360, R364 to R367). -/
structure WlJob where
  (dv next xv : Nat) (lastWave : Option (Nat × Nat)) (children : Tbl (Nat × Nat × Nat)) (ibs : Tbl Nat)
  (down : Option (Nat × Nat × Nat × Bool)) (shipments : List (Nat × W64 × Nat)) (acks : Nat) (fresh : List Nat)
deriving DecidableEq, Repr

/-- The log's tree and MORDANT (R378 to R384): entries on their way up and down and those held, rounds that rank 0 has
released, its ticks, the ticks of MORDANT's wait, the sequence number at which it waits, the launches of entries whose
released copy has not come, and N of the round that MORDANT applies. -/
structure LogState where
  (up : List (BitVec 256)) (down : List (BitVec 256)) (held : List (BitVec 256)) (arrived : List (BitVec 256))
  (released : Nat) (ticks : Nat) (gapTicks : Nat) (waitAt : Nat) (owners : Tbl Nat) (begun : Nat)
deriving DecidableEq, Repr

/-- A bundle being issued: its context, the slot that issues next, and the effects asked for so far (R190, R192).
`later` says that a slot has to translate or to read a record: once every slot has passed its issue checks, the slots issue
again with `second` set, and do so (R388). -/
structure Progress where
  (ctx slot : Nat) (effs : List (Nat × Effect)) (later second : Bool)
deriving DecidableEq, Repr

/-- Whose move comes next (model; log 1). -/
inductive Turn where
  /-- a core issues -/
  | issue (core : Nat)
  /-- an engine's next micro-word -/
  | micro (e : Nat)
  /-- a collective run's next step -/
  | coll (run : Nat)
  /-- an event -/
  | event (i : Instr)
  /-- some clk pass -/
  | wait (n : Nat)
  /-- the LLC evicts a line (R67, R265; log 6) -/
  | llcEvict (line : Nat)
  /-- a line of memory comes to hold an uncorrectable error, or holds none any more (R388, R397; log 58) -/
  | badLine (line : Nat) (bad : Bool)
  /-- the host answers accesses to a byte with an error, or does so no more (R32) -/
  | hostError (addr : Nat) (bad : Bool)
  /-- a request to another device that none answers fails (R32) -/
  | refuse (id : Nat)
  /-- firmware has no routine for the bundle that a context wants emulated (R392) -/
  | noRoutine (k : Nat)
deriving DecidableEq, Repr

/-- The M7. -/
structure State where
  deviceId : Nat
  clk : Nat
  /-- the multiple of 64 clk at which the worklists were last sampled, by 64 (R360) -/
  sampled : Nat
  /-- the time in ns at a clk count, from which local time runs on (R413) -/
  timeClk : Nat
  timeNs : Nat
  /-- the last exchange tick whose boundary the device has met (R77) -/
  ticked : Nat
  /-- model: which agents and events move next (log 1) -/
  agenda : List Turn
  /-- model: the core that issues where the agenda is empty (log 1) -/
  focus : Nat
  bundle : Option Progress
  ctxs : Tbl Ctx
  cores : Tbl Core
  engines : Tbl Engine
  splits : Tbl Nat
  mem : List Host.Cell
  hostMem : List Host.Cell
  /-- tiles on the engine side (R132) -/
  engineTiles : List Nat
  /-- empty lines (R132) -/
  emptyLines : List Nat
  mmio : Tbl W64
  tlb : List TlbEntry
  walks : List Walk
  /-- the most recently used first -/
  l2 : List L2Line
  /-- the most recently used first -/
  llc : List LlcLine
  /-- lines that hold an uncorrectable error (R388, R397) -/
  badLines : List Nat
  /-- host addresses at which the host answers with an error (R32) -/
  hostBad : List Nat
  copies : List CopyCmd
  batches : List BatchCmd
  rreads : List RreadCmd
  fetches : List Fetch
  runs : List CollRun
  packets : List Packet
  staggers : List Stagger
  launches : List Launch
  /-- records whose stage table is on its way from another device (R156) -/
  validating : List Launch
  stageZero : List StageZero
  /-- level-table indices of the graphs and phases that a cancel has ended: no unit of theirs starts any more (R167) -/
  cancelled : List Nat
  /-- JOBID of the first record that named each graph and phase, and of the record that each launch entry stands for, by
  level-table index (R340) -/
  levelJobs : Tbl Nat
  mailboxes : Tbl (List W64)
  faultSeq : Nat
  faultQueue : List FaultRec
  decisions : List Decision
  savedCtxs : List SavedCtx
  savedCalls : List SavedCalls
  ports : Tbl Port
  /-- consecutive sync messages within 100 ns (R413) -/
  syncs : Nat
  /-- signatures made with the identity key (R412) -/
  signatures : Nat
  /-- hash of the firmware image that runs, and the rollback counter below whose value no image's version may be (R412) -/
  firmware : BitVec 256
  rollback : Nat
  /-- dies whose governor heat is bringing down (R416) -/
  tripped : List Nat
  /-- writes of descriptors and sharding entries that are not in force yet: offset, bytes, value (R35) -/
  tableWrites : List (Nat × Nat × W64)
  wlJobs : Tbl WlJob
  log : LogState
  /-- how the host's last access completed (R404, R405): the host's, not the device's -/
  hostOut : HostReply
  /-- model: numbers for commands, results and launches -/
  nextId : Nat
  /-- model: counts the uses of free values (log 6) -/
  free : Nat
deriving DecidableEq, Repr

/-- An inactive loop level; START, END and COUNT as log 3 says. -/
def Loop.reset : Loop := ⟨false, 0, 0, 0⟩

/-- The unit data of a free context. -/
def UnitInfo.reset : UnitInfo := ⟨0, 0, 0, none, none, 0, false, 0, 0⟩

/-- A context at device reset: free, every register at its value of R159 or that of log 3. -/
def Ctx.reset : Ctx where
  status := .free
  unit := .reset
  pc := 0
  q := Vector.replicate 16 ⟨false, 0, none⟩
  g := Vector.replicate 32 ⟨0, none⟩
  h := Vector.replicate 16 ⟨0, none⟩
  w := Vector.replicate 16 0
  shadow := Vector.replicate 16 0
  p := Vector.replicate 8 0
  k := Vector.replicate 16 0
  kHeld := Vector.replicate 16 0
  c := Vector.replicate 8 0
  mpc := 0
  lp0 := .reset
  lp1 := .reset
  asid := 0
  asperm := 0
  ptroot := 0
  pclass := 0
  fpflags := 0
  faultInfo := 0
  faultAddr := 0
  trapPc := 0
  stageCtr := 1
  task := none
  monitor := none
  given := []
  skip := 0
  record := none
  bank := Vector.replicate 32 ⟨0, none⟩
  handling := false
  wait := none
  pend := []
  results := []
  bundleNo := 0

/-- A core at reset: no context issues, caches and directory empty, no image, quiet phasers, no task (R132, R176,
R267, R362). -/
def Core.reset : Core where
  cur := none
  last := 0
  l1 := []
  fwd := []
  handlerStore := []
  dir := []
  ovlTag := 0
  ovlCode := 0
  ovlWords := []
  ovlLaunch := none
  viewStall := 0
  ctxSw := 0
  phasers := []
  tasks := []
  wlDelta := 255
  wlCfg := 0x01C00100
  wlSpill := 0
  wlCounts := []
  wlDone := []

/-- A quiet phaser slot (R267). -/
def Phaser.reset : Phaser := ⟨0, 0, 0, false, 0, 0, []⟩

/-- A matrix engine at reset (R294). -/
def Engine.reset : Engine where
  b := []
  bRows := []
  bJunk := none
  bCols := 0
  latches := Vector.replicate 4 ⟨0, [], [], none⟩
  acc := Vector.replicate 8 ⟨true, []⟩
  queue := []
  mfmt := 0
  pert := 0
  sigma := 0
  satcnt := 0
  drained := true
  writes := []
  shape := 0

/-- A port session that has carried nothing (R408). -/
def Port.reset : Port := ⟨0, 0, none, [], [], [], 0, none⟩

/-- A job of the worklist before its first sample: the view's part DV is 256 (R360). -/
def WlJob.reset : WlJob := ⟨256, 256, 256, none, [], [], none, [], 0, []⟩

/-- The machine right after reset, before bring-up (R414): every register at the reset value the spec states, or at
that of log 3; memory lists nothing. -/
def State.reset : State where
  deviceId := 0
  clk := 0
  sampled := 0
  timeClk := 0
  timeNs := 0
  ticked := 0
  agenda := []
  focus := 0
  bundle := none
  ctxs := []
  cores := []
  engines := []
  splits := []
  mem := []
  hostMem := []
  engineTiles := []
  emptyLines := []
  mmio := []
  tlb := []
  walks := []
  l2 := []
  llc := []
  badLines := []
  hostBad := []
  copies := []
  batches := []
  rreads := []
  fetches := []
  runs := []
  packets := []
  staggers := []
  launches := []
  validating := []
  stageZero := []
  cancelled := []
  levelJobs := []
  mailboxes := []
  faultSeq := 1
  faultQueue := []
  decisions := []
  savedCtxs := []
  savedCalls := []
  ports := []
  syncs := 0
  signatures := 0
  firmware := 0
  rollback := 0
  tripped := []
  tableWrites := []
  wlJobs := []
  log := ⟨[], [], [], [], 0, 0, 0, 0, [], 0⟩
  hostOut := .idle
  nextId := 1
  free := 0

end Sys2Proof.Machine
end

