-- ==== Sys2Proof/Machine/Bits.lean ====
section
/-! DEFINITION. Tables, sorted sets and memory as lists, bit fields of words, and numbered places. Memory lists no byte
that is 0: an unlisted address reads 0, which is what bring-up leaves (R414). -/
namespace Sys2Proof.Machine

/-- The value a table lists for a key. -/
def tget {α : Type} (t : Tbl α) (k : Nat) : Option α :=
  match t with
  | [] => none
  | (j, v) :: r => if j == k then some v else if k < j then none else tget r k

/-- A table with a key's value replaced, in key order. -/
def tset {α : Type} (t : Tbl α) (k : Nat) (v : α) : Tbl α :=
  match t with
  | [] => [(k, v)]
  | (j, w) :: r => if k < j then (k, v) :: (j, w) :: r else if j == k then (k, v) :: r else (j, w) :: tset r k v

/-- A table without a key. -/
def terase {α : Type} (t : Tbl α) (k : Nat) : Tbl α :=
  match t with
  | [] => []
  | (j, w) :: r => if j == k then r else if k < j then (j, w) :: r else (j, w) :: terase r k

/-- The keys of a table rise strictly. -/
def Tbl.rising {α : Type} (t : Tbl α) : Prop := t.Pairwise fun x y => x.1 < y.1

/-- Add a number to a rising list. -/
def sinsert (l : List Nat) (k : Nat) : List Nat :=
  match l with
  | [] => [k]
  | j :: r => if k < j then k :: j :: r else if j == k then j :: r else j :: sinsert r k

/-- Remove a number from a rising list. -/
def serase (l : List Nat) (k : Nat) : List Nat := l.filter (· != k)

/-- Add several numbers. -/
def sinsertAll (l ks : List Nat) : List Nat := ks.foldl sinsert l

/-- Remove several numbers. -/
def seraseAll (l ks : List Nat) : List Nat := l.filter (fun k => !ks.contains k)

/-- One byte of memory; an unlisted address reads 0 (R414). DEDUCED, log 18. -/
def memGet (m : List Host.Cell) (a : Nat) : Byte := (tget m a).getD 0

/-- Write one byte of memory, keeping the list rising and without zeros. -/
def memSet (m : List Host.Cell) (a : Nat) (b : Byte) : List Host.Cell :=
  if b == 0 then terase m a else tset m a b

/-- The canonical form of memory: addresses rise strictly and no listed byte is 0. -/
def Memory.wf (m : List Host.Cell) : Bool :=
  match m with
  | [] => true
  | (a, b) :: r => b != 0 && r.all (fun c => a < c.1) && Memory.wf r

/-- `n` bytes from address `a` as a little-endian number (R7). -/
def memRead (m : List Host.Cell) (a : Nat) : Nat → Nat
  | 0 => 0
  | n + 1 => (memGet m a).toNat + 256 * memRead m (a + 1) n

/-- Write the low `n` bytes of a number at address `a`, little-endian (R7). -/
def memWrite (m : List Host.Cell) (a v : Nat) : Nat → List Host.Cell
  | 0 => m
  | n + 1 => memWrite (memSet m a (BitVec.ofNat 8 v)) (a + 1) (v / 256) n

/-- Bits `lo + n - 1` to `lo` of a number. -/
def bits (v lo n : Nat) : Nat := v >>> lo % 2 ^ n

/-- A field of a 64-bit word. -/
def fld (w : W64) (lo n : Nat) : Nat := bits w.toNat lo n

/-- A 64-bit word with one field replaced. -/
def setFld (w : W64) (lo n v : Nat) : W64 :=
  let mask : W64 := BitVec.ofNat 64 ((2 ^ n - 1) <<< lo)
  (w &&& ~~~mask) ||| (BitVec.ofNat 64 ((v % 2 ^ n) <<< lo))

/-- A signed reading of the low `n` bits of a number. -/
def signed (v n : Nat) : Int := if v.testBit (n - 1) then (v % 2 ^ n : Nat) - (2 ^ n : Nat) else (v % 2 ^ n : Nat)

/-- A 64-bit word of a longer value. -/
def word {n : Nat} (v : BitVec n) (i : Nat) : W64 := v.extractLsb' (64 * i) 64

/-- The key of a byte of scratchpad (R5, R11): scratchpads stand above the 48-bit physical addresses, which name none
of them (R20). -/
def spKey (core vault off : Nat) : Nat := 2 ^ 48 + (core * 4 + vault) * 2 ^ 22 + off

/-- The physical address of a byte of a DRAM vault (R20). -/
def dramKey (core off : Nat) : Nat := 2 ^ 40 + (core / 64) * 2 ^ 36 + (core % 64) * 2 ^ 30 + off

/-- Does a key name scratchpad? -/
def isSp (key : Nat) : Bool := 2 ^ 48 ≤ key

/-- The column whose scratchpad a key names. -/
def spCore (key : Nat) : Nat := (key - 2 ^ 48) / 2 ^ 24

/-- The offset in its vault of a scratchpad key. -/
def spOff (key : Nat) : Nat := (key - 2 ^ 48) % 2 ^ 22

/-- Does a physical address lie in a DRAM vault (R20)? -/
def isDram (pa : Nat) : Bool :=
  2 ^ 40 ≤ pa && pa < 2 ^ 40 + 4 * 2 ^ 36 && pa % 2 ^ 30 < 0x30000000

/-- The column of a DRAM vault address. -/
def dramCore (pa : Nat) : Nat := (pa - 2 ^ 40) / 2 ^ 36 * 64 + (pa - 2 ^ 40) % 2 ^ 36 / 2 ^ 30

/-- Is a physical address populated (R20)? -/
def populated (pa : Nat) : Bool := pa < 2 ^ 39 || isDram pa

/-- Is a physical address in LPDDR-6 (R20)? -/
def isLpddr (pa : Nat) : Bool := pa < 2 ^ 39

/-- The 128-byte line of a key. -/
def lineOf (key : Nat) : Nat := key / 128

/-- The 4 KiB tile of a scratchpad key (R132). -/
def tileOf (key : Nat) : Nat := key / 4096

/-- The lines that `n` bytes from a key touch. -/
def linesOf (key n : Nat) : List Nat :=
  (List.range (lineOf (key + n - 1) + 1 - lineOf key)).map (lineOf key + ·)

/-- A context by its number (core × 4 + context). -/
def State.ctx (s : State) (k : Nat) : Ctx := (tget s.ctxs k).getD .reset

/-- Replace a context. -/
def State.setCtx (s : State) (k : Nat) (c : Ctx) : State := { s with ctxs := tset s.ctxs k c }

/-- A core by its identifier. -/
def State.core (s : State) (n : Nat) : Core := (tget s.cores n).getD .reset

/-- Replace a core. -/
def State.setCore (s : State) (n : Nat) (c : Core) : State := { s with cores := tset s.cores n c }

/-- An engine by its number (core × 2 + engine). -/
def State.engine (s : State) (e : Nat) : Engine := (tget s.engines e).getD .reset

/-- Replace an engine. -/
def State.setEngine (s : State) (e : Nat) (x : Engine) : State := { s with engines := tset s.engines e x }

/-- SPLIT of a column (R14, R60). -/
def State.split (s : State) (core : Nat) : Nat := (tget s.splits core).getD 0

/-- Bytes of scratchpad in each vault of a column (R12). -/
def State.spSize (s : State) (core : Nat) : Nat := (12 - s.split core) * 2 ^ 18

/-- A port by its number. -/
def State.port (s : State) (p : Nat) : Port := (tget s.ports p).getD .reset

/-- Replace a port. -/
def State.setPort (s : State) (n : Nat) (p : Port) : State := { s with ports := tset s.ports n p }

/-- The worklist of a job on this device. -/
def State.wlJob (s : State) (j : Nat) : WlJob := (tget s.wlJobs j).getD .reset

/-- Replace a job's worklist. -/
def State.setWlJob (s : State) (j : Nat) (w : WlJob) : State := { s with wlJobs := tset s.wlJobs j w }

/-- A phaser slot of a core (R267). -/
def State.phaser (s : State) (core slot : Nat) : Phaser := (tget (s.core core).phasers slot).getD .reset

/-- Replace a phaser slot. -/
def State.setPhaser (s : State) (core slot : Nat) (p : Phaser) : State :=
  let c := s.core core
  s.setCore core { c with phasers := tset c.phasers slot p }

/-- A fresh number, and the state that has used it. -/
def State.fresh (s : State) : Nat × State := (s.nextId, { s with nextId := s.nextId + 1 })

/-- Element of a vector of registers; numbers beyond it read the default. -/
def vget {α : Type} {n : Nat} (v : Vector α n) (i : Nat) (d : α) : α := (v[i]?).getD d

/-- Replace an element of a vector of registers. -/
def vset {α : Type} {n : Nat} (v : Vector α n) (i : Nat) (x : α) : Vector α n := v.setIfInBounds i x

end Sys2Proof.Machine
end

