-- ==== Sys2Proof/Machine/Mmio.lean ====
section
/-! DEFINITION. The register window of each die as 64-bit words: reset values and what a write of a word may change
(R3, R4), for every register and table the spec places there. What a write sets in motion stands in
Machine/RegWrite.lean; fields that mirror other state are computed when they are read (`mmioView`). -/
namespace Sys2Proof.Machine

/-- The key of a 64-bit word of a die's window. -/
def mmioKey (die off : Nat) : Nat := die * 2 ^ 32 + off / 8 * 8

/-- Registers that only die 0 has stand under its number. -/
def mmioReset (off : Nat) : W64 :=
  if off == 0x300 then 0x60032
  else if off == 0x308 then 0xF00000000
  else if off == 0x310 then 64
  else if off == 0x320 then 0x7369
  else if 0x2800 ≤ off && off < 0x2A00 then 0xFFB00C
  else if 0x40000 ≤ off && off < 0x50000 then 0x001FFFFF001FFFFF
  else if off == 0x500008 then 0x00FC000000010001
  else 0

/-- The stored word of a die's window. -/
def State.mmioWord (s : State) (die off : Nat) : W64 := (tget s.mmio (mmioKey die off)).getD (mmioReset (off / 8 * 8))

/-- Store a word of a die's window. -/
def State.setMmio (s : State) (die off : Nat) (v : W64) : State :=
  { s with mmio := if v == mmioReset (off / 8 * 8) then terase s.mmio (mmioKey die off) else tset s.mmio (mmioKey die off) v }

/-- The bits of a word that a plain write sets, and those that it clears by writing 1 (R3). -/
def mmioMasks (off : Nat) : W64 × W64 :=
  let one (m : Nat) : W64 × W64 := (BitVec.ofNat 64 m, 0)
  if off == 0x100 then one 0x1FFFF
  else if off == 0x108 then one 0x0000FFFFFFFFF000
  else if off == 0x200 then one 1
  else if off == 0x210 then one 0x1F
  else if off == 0x300 then one 0x700FF
  else if off == 0x310 then one 0x8000007F
  else if off == 0x318 then one 0xFFFFFFFFFFFFFFFF
  else if off == 0x320 then one 0xFFFF
  else if 0x400 ≤ off && off < 0x420 then one 0x800000000000003F
  else if off == 0x600 then one 0x0000FFFFFFFFF000
  else if off == 0x608 then one 0x3F00000000
  else if off == 0x610 then one 0x7F
  else if 0x1000 ≤ off && off < 0x1200 && off % 16 == 0 then (0, 0x0000FFFFFFFF0000)
  else if 0x2800 ≤ off && off < 0x2A00 then one 0xFF01F
  else if 0x8000 ≤ off && off < 0x8800 then one 0x80FF
  else if 0xA000 ≤ off && off < 0xA200 && off % 32 == 0 then one 0xC00000000F07FFFF
  else if 0xA000 ≤ off && off < 0xA200 && off % 32 == 16 then one 0x0000FFFFFFFFF000
  else if 0xC000 ≤ off && off < 0xC800 && off % 32 == 0 then one 0x0000FFFFFFFFFFF9
  else if 0xC000 ≤ off && off < 0xC800 && off % 32 == 8 then one 0xFFFFFFFFFFFFFFFF
  else if 0xC000 ≤ off && off < 0xC800 && off % 32 == 16 then (0xF, 0x2000)
  else if 0xE000 ≤ off && off < 0xF000 && off % 16 == 0 then one 0x0000FFFFFFFFFF00
  else if 0xF000 ≤ off && off < 0xF800 && off % 16 == 0 then one 0x0000FFFFFFFFFF00
  else if 0x40000 ≤ off && off < 0x50000 then one 0x801FFFFF801FFFFF
  else if 0x100000 ≤ off && off < 0x120000 then one 0xFFFFFFFFFFFFFFFF
  else if 0x200000 ≤ off && off < 0x280000 then one 0xFFFFFFFFFFFFFFFF
  else if 0x400000 ≤ off && off < 0x400800 && off % 32 == 0 then one 0x80000000FFFFFFFF
  else if 0x400000 ≤ off && off < 0x400800 && off % 32 == 8 then one 0x0000FFFFFFFFFFFF
  else if 0x400000 ≤ off && off < 0x400800 && off % 32 == 16 then one 0x7F
  else if off == 0x500000 then one 0x0000FFFFFFFFFFFF
  else if off == 0x500008 then one 0xFFFFFFC0FFFFFFFF
  else if off == 0x500010 then one 0xFFFFFFFF
  else if off == 0x500018 then one 0xFFFFFFFFFFFFFFFF
  else if off == 0x500020 then one 0x0000FFFFFFFFF000
  else if off == 0x500028 then one 0x0000FFFFFFFFFFFF
  else if off == 0x500030 then one 0x0000FFFFFFFFFFFF
  else if off == 0x500038 then (0, 0xFFFFFFFFFFFFFFFF)
  else if off == 0x500040 then one 0x8000FFFFFFFFFFFF
  else if 0x501000 ≤ off && off < 0x501800 then one 0xF000FFFF00FFFFFF
  else if 0x600000 ≤ off && off < 0x620000 then one 0x801F801F801F801F
  else if 0x1000000 ≤ off && off < 0x1800000 && off % 0x8000 < 0x8000 then one 0xFFFFFFFFFFFFFFFF
  else if 0x1800000 ≤ off && off < 0x1840000 then one 0x3FFFFFF
  else (0, 0)

/-- Registers that have their limits: values out of range are stored at the nearest end or with V cleared (R305, R355,
R357, R358). -/
def mmioClamp (off : Nat) (v : W64) : W64 :=
  if off == 0x300 then setFld v 0 8 (min (max (fld v 0 8) 5) 200)
  else if off == 0x310 then setFld v 0 7 (min (max (fld v 0 7) 1) 64)
  else if 0x2800 ≤ off && off < 0x2A00 then setFld v 0 5 (min (fld v 0 5) 16)
  else if 0x1800000 ≤ off && off < 0x1840000 then
    if fld v 25 1 == 1 && (fld v 12 13 == 0 || fld v 0 12 + fld v 12 13 > 4096) then setFld v 25 1 0 else v
  else v

/-- A word after a write of `n` bytes (4 or 8) at `off` (R3). -/
def mmioMerge (old : W64) (off n : Nat) (v : W64) : W64 :=
  let sh := 8 * (off % 8)
  let en : W64 := if n == 8 then BitVec.allOnes 64 else 0xFFFFFFFF#64 <<< sh
  let val := if n == 8 then v else (v &&& 0xFFFFFFFF#64) <<< sh
  let (rw, w1c) := mmioMasks (off / 8 * 8)
  mmioClamp (off / 8 * 8) ((old &&& ~~~(rw &&& en)) ||| (val &&& rw &&& en)) &&& ~~~(val &&& w1c &&& en)

/-- A plain write to a word of a die's window, with nothing set in motion. -/
def State.mmioPut (s : State) (die off n : Nat) (v : W64) : State :=
  s.setMmio die off (mmioMerge (s.mmioWord die off) off n v)

/-- Has bring-up completed (R414, R415)? -/
def State.devReady (s : State) : Bool := (s.mmioWord 0 0).getLsbD 0

/-- A word of the level table (R166). -/
def State.level (s : State) (i w : Nat) : W64 := s.mmioWord 0 (0x300000 + 16 * i + 8 * w)

/-- STATE of a level entry (R166). -/
def State.levelState (s : State) (i : Nat) : Nat := fld (s.level i 0) 61 3

/-- Set STATE of a level entry. -/
def State.setLevelState (s : State) (i st : Nat) : State :=
  s.setMmio 0 (0x300000 + 16 * i) (setFld (s.level i 0) 61 3 st)

/-- DONE of a level entry (R166). -/
def State.levelDone (s : State) (i : Nat) : Nat := fld (s.level i 1) 0 32

/-- TARGET of a level entry (R166). -/
def State.levelTarget (s : State) (i : Nat) : Nat := fld (s.level i 1) 32 32

/-- Set TARGET and DONE of a level entry; DONE wraps modulo 2^32. -/
def State.setLevelCounts (s : State) (i target done : Nat) : State :=
  s.setMmio 0 (0x300000 + 16 * i + 8) (setFld (setFld 0 32 32 target) 0 32 done)

/-- A tensor descriptor of the array (R34, R36). -/
def State.descriptor (s : State) (t : Nat) : BitVec 1024 :=
  BitVec.ofNat 1024 ((List.range 16).foldr (fun i acc => (s.mmioWord 0 (0x200000 + 128 * t + 8 * i)).toNat + acc <<< 64) 0)

/-- A sharding entry (R34, R40). -/
def State.shard (s : State) (n : Nat) : BitVec 256 :=
  BitVec.ofNat 256 ((List.range 4).foldr (fun i acc => (s.mmioWord 0 (0x100000 + 32 * n + 8 * i)).toNat + acc <<< 64) 0)

/-- A routing entry: the egress port, if the device is reachable (R410). -/
def State.route (s : State) (device : Nat) : Option Nat :=
  let w := fld (s.mmioWord 0 (0x600000 + 2 * device)) (16 * (device % 4)) 16
  if w.testBit 15 then some (w % 32) else none

/-- A word of a collective group (R330). -/
def State.group (s : State) (g w : Nat) : W64 := s.mmioWord 0 (0x400000 + 32 * g + 8 * w)

/-- A word of an engine's microprogram store (R305): engine `e` is core × 2 + engine of the package. -/
def State.mprog (s : State) (e w : Nat) : W64 := s.mmioWord (e / 128) (0x1000000 + 0x8000 * (e % 128) + 8 * w)

/-- A directory entry of an engine (R305). -/
def State.mdir (s : State) (e n : Nat) : W64 := s.mmioWord (e / 128) (0x1800000 + 0x800 * (e % 128) + 8 * n)

end Sys2Proof.Machine
end

