-- ==== Sys2Proof/Machine/Address.lean ====
section
/-! DEFINITION. Pointers: the spaces and their fields (R8 to R16), the issue checks of an access in their order (R22 to
R30), and the translation of virtual addresses (R20, R68 to R71). -/
namespace Sys2Proof.Machine

/-- The spaces of a pointer (R8). -/
inductive Space where
  | va | spl | spd | cdv | pdv | peer | host | mmio
deriving DecidableEq, Repr

/-- The space of a tag; none for a reserved tag (R8, R9). -/
def spaceOf (tag : Nat) : Option Space :=
  match tag with
  | 0 => some .va
  | 1 => some .spl
  | 2 => some .spd
  | 3 => some .cdv
  | 4 => some .pdv
  | 8 => some .peer
  | 12 => some .host
  | 14 => some .mmio
  | _ => none

/-- For whom an access is checked: column, permissions (R23) and privilege (R22). -/
structure Who where
  (core : Nat) (asperm : W64) (priv : Bool)
deriving DecidableEq, Repr

/-- An address-space fault (R29, R388). -/
def addrTrap (cause : Nat) (a : W64) : Trap := ⟨0x03, cause, some a⟩

/-- A bit that must be zero in the space is not (R11). -/
def fieldBad (sp : Space) (p : W64) : Bool :=
  match sp with
  | .va => fld p 48 12 != 0
  | .spl => fld p 24 36 != 0
  | .spd => fld p 58 2 != 0 || fld p 24 26 != 0
  | .cdv => fld p 30 30 != 0
  | .pdv => fld p 58 2 != 0 || fld p 30 20 != 0
  | .peer => false
  | .host => fld p 57 3 != 0
  | .mmio => fld p 58 2 != 0 || fld p 32 24 != 0

/-- The core identifier in an SPD or PDV pointer (R5, R11). -/
def ptrCore (p : W64) : Nat := fld p 56 2 * 64 + fld p 50 6

/-- The column a scratchpad or vault pointer names, and whether it is the own column (R16). -/
def targetCore (sp : Space) (w : Who) (p : W64) : Nat :=
  match sp with
  | .spd | .pdv => ptrCore p
  | _ => w.core

/-- The space is disabled in ASPERM (R23); a pointer to the own column is the local one (R16, R41). DEDUCED, log 26. -/
def denied (sp : Space) (w : Who) (p : W64) : Bool :=
  match sp with
  | .spd => ptrCore p != w.core && !w.asperm.getLsbD 1
  | .pdv => ptrCore p != w.core && !w.asperm.getLsbD 2
  | .peer => !w.asperm.getLsbD 3
  | .host => !w.asperm.getLsbD 4
  | _ => false

/-- Beyond the scratchpad or the vault (R12, R13). -/
def outOfRange (s : State) (sp : Space) (w : Who) (p : W64) (n : Nat) : Bool :=
  match sp with
  | .spl | .spd => fld p 0 22 + n > s.spSize (targetCore sp w p)
  | .cdv | .pdv => fld p 0 30 + n > 0x30000000
  | _ => false

/-- The place an access reaches, once checked (R11, R16, R20). -/
def placeOf (sp : Space) (w : Who) (p : W64) : Place :=
  match sp with
  | .va => .untranslated (fld p 0 48)
  | .spl | .spd => .mem (spKey (targetCore sp w p) (fld p 22 2) (fld p 0 22))
  | .cdv | .pdv => .mem (dramKey (targetCore sp w p) (fld p 0 30))
  | .peer => .peer (fld p 44 16) (fld p 0 44)
  | .host => .host (fld p 0 57)
  | .mmio => .mmio (fld p 56 2) (fld p 0 32)

/-- The issue checks of an access of `n` bytes at `ea`, aligned to `align`, from base register `base`, in the order of R29;
`atomic` for an atomic, a monitored wait or an agent packet (R27). -/
def checkAligned (s : State) (w : Who) (base ea : W64) (n align : Nat) (atomic : Bool) : Except Trap (Space × Place) :=
  match spaceOf (fld base 60 4) with
  | none => .error (addrTrap 1 ea)
  | some sp =>
    if fld ea 60 4 != fld base 60 4 then .error (addrTrap 2 base)
    else if fieldBad sp ea then .error (addrTrap 3 ea)
    else if sp == .mmio && !w.priv then .error (addrTrap 4 ea)
    else if denied sp w ea then .error (addrTrap 5 ea)
    else if sp == .mmio && n != 4 && n != 8 then .error (addrTrap 6 ea)
    else if atomic && (sp == .peer || sp == .host || sp == .mmio) then .error (addrTrap 7 ea)
    else if ea.toNat % align != 0 then .error (addrTrap 8 ea)
    else if outOfRange s sp w ea n then .error (addrTrap 9 ea)
    else if sp == .peer && fld ea 44 16 != s.deviceId && (s.route (fld ea 44 16)).isNone then .error (addrTrap 10 ea)
    else .ok (sp, placeOf sp w ea)

/-- The issue checks of an access aligned to its size (R26, R29). -/
def checkAddr (s : State) (w : Who) (base ea : W64) (n : Nat) (atomic : Bool) : Except Trap (Space × Place) :=
  checkAligned s w base ea n n atomic

/-- What a page walk finds (R68, R71): a translation, a translation fault with its cause, PHYS, or a table line with an
uncorrectable error (R388). -/
inductive WalkResult where
  | page (size frame : Nat) (write : Bool)
  | fault (cause : Nat)
  | phys
  | bad (line : Nat)
deriving DecidableEq, Repr

/-- The index into the table of a level (R68). -/
def walkIndex (va lvl : Nat) : Nat :=
  match lvl with
  | 0 => bits va 39 9
  | 1 => bits va 30 9
  | 2 => bits va 21 9
  | _ => bits va 16 5

/-- The walk of R68 from the table `t` of level `lvl`, with at most `fuel` levels. -/
def walkFrom (m : List Host.Cell) (va : Nat) (write : Bool) (t lvl : Nat) : Nat → WalkResult
  | 0 => .fault 3
  | fuel + 1 =>
    let pte := memRead m (t + 8 * walkIndex va lvl) 8
    if !pte.testBit 0 then .fault 1
    else if bits pte 48 16 != 0 || bits pte 3 5 != 0 then .fault 3
    else
      let addr := bits pte 8 40 <<< 8
      if !pte.testBit 1 then
        if lvl == 3 then .fault 3
        else if lvl < 2 && bits addr 8 4 != 0 then .fault 3
        else if !populated addr then .fault 3
        else walkFrom m va write addr (lvl + 1) fuel
      else if lvl == 0 then .fault 3
      else
        let size := if lvl == 1 then 2 ^ 30 else if lvl == 2 then 2 ^ 21 else 2 ^ 16
        if addr % size != 0 then .fault 3
        else if write && !pte.testBit 2 then .fault 2
        else if !populated (addr + va % size) then .phys
        else .page size addr (pte.testBit 2)

/-- A page walk from a root (R68). -/
def walk (m : List Host.Cell) (root va : Nat) (write : Bool) : WalkResult :=
  if !populated root then .fault 3 else walkFrom m va write root 0 4

/-- The translation-cache entry that covers an address in a slice of a column (R68). -/
def tlbFind (s : State) (column asid va : Nat) : Option TlbEntry :=
  s.tlb.find? fun t => t.column == column && t.slice == bits va 16 2 && t.asid == asid && t.page == va / t.size

/-- What a column's translation cache says of an address: nothing, a key, WRITE (R68, R69), or PHYS (R20). -/
inductive TlbAnswer where
  | miss
  | hit (key : Nat)
  | write
  | phys
deriving DecidableEq, Repr

/-- Look up a translation (R68): a store that hits an entry with W = 0 raises WRITE without a walk (R69), and an address
of a large page that is not populated raises PHYS (R20). -/
def tlbLookup (s : State) (column asid va : Nat) (write : Bool) : TlbAnswer :=
  match tlbFind s column asid va with
  | none => .miss
  | some t =>
    if write && !t.write then .write
    else if populated (t.frame + va % t.size) then .hit (t.frame + va % t.size) else .phys

/-- The physical addresses of the entries that a walk reads, in order (R68). -/
def walkReads (m : List Host.Cell) (va t lvl : Nat) : Nat → List Nat
  | 0 => []
  | fuel + 1 =>
    let a := t + 8 * walkIndex va lvl
    let pte := memRead m a 8
    if !populated t then []
    else if !pte.testBit 0 || pte.testBit 1 || lvl == 3 then [a]
    else a :: walkReads m va (bits pte 8 40 <<< 8) (lvl + 1) fuel

/-- Insert a walk's result into a slice of at most 1,024 entries; which entry leaves is the device's choice (R68,
log 6). -/
def tlbInsert (s : State) (column asid va size frame : Nat) (write : Bool) : State :=
  let e : TlbEntry := ⟨column, bits va 16 2, asid, size, va / size, frame, write⟩
  let same (t : TlbEntry) : Bool := t.column == column && t.slice == e.slice
  let rest := s.tlb.filter fun t => !(same t && t.asid == asid && t.size == size && t.page == e.page)
  let mine := rest.filter same
  let rest := if mine.length < 1024 then rest
    else match mine[Sys2Proof.Config.victim s.free % 1024]? with
      | some v => rest.filter (· != v)
      | none => rest
  { s with tlb := e :: rest, free := s.free + 1 }

/-- Remove the entries of an ASID that overlap a range of virtual addresses (R72, R343). -/
def tlbInvalidate (s : State) (asid first last : Nat) (all : Bool) : State :=
  { s with tlb := s.tlb.filter fun t =>
      !(t.asid == asid && (all || (t.page * t.size ≤ last && first < (t.page + 1) * t.size))) }

end Sys2Proof.Machine
end

