-- ==== Sys2Proof/Machine/Numbers.lean ====
section
/-! DEFINITION. Exact values and their rounding: the binary floating, tapered, integer and scale formats (R79 to
R91), FP32 arithmetic (R97, R236, R237) and the dot-group adder (R94). Every value is a sign, a natural mantissa and
an integer exponent of two, so that each rule computes exactly and rounds once. -/
namespace Sys2Proof.Machine

/-- The exact value of a number: a NaN (NaR among them), a signed infinity, or `(-1)^neg * m * 2^e`. -/
inductive Num where
  | nan
  | inf (neg : Bool)
  | fin (neg : Bool) (m : Nat) (e : Int)
deriving DecidableEq, Repr

/-- Exception flags in the order of FPFLAGS: IV 4, DZ 3, OF 2, UF 1, NX 0 (R87). -/
abbrev Flags := BitVec 5

/-- Invalid operation (R87). -/
def flagIV : Flags := 0x10
/-- Division by zero (R87). -/
def flagDZ : Flags := 0x08
/-- Overflow, or saturation by narrowing (R87). -/
def flagOF : Flags := 0x04
/-- Underflow (R87). -/
def flagUF : Flags := 0x02
/-- Inexact (R87). -/
def flagNX : Flags := 0x01

/-- A binary floating format (R79): exponent bits, fraction bits, bias, and whether it has infinities. -/
structure FloatFmt where
  ebits : Nat
  mbits : Nat
  bias : Nat
  hasInf : Bool
deriving DecidableEq, Repr

/-- FP8 E4M3 (R79). -/
def fmtE4M3 : FloatFmt := ⟨4, 3, 7, false⟩
/-- FP8 E5M2 (R79). -/
def fmtE5M2 : FloatFmt := ⟨5, 2, 15, true⟩
/-- BF16 (R79). -/
def fmtBF16 : FloatFmt := ⟨8, 7, 127, true⟩
/-- FP16 (R79). -/
def fmtFP16 : FloatFmt := ⟨5, 10, 15, true⟩
/-- FP32 (R79). -/
def fmtFP32 : FloatFmt := ⟨8, 23, 127, true⟩
/-- K19, the multiplier's format, with no format code (R79). -/
def fmtK19 : FloatFmt := ⟨8, 10, 127, true⟩

/-- The exponent of the least normal number (R81). -/
def FloatFmt.emin (F : FloatFmt) : Int := 1 - F.bias

/-- The all-ones exponent field. -/
def FloatFmt.ones (F : FloatFmt) : Nat := 2 ^ F.ebits - 1

/-- The code of the greatest finite value (R81). -/
def FloatFmt.greatest (F : FloatFmt) : Nat :=
  if F.hasInf then F.ones * 2 ^ F.mbits - 1 else (F.ones + 1) * 2 ^ F.mbits - 2

/-- The canonical NaN (R81). -/
def FloatFmt.nanCode (F : FloatFmt) : Nat :=
  if F.hasInf then F.ones * 2 ^ F.mbits + 2 ^ (F.mbits - 1) else (F.ones + 1) * 2 ^ F.mbits - 1

/-- Decode a floating code (R80). -/
def decodeFloat (F : FloatFmt) (bits : Nat) : Num :=
  let m := bits % 2 ^ F.mbits
  let e := bits >>> F.mbits % 2 ^ F.ebits
  let s := bits.testBit (F.mbits + F.ebits)
  if !F.hasInf && e == F.ones && m == 2 ^ F.mbits - 1 then .nan
  else if F.hasInf && e == F.ones then (if m == 0 then .inf s else .nan)
  else if e == 0 then .fin s m (1 - F.bias - F.mbits)
  else .fin s (2 ^ F.mbits + m) ((e : Int) - F.bias - F.mbits)

/-- Compare the magnitudes `a * 2^ea` and `b * 2^eb`: are they in ascending or equal order? -/
def magLe (a : Nat) (ea : Int) (b : Nat) (eb : Int) : Bool :=
  if ea ≤ eb then a ≤ b <<< (eb - ea).toNat else a <<< (ea - eb).toNat ≤ b

/-- The floor of the base-2 logarithm of a non-zero magnitude. -/
def magLog2 (m : Nat) (e : Int) : Int := (m.log2 : Int) + e

/-- Divide a mantissa by `2^k` to nearest even (R86); the second part says whether bits were lost. -/
def roundShift (m k : Nat) : Nat × Bool :=
  let q := m >>> k
  let r := m - q <<< k
  if r == 0 then (q, false)
  else if 2 * r > 2 ^ k || (2 * r == 2 ^ k && q % 2 == 1) then (q + 1, true)
  else (q, true)

/-- Round a magnitude to `p` significant bits with its lowest bit no lower than `2^low` (R88). -/
def roundMag (m : Nat) (e : Int) (p : Nat) (low : Option Int) : Nat × Int × Bool :=
  let fine := magLog2 m e - (p - 1 : Int)
  let lsb := match low with
    | none => fine
    | some l => max fine l
  if lsb ≤ e then (m <<< (e - lsb).toNat, lsb, false)
  else
    let (q, lost) := roundShift m (lsb - e).toNat
    (q, lsb, lost)

/-- The code of a finite magnitude that the format represents exactly, without its sign. -/
def codeOfMag (F : FloatFmt) (m : Nat) (e : Int) : Nat :=
  if m == 0 then 0
  else
    let x := magLog2 m e
    if x < F.emin then (m <<< (e - (F.emin - F.mbits)).toNat) >>> ((F.emin - F.mbits) - e).toNat
    else
      let k := e - (x - F.mbits)
      ((x + F.bias).toNat - 1) * 2 ^ F.mbits + (m <<< k.toNat) >>> (-k).toNat

/-- The outcome of a narrowing: the code, whether it saturated, and the flags it raises. -/
structure Narrowed where
  code : Nat
  saturated : Bool
  flags : Flags
deriving DecidableEq, Repr

/-- Add the sign bit to a floating code. -/
def FloatFmt.signed (F : FloatFmt) (neg : Bool) (code : Nat) : Nat :=
  if neg then code + 2 ^ (F.ebits + F.mbits) else code

/-- Narrow a value to a binary floating format (R88), with the flags of R87: tininess is found after rounding. -/
def encodeFloat (F : FloatFmt) (sat : Bool) : Num → Narrowed
  | .nan => ⟨F.nanCode, false, 0⟩
  | .inf neg =>
    if F.hasInf && !sat then ⟨F.signed neg (F.ones * 2 ^ F.mbits), false, 0⟩
    else ⟨F.signed neg F.greatest, true, flagOF ||| flagNX⟩
  | .fin neg m e =>
    if m == 0 then ⟨F.signed neg 0, false, 0⟩
    else
      let (q, l, lost) := roundMag m e (F.mbits + 1) (some (F.emin - F.mbits))
      let code := codeOfMag F q l
      if code > F.greatest then
        if F.hasInf && !sat then ⟨F.signed neg (F.ones * 2 ^ F.mbits), false, flagOF ||| flagNX⟩
        else ⟨F.signed neg F.greatest, true, flagOF ||| flagNX⟩
      else
        let (u, ul, _) := roundMag m e (F.mbits + 1) none
        let tiny := decide (magLog2 u ul < F.emin)
        ⟨F.signed neg code, false, if lost then (if tiny then flagUF ||| flagNX else flagNX) else 0⟩

/-- Length of the run of bits equal to `r` that begins at bit `i - 1` and goes down (R82). -/
def runLength (w : Nat) (r : Bool) : Nat → Nat
  | 0 => 0
  | i + 1 => if w.testBit i == r then runLength w r i + 1 else 0

/-- Decode a tapered code of `n` bits (R82). -/
def decodeTq (n w : Nat) : Num :=
  if w == 0 then .fin false 0 0
  else if w == 2 ^ (n - 1) then .nan
  else
    let s := w.testBit (n - 1)
    let w := if s then 2 ^ n - w else w
    let r := w.testBit (n - 2)
    let k := runLength w r (n - 1)
    let regime : Int := if r then (k : Int) - 1 else -(k : Int)
    let left := n - 1 - k - 1
    let ebit : Nat := if left > 0 && w.testBit (left - 1) then 1 else 0
    let fbits := left - 1
    let f := w % 2 ^ fbits
    .fin s (2 ^ fbits + f) (2 * regime + ebit - fbits)

/-- The greatest positive tapered code whose value does not exceed the magnitude, tried bit by bit from bit `b - 1`
with the bits above in `acc`: positive codes rise with their values (R82). -/
def tqFloor (n m : Nat) (e : Int) (acc : Nat) : Nat → Nat
  | 0 => acc
  | b + 1 =>
    let c := acc + 2 ^ b
    match decodeTq n c with
    | .fin _ cm ce => if magLe cm ce m e then tqFloor n m e c b else tqFloor n m e acc b
    | _ => tqFloor n m e acc b

/-- The value of a tapered code as a mantissa at exponent `l` (which must not exceed its own). -/
def tqAt (n c : Nat) (l : Int) : Nat :=
  match decodeTq n c with
  | .fin _ m e => m <<< (e - l).toNat
  | _ => 0

/-- Narrow a value to TQ8 or TQ6 (R89). -/
def encodeTq (n : Nat) : Num → Narrowed
  | .nan => ⟨2 ^ (n - 1), false, 0⟩
  | .inf _ => ⟨2 ^ (n - 1), true, flagOF ||| flagNX⟩
  | .fin neg m e =>
    if m == 0 then ⟨0, false, 0⟩
    else
      let top := 2 ^ (n - 1) - 1
      let c := tqFloor n m e 0 (n - 1)
      let sgn (code : Nat) : Nat := if neg then (2 ^ n - code) % 2 ^ n else code
      let l := min e (-16)
      let x := m <<< (e - l).toNat
      let lo := tqAt n c l
      if c == top then
        if x == lo then ⟨sgn c, false, 0⟩ else ⟨sgn c, true, flagOF ||| flagNX⟩
      else if x == lo then ⟨sgn c, false, 0⟩
      else
        let hi := tqAt n (c + 1) l
        let up := x - lo > hi - x || (x - lo == hi - x && c % 2 == 1)
        ⟨sgn (if up then c + 1 else c), false, flagNX⟩

/-- Narrow a value to an integer of `bits` bits (R90). -/
def encodeInt (bits : Nat) (isSigned : Bool) (x : Num) : Narrowed :=
  let lo : Int := if isSigned then -(2 ^ (bits - 1) : Nat) else 0
  let hi : Int := if isSigned then (2 ^ (bits - 1) : Nat) - 1 else (2 ^ bits : Nat) - 1
  let code (v : Int) : Nat := (v % (2 ^ bits : Nat)).toNat
  match x with
  | .nan => ⟨0, false, flagIV⟩
  | .inf neg => ⟨code (if neg then lo else hi), true, flagIV⟩
  | .fin neg m e =>
    let (q, lost) := if 0 ≤ e then (m <<< e.toNat, false) else roundShift m (-e).toNat
    let v : Int := if neg then -(q : Int) else q
    if v < lo then ⟨code lo, true, flagIV⟩
    else if hi < v then ⟨code hi, true, flagIV⟩
    else ⟨code v, false, if lost then flagNX else 0⟩

/-- Encode the magnitude of a value as E8M0 (R90). -/
def encodeE8M0 : Num → Narrowed
  | .fin _ m e =>
    if m == 0 then ⟨0, false, 0⟩
    else ⟨(min (max (magLog2 m e + 127) 0) 254).toNat, false, 0⟩
  | _ => ⟨0xFF, false, 0⟩

/-- An integer as a value. -/
def Num.ofInt (v : Int) : Num := .fin (decide (v < 0)) v.natAbs 0

/-- Bits of an element of a format code (R37, R79). -/
def elemBits (code : BitVec 4) : Nat :=
  match code.toNat with
  | 0 | 2 | 3 | 7 | 11 | 15 => 8
  | 1 => 6
  | 4 | 5 | 8 | 12 => 16
  | 6 | 9 | 13 => 32
  | _ => 64

/-- Decode an element of a format code (R80, R82, R84). -/
def decodeElem (code : BitVec 4) (w : Nat) : Num :=
  let signedInt (b : Nat) : Num := .ofInt (if w.testBit (b - 1) then (w : Int) - (2 ^ b : Nat) else w)
  match code.toNat with
  | 0 => decodeTq 8 w
  | 1 => decodeTq 6 w
  | 2 => decodeFloat fmtE4M3 w
  | 3 => decodeFloat fmtE5M2 w
  | 4 => decodeFloat fmtBF16 w
  | 5 => decodeFloat fmtFP16 w
  | 6 => decodeFloat fmtFP32 w
  | 7 => signedInt 8
  | 8 => signedInt 16
  | 9 => signedInt 32
  | 10 => signedInt 64
  | 15 => if w == 0xFF then .nan else .fin false 1 ((w : Int) - 127)
  | _ => .fin false w 0

/-- Encode a value in a format code (R88 to R90). -/
def encodeElem (code : BitVec 4) (sat : Bool) (x : Num) : Narrowed :=
  match code.toNat with
  | 0 => encodeTq 8 x
  | 1 => encodeTq 6 x
  | 2 => encodeFloat fmtE4M3 sat x
  | 3 => encodeFloat fmtE5M2 sat x
  | 4 => encodeFloat fmtBF16 sat x
  | 5 => encodeFloat fmtFP16 sat x
  | 6 => encodeFloat fmtFP32 sat x
  | 7 => encodeInt 8 true x
  | 8 => encodeInt 16 true x
  | 9 => encodeInt 32 true x
  | 10 => encodeInt 64 true x
  | 11 => encodeInt 8 false x
  | 12 => encodeInt 16 false x
  | 13 => encodeInt 32 false x
  | 14 => encodeInt 64 false x
  | _ => encodeE8M0 x

/-- Is this value a NaN? -/
def Num.isNan : Num → Bool
  | .nan => true
  | _ => false

/-- Is this value an infinity? -/
def Num.isInf : Num → Bool
  | .inf _ => true
  | _ => false

/-- Is this value a zero? -/
def Num.isZero : Num → Bool
  | .fin _ m _ => m == 0
  | _ => false

/-- The sign of a value; a NaN has none. -/
def Num.neg? : Num → Bool
  | .nan => false
  | .inf s => s
  | .fin s _ _ => s

/-- Scale a value by `2^k`, exactly. -/
def Num.scale (k : Int) : Num → Num
  | .fin s m e => .fin s m (e + k)
  | x => x

/-- Apply an E8M0 scale (R84, R424): the code 0xFF makes every value a NaN. -/
def Num.scaleE8 (ts : BitVec 8) (x : Num) : Num :=
  if ts == 0xFF then .nan else x.scale (ts.toNat - 127)

/-- Divide by an E8M0 scale (R93, R424). -/
def Num.unscaleE8 (ts : BitVec 8) (x : Num) : Num :=
  if ts == 0xFF then .nan else x.scale (127 - ts.toNat)

/-- Flip the sign. -/
def Num.negate : Num → Num
  | .nan => .nan
  | .inf s => .inf (!s)
  | .fin s m e => .fin (!s) m e

/-- Exact product; a NaN comes from a NaN operand or from an infinity times a zero. -/
def Num.mul : Num → Num → Num
  | .nan, _ => .nan
  | _, .nan => .nan
  | .inf s, y => if y.isZero then .nan else .inf (s != y.neg?)
  | x, .inf s => if x.isZero then .nan else .inf (s != x.neg?)
  | .fin s m e, .fin s' m' e' => .fin (s != s') (m * m') (e + e')

/-- Exact sum: a zero sum of unlike signs is +0; infinities of unlike signs give a NaN (R97). -/
def Num.add : Num → Num → Num
  | .nan, _ => .nan
  | _, .nan => .nan
  | .inf s, .inf s' => if s == s' then .inf s else .nan
  | .inf s, _ => .inf s
  | _, .inf s => .inf s
  | .fin s m e, .fin s' m' e' =>
    let l := min e e'
    let a : Int := (m <<< (e - l).toNat : Nat)
    let b : Int := (m' <<< (e' - l).toNat : Nat)
    let v := (if s then -a else a) + (if s' then -b else b)
    if v == 0 then .fin (s && s') 0 0 else .fin (decide (v < 0)) v.natAbs l

/-- Exact order of two values that are no NaN: is the first below the second? Zeros are equal. -/
def Num.lt (x y : Num) : Bool :=
  match x, y with
  | .nan, _ => false
  | _, .nan => false
  | .inf s, .inf s' => s && !s'
  | .inf s, _ => s
  | _, .inf s => !s
  | .fin s m e, .fin s' m' e' =>
    if m == 0 && m' == 0 then false
    else match s, s' with
      | true, true => !magLe m e m' e'
      | true, false => true
      | false, true => false
      | false, false => !magLe m' e' m e

/-- Numeric equality; a NaN equals nothing. -/
def Num.eq (x y : Num) : Bool := !x.isNan && !y.isNan && !x.lt y && !y.lt x

/-- The value of an FP32 word. -/
def fp32 (w : W32) : Num := decodeFloat fmtFP32 w.toNat

/-- The FP32 canonical NaN (R81). -/
def fp32NaN : W32 := 0x7FC00000

/-- Round a value once to FP32 (R97), with its flags; overflow goes to infinity. -/
def roundFp32 (x : Num) : W32 × Flags :=
  let r := encodeFloat fmtFP32 false x
  (BitVec.ofNat 32 r.code, r.flags)

/-- Round an exact result; a NaN that no operand brought in is an invalid operation (R97). -/
def fpResult (operandNaN : Bool) (x : Num) : W32 × Flags :=
  if x.isNan then (fp32NaN, if operandNaN then 0 else flagIV) else roundFp32 x

/-- FP32 addition (R236). -/
def fpAdd (a b : W32) : W32 × Flags :=
  fpResult ((fp32 a).isNan || (fp32 b).isNan) ((fp32 a).add (fp32 b))

/-- FP32 subtraction (R236). -/
def fpSub (a b : W32) : W32 × Flags :=
  fpResult ((fp32 a).isNan || (fp32 b).isNan) ((fp32 a).add (fp32 b).negate)

/-- FP32 multiplication (R236). -/
def fpMul (a b : W32) : W32 × Flags :=
  fpResult ((fp32 a).isNan || (fp32 b).isNan) ((fp32 a).mul (fp32 b))

/-- FP32 fused multiply-add; an infinity times a zero is invalid whatever the addend (R97). -/
def fpFma (a b c : W32) : W32 × Flags :=
  let p := (fp32 a).mul (fp32 b)
  if p.isNan && !(fp32 a).isNan && !(fp32 b).isNan then (fp32NaN, flagIV)
  else fpResult ((fp32 a).isNan || (fp32 b).isNan || (fp32 c).isNan) (p.add (fp32 c))

/-- The quotient of two finite non-zero magnitudes, with a last bit that says whether a remainder was left. -/
def quotient (m : Nat) (e : Int) (m' : Nat) (e' : Int) : Nat × Int :=
  let k := m'.log2 + 64
  let n := m <<< k
  (2 * (n / m') + (if n % m' == 0 then 0 else 1), e - e' - k - 1)

/-- FP32 division (R236). -/
def fpDiv (a b : W32) : W32 × Flags :=
  match fp32 a, fp32 b with
  | .nan, _ => (fp32NaN, 0)
  | _, .nan => (fp32NaN, 0)
  | .inf _, .inf _ => (fp32NaN, flagIV)
  | .inf s, y => roundFp32 (.inf (s != y.neg?))
  | .fin s _ _, .inf s' => roundFp32 (.fin (s != s') 0 0)
  | .fin s m e, .fin s' m' e' =>
    if m' == 0 then
      if m == 0 then (fp32NaN, flagIV) else ((roundFp32 (.inf (s != s'))).1, flagDZ)
    else if m == 0 then roundFp32 (.fin (s != s') 0 0)
    else
      let (q, l) := quotient m e m' e'
      roundFp32 (.fin (s != s') q l)

/-- The integer square root of `n`, bit by bit from bit `b - 1`. -/
def isqrt (n : Nat) (acc : Nat) : Nat → Nat
  | 0 => acc
  | b + 1 =>
    let c := acc + 2 ^ b
    if c * c ≤ n then isqrt n c b else isqrt n acc b

/-- The square root of a finite non-zero magnitude, with a last bit that says whether a remainder was left. -/
def rootMag (m : Nat) (e : Int) : Nat × Int :=
  let k := if (e - 64) % 2 == 0 then 64 else 65
  let n := m <<< k
  let r := isqrt n 0 48
  (2 * r + (if r * r == n then 0 else 1), (e - k) / 2 - 1)

/-- FP32 square root (R236): the root of −0 is −0, a negative non-zero operand is invalid. -/
def fpSqrt (a : W32) : W32 × Flags :=
  match fp32 a with
  | .nan => (fp32NaN, 0)
  | .inf true => (fp32NaN, flagIV)
  | .inf false => (a, 0)
  | .fin s m e =>
    if m == 0 then (a, 0)
    else if s then (fp32NaN, flagIV)
    else
      let (r, l) := rootMag m e
      roundFp32 (.fin false r l)

/-- minimumNumber (R237): a NaN gives way to a number, and −0 lies below +0. -/
def fpMin (a b : W32) : W32 :=
  match fp32 a, fp32 b with
  | .nan, .nan => fp32NaN
  | .nan, _ => b
  | _, .nan => a
  | x, y => if x.lt y then a else if y.lt x then b else if x.neg? then a else b

/-- maximumNumber (R237): a NaN gives way to a number, and +0 lies above −0. -/
def fpMax (a b : W32) : W32 :=
  match fp32 a, fp32 b with
  | .nan, .nan => fp32NaN
  | .nan, _ => b
  | _, .nan => a
  | x, y => if x.lt y then b else if y.lt x then a else if x.neg? then b else a

/-- Clear the sign; a NaN becomes the canonical one (R236). -/
def fpAbs (a : W32) : W32 := if (fp32 a).isNan then fp32NaN else a &&& 0x7FFFFFFF

/-- Invert the sign; a NaN becomes the canonical one (R236). -/
def fpNeg (a : W32) : W32 := if (fp32 a).isNan then fp32NaN else a ^^^ 0x80000000

/-- The K19 code of a value in the place of R85: bits 31:13 of a word. -/
def k19Word (x : Num) : W32 := BitVec.ofNat 32 ((encodeFloat fmtK19 false x).code <<< 13)

/-- Round a value to K19 (R88 with sat 0). -/
def roundK19 (x : Num) : Num := decodeFloat fmtK19 (encodeFloat fmtK19 false x).code

/-- An element fetched as an operand: scaled exactly and rounded to K19 (R93). -/
def fetchK19 (code : BitVec 4) (ts bs : BitVec 8) (w : Nat) : Num :=
  roundK19 (((decodeElem code w).scaleE8 ts).scaleE8 bs)

/-- Group size and window of a pair of operand formats (R95): wide when BF16 or FP16 stands on either side. -/
def groupOf (wide : Bool) : Nat × Nat := if wide then (8, 34) else (16, 25)

/-- The floor of a signed value times `2^k` (the window truncation of R94). -/
def floorAt (neg : Bool) (m : Nat) (k : Int) : Int :=
  if 0 ≤ k then (if neg then -((m <<< k.toNat : Nat) : Int) else ((m <<< k.toNat : Nat) : Int))
  else
    let q := m >>> (-k).toNat
    if neg then -(q : Int) - (if q <<< (-k).toNat == m then 0 else 1) else (q : Int)

/-- One group of the dot-group adder (R94): the new accumulator and the flags that `vec.dotg` raises (R282). -/
def dotGroup (acc : W32) (ps : List (Num × Num)) (W : Nat) : W32 × Flags :=
  let prods := ps.map fun p => p.1.mul p.2
  let invalid := ps.any fun p => (p.1.mul p.2).isNan && !p.1.isNan && !p.2.isNan
  if prods.any Num.isNan then (fp32NaN, if invalid then flagIV else 0)
  else if prods.any Num.isInf then
    let pos := prods.any (· == .inf false)
    let neg := prods.any (· == .inf true)
    if pos && neg then (fp32NaN, flagIV)
    else
      let r := (fp32 acc).add (.inf neg)
      if r.isNan then (fp32NaN, 0) else roundFp32 r
  else
    let tops := prods.filterMap fun
      | .fin _ m e => if m == 0 then none else some (magLog2 m e)
      | _ => none
    match tops with
    | [] => (acc, 0)
    | t :: ts =>
      let E := ts.foldl max t
      let z : Int := (W : Int) - 2 - (ps.length.log2 : Int)
      let S : Int := prods.foldl (fun (s : Int) p => match p with
        | .fin neg m e => s + floorAt neg m (e + z - E)
        | _ => s) 0
      if S == 0 then (acc, 0)
      else
        let r := (fp32 acc).add (.fin (decide (S < 0)) S.natAbs (E - z))
        if r.isNan then (fp32NaN, 0) else roundFp32 r

/-- Dot-group accumulation along K: consecutive groups of `G` pairs in ascending order, with `n` groups at most
(R94, R282); the last group is filled with zero products. -/
def dotGroups (G W : Nat) : Nat → W32 → List (Num × Num) → W32 × Flags
  | 0, acc, _ => (acc, 0)
  | _ + 1, acc, [] => (acc, 0)
  | n + 1, acc, ps =>
    let zero : Num × Num := (.fin false 0 0, .fin false 0 0)
    let g := ps.take G
    let (acc', fl) := dotGroup acc (g ++ List.replicate (G - g.length) zero) W
    let (r, fl') := dotGroups G W n acc' (ps.drop G)
    (r, fl ||| fl')

end Sys2Proof.Machine
end

