-- ==== Sys2Proof/Machine/Lanes.lean ====
section
/-! DEFINITION. Vectors as lanes (R275): lane-wise application, comparisons, reductions (R281), the defined functions
(R283 to R288), the dot product of a register pair (R282) and the conversions between formats (R290 to R293). All are
functions of values; the instructions that use them stand in Machine/Vector.lean. -/
namespace Sys2Proof.Machine

/-- Lane `n` of a vector (R275). -/
def lane (v : Vec) (n : Nat) : W32 := v.extractLsb' (32 * n) 32

/-- A vector from its lanes, lane 0 lowest (R275). -/
def ofLanes (l : List W32) : Vec :=
  BitVec.ofNat 2048 (l.foldr (fun w acc => w.toNat + acc <<< 32) 0)

/-- The 64 lanes of a vector. -/
def lanes (v : Vec) : List W32 := (List.range 64).map (lane v)

/-- The vector whose lane `n` is `f n`. -/
def tabulate (f : Nat → W32) : Vec := ofLanes ((List.range 64).map f)

/-- Every lane equal to `w` (R182, R280). -/
def broadcast (w : W32) : Vec := tabulate fun _ => w

/-- Apply an operation with flags to every lane; the flags of the lanes are ORed (R276). -/
def laneWise (f : Nat → W32 × Flags) : Vec × Flags :=
  let rs := (List.range 64).map f
  (ofLanes (rs.map (·.1)), rs.foldl (fun a r => a ||| r.2) 0)

/-- The predicate whose bit `n` is `f n` (R279). -/
def lanePred (f : Nat → Bool) : W64 :=
  BitVec.ofNat 64 ((List.range 64).foldr (fun n acc => (if f n then 1 else 0) + 2 * acc) 0)

/-- FP32 relations of the compares (R236, R279). -/
inductive FpRel where
  | eq | ne | lt | le | un
deriving DecidableEq, Repr

/-- An FP32 relation and its flags: ordered compares of a NaN are invalid (R97). -/
def fpRel (r : FpRel) (a b : W32) : Bool × Flags :=
  let x := fp32 a
  let y := fp32 b
  let nan := x.isNan || y.isNan
  match r with
  | .eq => (x.eq y, 0)
  | .ne => (!x.eq y, 0)
  | .lt => (x.lt y, if nan then flagIV else 0)
  | .le => (!nan && !y.lt x, if nan then flagIV else 0)
  | .un => (nan, 0)

/-- One level of the reduction tree (R281). -/
def reduceLevel (op : W32 → W32 → W32 × Flags) : List W32 → List W32 × Flags
  | a :: b :: l =>
    let (r, fl) := op a b
    let (rs, fl') := reduceLevel op l
    (r :: rs, fl ||| fl')
  | l => (l, 0)

/-- The fixed binary tree of R281, level by level. -/
def reduceTree (op : W32 → W32 → W32 × Flags) : Nat → List W32 → W32 × Flags
  | 0, l => (l.headD 0, 0)
  | n + 1, l =>
    let (l', fl) := reduceLevel op l
    let (r, fl') := reduceTree op n l'
    (r, fl ||| fl')

/-- Reduce 64 lanes; where a predicate is given, a lane whose bit is 0 takes part as `masked` (R281). -/
def reduce (op : W32 → W32 → W32 × Flags) (masked : W32) (p : Option W64) (v : Vec) : W32 × Flags :=
  reduceTree op 6 ((List.range 64).map fun n =>
    match p with
    | some m => if m.getLsbD n then lane v n else masked
    | none => lane v n)

/-- `TE[j] = fp32(2^(j/32))` (R284). -/
def tableTE : List W32 :=
  [0x3F800000, 0x3F82CD87, 0x3F85AAC3, 0x3F88980F, 0x3F8B95C2, 0x3F8EA43A, 0x3F91C3D3, 0x3F94F4F0] ++
  [0x3F9837F0, 0x3F9B8D3A, 0x3F9EF532, 0x3FA27043, 0x3FA5FED7, 0x3FA9A15B, 0x3FAD583F, 0x3FB123F6] ++
  [0x3FB504F3, 0x3FB8FBAF, 0x3FBD08A4, 0x3FC12C4D, 0x3FC5672A, 0x3FC9B9BE, 0x3FCE248C, 0x3FD2A81E] ++
  [0x3FD744FD, 0x3FDBFBB8, 0x3FE0CCDF, 0x3FE5B907, 0x3FEAC0C7, 0x3FEFE4BA, 0x3FF5257D, 0x3FFA83B3]

/-- `TR[i] = fp32(1 / (1 + (i + 0.5)/64))` (R285). -/
def tableTR : List W32 :=
  [0x3F7E03F8, 0x3F7A232D, 0x3F76603E, 0x3F72B9D6, 0x3F6F2EB7, 0x3F6BBDB3, 0x3F6865AC, 0x3F652598] ++
  [0x3F61FC78, 0x3F5EE95C, 0x3F5BEB62, 0x3F5901B2, 0x3F562B81, 0x3F53680D, 0x3F50B6A0, 0x3F4E168A] ++
  [0x3F4B8728, 0x3F4907DA, 0x3F46980C, 0x3F443730, 0x3F41E4BC, 0x3F3FA030, 0x3F3D6910, 0x3F3B3EE7] ++
  [0x3F392144, 0x3F370FBB, 0x3F3509E7, 0x3F330F63, 0x3F311FD4, 0x3F2F3ADE, 0x3F2D602B, 0x3F2B8F6A] ++
  [0x3F29C84A, 0x3F280A81, 0x3F2655C4, 0x3F24A9CF, 0x3F23065E, 0x3F216B31, 0x3F1FD80A, 0x3F1E4CAD] ++
  [0x3F1CC8E1, 0x3F1B4C70, 0x3F19D723, 0x3F1868C8, 0x3F17012E, 0x3F15A025, 0x3F144581, 0x3F12F114] ++
  [0x3F11A2B4, 0x3F105A38, 0x3F0F177A, 0x3F0DDA52, 0x3F0CA29C, 0x3F0B7034, 0x3F0A42F8, 0x3F091AC7] ++
  [0x3F07F781, 0x3F06D905, 0x3F05BF37, 0x3F04A9FA, 0x3F039930, 0x3F028CC0, 0x3F01848E, 0x3F008081]

/-- `TQ[i]`, first guesses of the reciprocal square root (R286). -/
def tableTQ : List W32 :=
  [0x3F7E05EC, 0x3F7A33F9, 0x3F768CDC, 0x3F730D8A, 0x3F6FB345, 0x3F6C7B90, 0x3F69642A, 0x3F666B02] ++
  [0x3F638E39, 0x3F60CC16, 0x3F5E2305, 0x3F5B9193, 0x3F59166B, 0x3F56B051, 0x3F545E22, 0x3F521ED0] ++
  [0x3F4FF162, 0x3F4DD4ED, 0x3F4BC89B, 0x3F49CBA2, 0x3F47DD45, 0x3F45FCD6, 0x3F4429AF, 0x3F426337] ++
  [0x3F40A8DE, 0x3F3EFA1C, 0x3F3D5671, 0x3F3BBD67, 0x3F3A2E8C, 0x3F38A975, 0x3F372DBF, 0x3F35BB09] ++
  [0x3F339F19, 0x3F30EB96, 0x3F2E565C, 0x3F2BDD46, 0x3F297E62, 0x3F2737F0, 0x3F250855, 0x3F22EE1D] ++
  [0x3F20E7F5, 0x3F1EF4A4, 0x3F1D130E, 0x3F1B422C, 0x3F19810C, 0x3F17CED0, 0x3F162AA9, 0x3F1493D9] ++
  [0x3F1309AF, 0x3F118B87, 0x3F1018C6, 0x3F0EB0E0, 0x3F0D534F, 0x3F0BFF97, 0x3F0AB544, 0x3F0973E8] ++
  [0x3F083B1E, 0x3F070A87, 0x3F05E1C7, 0x3F04C08B, 0x3F03A682, 0x3F029362, 0x3F0186E2, 0x3F0080C1]

/-- `TL[i] = fp32(log2 ci)` (R288). -/
def tableTL : List W32 :=
  [0x3CB73CB4, 0x3D8759C5, 0x3DDE4212, 0x3E19574F, 0x3E42615F, 0x3E6A4F72, 0x3E88983F, 0x3E9B8926] ++
  [0x3EAE00D2, 0x3EC0052B, 0x3ED19BB0, 0x3EE2C97D, 0x3EF39355, 0x3F01FED4, 0x3F0A0650, 0x3F11E20F] ++
  [0x3F1993E3, 0x3F211D84, 0x3F28808C, 0x3F2FBE80, 0x3F36D8CB, 0x3F3DD0C8, 0x3F44A7BA, 0x3F4B5ED7] ++
  [0x3F51F740, 0x3F587209, 0x3F5ED039, 0x3F6512C7, 0x3F6B3A9F, 0x3F7148A1, 0x3F773DA4, 0x3F7D1A71]

/-- `RC[i] = fp32(1/ci)` (R288). -/
def tableRC : List W32 :=
  [0x3F7C0FC1, 0x3F74898D, 0x3F6D7304, 0x3F66C2B4, 0x3F607038, 0x3F5A740E, 0x3F54C77B, 0x3F4F6475] ++
  [0x3F4A4588, 0x3F4565C8, 0x3F40C0C1, 0x3F3C5264, 0x3F381703, 0x3F340B41, 0x3F302C0B, 0x3F2C7692] ++
  [0x3F28E83F, 0x3F257EB5, 0x3F2237C3, 0x3F1F1166, 0x3F1C09C1, 0x3F191F1A, 0x3F164FDA, 0x3F139A86] ++
  [0x3F10FDBC, 0x3F0E7835, 0x3F0C08C1, 0x3F09AE41, 0x3F0767AB, 0x3F053408, 0x3F03126F, 0x3F010204]

/-- An entry of a table of constants. -/
def entry (t : List W32) (i : Nat) : W32 := t.getD i 0

/-- `c1 = fp32(ln 2)` (R284). -/
def constC1 : W32 := 0x3F317218
/-- `c2 = fp32((ln 2)^2 / 2)` (R284). -/
def constC2 : W32 := 0x3E75FDF0
/-- `c3 = fp32((ln 2)^3 / 6)` (R284). -/
def constC3 : W32 := 0x3D635847
/-- `k1 = L = fp32(1 / ln 2)` (R287, R288). -/
def constK1 : W32 := 0x3FB8AA3B
/-- `k2 = fp32(-1 / (2 ln 2))` (R288). -/
def constK2 : W32 := 0xBF38AA3B
/-- `k3 = fp32(1 / (3 ln 2))` (R288). -/
def constK3 : W32 := 0x3EF6384F
/-- 1.0 in FP32. -/
def fpOne : W32 := 0x3F800000
/-- +∞ in FP32. -/
def fpInf : W32 := 0x7F800000
/-- −∞ in FP32. -/
def fpNegInf : W32 := 0xFF800000

/-- Round without flags: the roundings inside the functions set none (R283). -/
def rnd (x : Num) : W32 := (roundFp32 x).1

/-- Scale by `2^n` (R283): overflow sets OF and NX, an inexact subnormal result sets UF and NX. A result that
underflows to zero counts as subnormal (DEDUCED, log 22). -/
def scaleFp (neg : Bool) (y : W32) (n : Int) : W32 × Flags :=
  let v := (fp32 y).scale n
  let (r, fl) := roundFp32 (if neg then v.negate else v)
  if fl &&& flagOF != 0 then (r, flagOF ||| flagNX)
  else if fl &&& flagNX != 0 && r &&& 0x7F800000 == 0 then (r, flagUF ||| flagNX)
  else (r, 0)

/-- `floor(|x| * 2^k)` of a non-negative finite value. -/
def floorScaled (m : Nat) (e k : Int) : Nat := (floorAt false m (e + k)).toNat

/-- `exp2` of a finite value (R284). `x - k/32` is rounded to FP32 where it is not exact (DEDUCED, log 21). -/
def fnExp2 (x : W32) : W32 × Flags :=
  match fp32 x with
  | .fin s m e =>
    let v : Num := .fin s m e
    if !v.lt (.fin false 128 0) then (fpInf, flagOF ||| flagNX)
    else if !(Num.fin true 160 0).lt v then (0, 0)
    else
      let k := floorAt s m (e + 5)
      let n := k / 32
      let j := (k - 32 * n).toNat
      let r := rnd (v.add (.fin (decide (0 < k)) k.natAbs (-5)))
      let p := (fpFma r constC3 constC2).1
      let p := (fpFma r p constC1).1
      let p := (fpMul r p).1
      let t := entry tableTE j
      scaleFp false (fpFma t p t).1 n
  | .inf true => (0, 0)
  | .inf false => (fpInf, 0)
  | .nan => (fp32NaN, 0)

/-- The significand in [1, 2) of a finite non-zero value as an FP32 word, and its exponent (R283). -/
def normalise (m : Nat) (e : Int) : W32 × Int := (rnd (.fin false m (-(m.log2 : Int))), magLog2 m e)

/-- `rcp` of a finite non-zero value (R285). -/
def fnRcpFinite (s : Bool) (m : Nat) (e : Int) : W32 × Flags :=
  let (mm, ex) := normalise m e
  let y :=
    if mm == fpOne then fpOne
    else
      let i := floorScaled m (-(m.log2 : Int)) 6 - 64
      let t := entry tableTR i
      let nm := fpNeg mm
      let d := (fpFma nm t fpOne).1
      let y := (fpFma t d t).1
      let d := (fpFma nm y fpOne).1
      (fpFma y d y).1
  scaleFp s y (-ex)

/-- `rsq` of a finite positive value (R286). -/
def fnRsqFinite (m : Nat) (e : Int) : W32 :=
  let ex := magLog2 m e
  let odd := ex % 2 != 0
  let me : Int := -(m.log2 : Int) + (if odd then 1 else 0)
  let ee := if odd then ex - 1 else ex
  let half := -(ee / 2)
  let mm := rnd (.fin false m me)
  if mm == fpOne then rnd (.fin false 1 half)
  else
    let i := if floorScaled m me 0 < 2 then floorScaled m me 5 - 32 else floorScaled m me 4
    let nh := fpNeg (rnd (.fin false m (me - 1)))
    let newton (y : W32) : W32 :=
      let t := (fpMul y y).1
      let d := (fpFma nh t 0x3F000000).1
      (fpFma y d y).1
    rnd ((fp32 (newton (newton (entry tableTQ i)))).scale half)

/-- `log2` of a finite positive value (R288). -/
def fnLog2Finite (m : Nat) (e : Int) : W32 :=
  let (mm, ex) := normalise m e
  let ef := rnd (.ofInt ex)
  if mm == fpOne then ef
  else
    let i := floorScaled m (-(m.log2 : Int)) 5 - 32
    let diff := rnd ((fp32 mm).add (.fin true (65 + 2 * i) (-6)))
    let t := (fpMul diff (entry tableRC i)).1
    let p := (fpFma t constK3 constK2).1
    let p := (fpFma t p constK1).1
    let p := (fpMul t p).1
    (fpAdd ef (fpAdd (entry tableTL i) p).1).1

/-- `rcp` (R283, R285). -/
def fnRcp (x : W32) : W32 × Flags :=
  match fp32 x with
  | .nan => (fp32NaN, 0)
  | .inf s => (if s then 0x80000000 else 0, 0)
  | .fin s m e => if m == 0 then (if s then fpNegInf else fpInf, flagDZ) else fnRcpFinite s m e

/-- `rsq` (R283, R286). -/
def fnRsq (x : W32) : W32 × Flags :=
  match fp32 x with
  | .nan => (fp32NaN, 0)
  | .inf s => if s then (fp32NaN, flagIV) else (0, 0)
  | .fin s m e =>
    if m == 0 then (if s then fpNegInf else fpInf, flagDZ)
    else if s then (fp32NaN, flagIV) else (fnRsqFinite m e, 0)

/-- `log2` (R283, R288). -/
def fnLog2 (x : W32) : W32 × Flags :=
  match fp32 x with
  | .nan => (fp32NaN, 0)
  | .inf s => if s then (fp32NaN, flagIV) else (fpInf, 0)
  | .fin s m e =>
    if m == 0 then (fpNegInf, flagDZ) else if s then (fp32NaN, flagIV) else (fnLog2Finite m e, 0)

/-- `sigm` (R283, R287); it sets no flag. -/
def fnSigm (x : W32) : W32 :=
  match fp32 x with
  | .nan => fp32NaN
  | .inf s => if s then 0 else fpOne
  | .fin _ _ _ =>
    let u := (fpMul x (fpNeg constK1)).1
    let d := (fpAdd fpOne (fnExp2 u).1).1
    if d == fpInf then 0 else (fnRcp d).1

/-- `tanh` (R283, R288); it sets no flag. -/
def fnTanh (x : W32) : W32 :=
  match fp32 x with
  | .nan => fp32NaN
  | .inf s => if s then 0xBF800000 else fpOne
  | .fin _ _ _ => (fpFma 0x40000000 (fnSigm (fpMul 0x40000000 x).1) 0xBF800000).1

/-- Element `k` of packed elements of `b` bits (R38). -/
def packed (v : Vec) (b k : Nat) : Nat := v.toNat >>> (k * b) % 2 ^ b

/-- The dot product of a register pair (R282), its elements decoded without scales. -/
def vectorDot (code : BitVec 4) (acc : W32) (a b : Vec) : W32 × Flags :=
  let wide := code == 4 || code == 5
  let n := if wide then 128 else 256
  let (G, W) := groupOf wide
  let el (v : Vec) (k : Nat) : Num := fetchK19 code 0x7F 0x7F (packed v (elemBits code) k)
  dotGroups G W n acc ((List.range n).map fun k => (el a k, el b k))

/-- The control word of the vector conversions (R290). -/
structure CvtCtl where
  part : Nat
  sat : Bool
  code : BitVec 4
  ts : BitVec 8
deriving DecidableEq, Repr

/-- Cut the control word (R290). -/
def CvtCtl.ofWord (w : W64) : CvtCtl :=
  { part := (w.extractLsb' 16 2).toNat, sat := w.getLsbD 12, code := w.extractLsb' 8 4, ts := w.extractLsb' 0 8 }

/-- The format codes the narrowing and widening rows accept (R291, R292). -/
inductive CvtSet where
  | narrow | widen | integer
deriving DecidableEq, Repr

/-- Is the code in the row's set (R291, R292)? -/
def CvtSet.accepts (k : CvtSet) (code : BitVec 4) : Bool :=
  match k with
  | .narrow => code.toNat ≤ 5
  | .widen => code.toNat ≤ 5 || code == 15
  | .integer => [7, 8, 9, 11, 12, 13].contains code.toNat

/-- The checks a vector conversion makes when it issues (R290). -/
def CvtCtl.legal (c : CvtCtl) (k : CvtSet) : Bool :=
  k.accepts c.code && c.part * 64 * elemBits c.code < 2048 && (k == .narrow || !c.sat)

/-- `cvt.nar` and `cvt.f2i` (R291): 64 elements of `old` are replaced. UF is left out for the tapered formats. -/
def vectorNarrow (c : CvtCtl) (old a : Vec) : Vec × Flags :=
  let b := elemBits c.code
  let rs := (List.range 64).map fun n =>
    let x := fp32 (lane a n)
    let r := encodeElem c.code c.sat (x.unscaleE8 c.ts)
    (r.code, r.flags ||| (if c.ts == 0xFF then flagIV else 0))
  let block := rs.foldr (fun r acc => r.1 + acc <<< b) 0
  let lo := 64 * c.part * b
  let mask : Vec := BitVec.ofNat 2048 ((2 ^ (64 * b) - 1) <<< lo)
  ((old &&& ~~~mask) ||| BitVec.ofNat 2048 (block <<< lo), rs.foldl (fun f r => f ||| r.2) 0)

/-- `cvt.wid` and `cvt.i2f` (R292); a NaN, NaR or scale of NaN gives the canonical NaN and no flag. -/
def vectorWiden (c : CvtCtl) (a : Vec) : Vec × Flags :=
  laneWise fun n =>
    let x := (decodeElem c.code (packed a (elemBits c.code) (64 * c.part + n))).scaleE8 c.ts
    if x.isNan then (fp32NaN, 0) else roundFp32 x

/-- `cvt.e8` (R293). -/
def vectorE8 (a : Vec) : Vec := tabulate fun n => BitVec.ofNat 32 (encodeE8M0 (fp32 (lane a n))).code

end Sys2Proof.Machine
end

