-- ==== Sys2Proof/Machine/Tensor.lean ====
section
/-! DEFINITION. Tensor descriptors, sharding, view registers and the intersection unit (R34 to R47): which element a view
index names, where it lies, and whether two views can meet. -/
namespace Sys2Proof.Machine

/-- A field of a tensor descriptor (R36). -/
def dfld (d : BitVec 1024) (w lo n : Nat) : Nat := fld (word d w) lo n

/-- RANK (R36). -/
def dRank (d : BitVec 1024) : Nat := dfld d 0 12 3
/-- FMT (R36). -/
def dFmt (d : BitVec 1024) : BitVec 4 := BitVec.ofNat 4 (dfld d 0 16 4)
/-- ALIAS (R36). -/
def dAlias (d : BitVec 1024) : Nat := dfld d 0 20 4
/-- TID (R36). -/
def dTid (d : BitVec 1024) : Nat := dfld d 0 0 12
/-- SMODE (R36). -/
def dSmode (d : BitVec 1024) : Nat := dfld d 0 24 2
/-- SDIM0 or SDIM1 (R36). -/
def dSdim (d : BitVec 1024) (i : Nat) : Nat := dfld d 0 (26 + 3 * i) 3
/-- Extent of a dimension (R36). -/
def dExt (d : BitVec 1024) (i : Nat) : Nat := dfld d (2 + i / 2) (32 * (i % 2)) 32
/-- Stride of a dimension, in elements (R36). -/
def dStride (d : BitVec 1024) (i : Nat) : Int := (word d (5 + i)).toInt
/-- Block extent (R36). -/
def dSext (d : BitVec 1024) (i : Nat) : Nat := dfld d 10 (32 * i) 32
/-- Number of blocks (R36). -/
def dSgrid (d : BitVec 1024) (i : Nat) : Nat := dfld d 11 (16 * i) 16
/-- Block scales present (R36). -/
def dBsp (d : BitVec 1024) : Bool := dfld d 12 11 1 == 1
/-- TSCALE (R36). -/
def dTscale (d : BitVec 1024) : BitVec 8 := BitVec.ofNat 8 (dfld d 12 0 8)

/-- Is a pointer aligned (R36)? -/
def alignedTo (p : W64) (n : Nat) : Bool := p.toNat % n == 0

/-- A descriptor meets every condition of R36 when it stands at index `t`. -/
def descValid (t : Nat) (d : BitVec 1024) : Bool :=
  let rank := dRank d
  let sm := dSmode d
  let dims := List.range rank
  dfld d 0 48 16 == 0 && dfld d 0 44 4 == 0 && dfld d 0 15 1 == 0 && dfld d 4 32 32 == 0 && dfld d 11 32 32 == 0
    && dfld d 12 12 52 == 0 && word d 14 == 0 && word d 15 == 0
    && 1 ≤ rank && rank ≤ 5 && dTid d == t && sm ≠ 3
    && dims.all (fun i => 1 ≤ dExt d i)
    && (if sm == 0 then alignedTo (word d 1) 128 else word d 1 == 0)
    && (sm == 0 || (dSdim d 0 < rank && 1 ≤ dSext d 0 && dExt d (dSdim d 0) ≤ dSgrid d 0 * dSext d 0))
    && (sm != 2 || (dSdim d 1 < rank && dSdim d 1 != dSdim d 0 && 1 ≤ dSext d 1
        && dExt d (dSdim d 1) ≤ dSgrid d 1 * dSext d 1))
    && (sm != 0 || dSgrid d 0 == 1) && (sm == 2 || dSgrid d 1 == 1)
    && dfld d 0 32 12 + dSgrid d 0 * dSgrid d 1 ≤ 4096
    && (!dBsp d || dfld d 12 8 3 < rank) && (dBsp d || word d 13 == 0)

/-- Row-major order of coordinates over extents, dimension 0 fastest (R39, R41). -/
def linear : List Int → List Int → Int
  | [], _ => 0
  | c :: _, [] => c
  | c :: cs, x :: xs => c + x * linear cs xs

/-- The linear index of coordinates (R39). -/
def linearIndex (d : BitVec 1024) (c : List Int) : Nat :=
  (linear (c.take (dRank d)) ((List.range (dRank d)).map fun i => (dExt d i : Int)) % 2 ^ 64).toNat

/-- The outcome of resolving coordinates (R41). -/
inductive Resolved where
  | outside
  | fault (t : Trap)
  /-- the pointer of the byte that holds the element's lowest bit, and the bit's position -/
  | ptr (base p : W64) (bit : Nat)
deriving DecidableEq, Repr

/-- A sharding entry passes the checks of R41. -/
def shardOk (d : BitVec 1024) (e : BitVec 256) : Bool :=
  fld (word e 0) 12 1 == 1 && fld (word e 0) 0 12 == dTid d && fld (word e 0) 40 2 != 3 && fld (word e 0) 44 4 ≤ 2
    && fld (word e 0) 48 16 == 0 && fld (word e 0) 13 3 == 0 && fld (word e 1) 48 16 == 0 && word e 2 == 0 && word e 3 == 0

/-- Resolve tensor coordinates to a pointer (R41); `none` in the trap's address says that the element has no pointer. The element
number and the byte offset of a sharded tensor are taken modulo 2^64. DESIGN CHOICE, log 111. -/
def resolve (s : State) (d : BitVec 1024) (c : List Int) : Resolved :=
  let rank := dRank d
  let c := c.take rank
  if (List.range rank).any (fun i => c.getD i 0 < 0 || (dExt d i : Int) ≤ c.getD i 0) then .outside
  else
    let b := elemBits (dFmt d)
    let strided (l : List Int) : Int := (List.range rank).foldl (fun a i => a + l.getD i 0 * dStride d i) 0
    if dSmode d == 0 then
      let e := (BitVec.ofInt 64 (strided c)).toInt
      let base := word d 1
      .ptr base (base + BitVec.ofInt 64 (e * b / 8)) (e * b % 8).toNat
    else
      let d0 := dSdim d 0
      let d1 := dSdim d 1
      let two := dSmode d == 2
      let b0 := (c.getD d0 0).toNat / dSext d 0
      let b1 := if two then (c.getD d1 0).toNat / dSext d 1 else 0
      let l := (List.range rank).map fun i =>
        if i == d0 then c.getD i 0 % dSext d 0 else if two && i == d1 then c.getD i 0 % dSext d 1 else c.getD i 0
      let ent := s.shard (dfld d 0 32 12 + b0 + dSgrid d 0 * b1)
      if !shardOk d ent then .fault ⟨0x05, 7, none⟩
      else
        let x := (List.range rank).map fun i =>
          ((if i == d0 then dSext d 0 else if two && i == d1 then dSext d 1 else dExt d i : Nat) : Int)
        let e := match fld (word ent 0) 44 4 with
          | 0 => linear l x
          | 1 => linear l.reverse x.reverse
          | _ => strided l
        let off := (BitVec.ofInt 64 ((fld (word ent 1) 0 48 : Int) + (BitVec.ofInt 64 e).toInt * b / 8)).toInt
        let bit := ((BitVec.ofInt 64 e).toInt * b % 8).toNat
        let dev := fld (word ent 0) 16 16
        let sp := fld (word ent 0) 40 2
        let die := fld (word ent 0) 32 2
        let col := fld (word ent 0) 34 6
        if dev != s.deviceId && sp != 2 then .fault ⟨0x05, 7, none⟩
        else
          let F := if dev != s.deviceId then 44 else if sp == 0 then 30 else if sp == 1 then 22 else 48
          if off < 0 || (2 ^ F : Int) ≤ off then .fault ⟨0x03, 9, none⟩
          else
            let o := off.toNat
            let p : Nat :=
              if dev != s.deviceId then 8 <<< 60 ||| dev <<< 44 ||| o
              else if sp == 0 then 4 <<< 60 ||| die <<< 56 ||| col <<< 50 ||| o
              else if sp == 1 then 2 <<< 60 ||| die <<< 56 ||| col <<< 50 ||| fld (word ent 0) 42 2 <<< 22 ||| o
              else o
            .ptr (BitVec.ofNat 64 p) (BitVec.ofNat 64 p) bit

/-- A field of a view register (R43). -/
def vfld (v : BitVec 512) (lo n : Nat) : Nat := bits v.toNat lo n

/-- OPEN (R43). -/
def vOpen (v : BitVec 512) : Bool := v.getLsbD 19
/-- WR (R43). -/
def vWr (v : BitVec 512) : Bool := v.getLsbD 20
/-- EDGE (R43). -/
def vEdge (v : BitVec 512) : Bool := v.getLsbD 21
/-- OSCOPE (R43). -/
def vScope (v : BitVec 512) : Nat := vfld v 22 2
/-- VDIMS (R43). -/
def vDims (v : BitVec 512) : Nat := vfld v 16 3
/-- TID (R43). -/
def vTid (v : BitVec 512) : Nat := vfld v 0 12
/-- ORIGIN of a dimension (R43). -/
def vOrigin (v : BitVec 512) (d : Nat) : Int := signed (vfld v (64 + 32 * d) 32) 32
/-- A matrix entry (R43). -/
def vM (v : BitVec 512) (d j : Nat) : Int := signed (vfld v (224 + 8 * (4 * d + j)) 8) 8
/-- Extent of a view dimension (R43). -/
def vExt (v : BitVec 512) (j : Nat) : Nat := vfld v (384 + 32 * j) 32

/-- Replace a field of a view register. -/
def vSet (v : BitVec 512) (lo n x : Nat) : BitVec 512 :=
  (v &&& ~~~(BitVec.ofNat 512 ((2 ^ n - 1) <<< lo))) ||| BitVec.ofNat 512 ((x % 2 ^ n) <<< lo)

/-- The tensor coordinates of a view index (R44). -/
def viewCoords (v : BitVec 512) (rank : Nat) (i : List Nat) : List Int :=
  (List.range rank).map fun d =>
    (List.range (vDims v)).foldl (fun a j => a + vM v d j * (i.getD j 0 : Int)) (vOrigin v d)

/-- Some index reaches its extent (R44, INDEX). -/
def indexBad (v : BitVec 512) (i : List Nat) : Bool :=
  (List.range (vDims v)).any fun j => vExt v j ≤ i.getD j 0

/-- A view trap (R44). DEDUCED, log 66. -/
def viewTrap (cause : Nat) (a : Option W64) : Trap := ⟨0x05, cause, a⟩

/-- The checks of one element of a view access from INDEX on, and its pointer (R44, R45, R41). -/
def resolveElem (s : State) (v : BitVec 512) (d : BitVec 1024) (edge : Bool) (i : List Nat) : Resolved :=
  if indexBad v i then .fault (viewTrap 5 none)
  else match resolve s d (viewCoords v (dRank d) i) with
    | .outside => if edge then .outside else .fault (viewTrap 6 none)
    | r => r

/-- A view is a box view (R46). -/
def isBox (v : BitVec 512) (rank : Nat) : Bool :=
  let rows := List.range rank
  let cols := List.range (vDims v)
  rows.all (fun d => (cols.filter fun j => vM v d j != 0).length ≤ 1)
    && cols.all (fun j => (rows.filter fun d => vM v d j != 0).length ≤ 1)

/-- Lowest and highest coordinate of each dimension of a view's bounding box (R47); none for an empty footprint. -/
def boundingBox (v : BitVec 512) (d : BitVec 1024) : Option (List (Int × Int)) :=
  if (List.range (vDims v)).any (fun j => vExt v j == 0) then none
  else
    let box := (List.range (dRank d)).map fun k =>
      let ends := (List.range (vDims v)).map fun j => vM v k j * ((vExt v j : Int) - 1)
      let lo := ends.foldl (fun a x => a + min 0 x) (vOrigin v k)
      let hi := ends.foldl (fun a x => a + max 0 x) (vOrigin v k)
      (max lo 0, min hi ((dExt d k : Int) - 1))
    if box.any (fun b => b.2 < b.1) then none else some box

/-- The set along one dimension of a box view, as first value, step and count before clipping (R46). -/
def boxSet (v : BitVec 512) (k : Nat) : Int × Int × Nat :=
  match (List.range (vDims v)).find? (fun j => vM v k j != 0) with
  | some j => (vOrigin v k, vM v k j, vExt v j)
  | none => (vOrigin v k, 0, 1)

/-- Is a coordinate in the set `o + s*i`, `i < n`? -/
def inSet (x o s : Int) (n : Nat) : Bool :=
  if s == 0 then x == o && 0 < n else (x - o) % s == 0 && 0 ≤ (x - o) / s && (x - o) / s < n

/-- Do two such sets share a value between 0 and `top - 1` (R47 rule 3)? The values of the shorter set are tried. -/
def setsShare (a b : Int × Int × Nat) (top : Nat) : Bool :=
  let (s, l) := if a.2.2 ≤ b.2.2 then (a, b) else (b, a)
  (List.range s.2.2).any fun i =>
    let x := s.1 + s.2.1 * (i : Int)
    0 ≤ x && x < top && inSet x l.1 l.2.1 l.2.2

/-- Some value `o + s*i`, `i < n`, lies between 0 and `top - 1` (R46). -/
def setInside (o s : Int) (n : Nat) (top : Nat) : Bool :=
  let (o, s) := if s < 0 then (o + s * ((n : Int) - 1), -s) else (o, s)
  let i := if 0 ≤ o || s == 0 then 0 else (s - 1 - o) / s
  i < n && 0 ≤ o + s * i && o + s * i < top

/-- The first and last `i` below `n` for which `o + m*i` lies between 0 and `top - 1`, as far as `m` decides it: `lo` and `hi`
bound the answer so far. -/
def insideRange (o m : Int) (top : Nat) (lo hi : Int) : Int × Int :=
  if m == 0 then if 0 ≤ o && o < top then (lo, hi) else (0, -1)
  else
    let (o, m) := if m < 0 then ((top : Int) - 1 - o, -m) else (o, m)
    (max lo ((m - 1 - o) / m), min hi (((top : Int) - 1 - o) / m))

/-- Some index over the first `n` columns of a view takes the coordinates `c`, with extents `x`, inside the tensor (R46): the
columns but one are tried index by index, the last one solved. -/
def someInside (v : BitVec 512) (x : List Nat) : Nat → List Int → Bool
  | 0, c => (c.zip x).all fun (a, n) => 0 ≤ a && a < n
  | 1, c =>
    let r := ((c.zip x).zip (List.range x.length)).foldl (fun (r : Int × Int) (ax, k) => insideRange ax.1 (vM v k 0) ax.2 r.1 r.2)
      (0, (vExt v 0 : Int) - 1)
    r.1 ≤ r.2
  | n + 2, c => (List.range (vExt v (n + 1))).any fun i =>
    someInside v x (n + 1) ((c.zip (List.range x.length)).map fun (a, k) => a + vM v k (n + 1) * (i : Int))

/-- The footprint of a view is empty (R46, R47): an empty bounding box, a box view that is empty along some dimension, or a view
none of whose indices names an element of the tensor. -/
def footprintEmpty (v : BitVec 512) (d : BitVec 1024) : Bool :=
  (boundingBox v d).isNone
    || if isBox v (dRank d) then (List.range (dRank d)).any fun k =>
        let x := boxSet v k
        !setInside x.1 x.2.1 x.2.2 (dExt d k)
      else !someInside v ((List.range (dRank d)).map (dExt d)) (vDims v) ((List.range (dRank d)).map (vOrigin v))

/-- Can accesses through two open views meet (R47)? -/
def viewsMeet (v : BitVec 512) (d : BitVec 1024) (v' : BitVec 512) (d' : BitVec 1024) : Bool :=
  if footprintEmpty v d || footprintEmpty v' d' then false
  else match boundingBox v d, boundingBox v' d' with
  | some b, some b' =>
    if vTid v != vTid v' then dAlias d == 0 || dAlias d' == 0 || dAlias d == dAlias d'
    else if isBox v (dRank d) && isBox v' (dRank d') then
      (List.range (dRank d)).all fun k => setsShare (boxSet v k) (boxSet v' k) (dExt d k)
    else (b.zip b').all fun (x, y) => x.1 ≤ y.2 && y.1 ≤ x.2
  | _, _ => false

/-- Where the block scale of coordinates stands (R92): the byte's pointer, if the descriptor has block scales. -/
def blockScalePtr (d : BitVec 1024) (c : List Int) : Option W64 :=
  if !dBsp d then none
  else
    let k := dfld d 12 8 3
    let cs := (List.range (dRank d)).map fun i => if i == k then c.getD i 0 / 32 else c.getD i 0
    let xs := (List.range (dRank d)).map fun i => if i == k then ((dExt d i : Int) + 31) / 32 else (dExt d i : Int)
    some (word d 13 + BitVec.ofInt 64 (linear cs xs))

end Sys2Proof.Machine
end

