-- ==== Sys2Proof/Machine/Operands.lean ====
section
/-! DEFINITION. Operand forms: reading a register or queue entry under its empty-read policy (R178 to R185, R188),
destinations, and the size, strength and scope codes of the forms (R189). -/
namespace Sys2Proof.Machine

/-- A trap that ends a slot's issue. -/
def stopTrap (cls cause : Nat) : Stop := .trap ⟨cls, cause, none⟩

/-- ILLEGAL with a subcause (R193). -/
def illegal (cause : Nat) : Stop := stopTrap 0x02 cause
/-- ILLEGAL, OPERAND (R188). -/
def illegalOperand : Stop := illegal 4
/-- ILLEGAL, MODIFIER (R189). -/
def illegalModifier : Stop := illegal 5
/-- ILLEGAL, CSR (R197). -/
def illegalCsr : Stop := illegal 6
/-- ILLEGAL, QTYPE (R182). -/
def illegalQtype : Stop := illegal 7
/-- ENGINE with a cause (R318). -/
def engineTrap (cause : Nat) : Stop := stopTrap 0x0B cause
/-- MATRIX with a cause (R314). -/
def matrixTrap (cause : Nat) : Stop := stopTrap 0x0A cause
/-- The address-space fault PRIV (R29). -/
def privTrap : Stop := stopTrap 0x03 4

/-- What reading an empty register or entry does (R185). -/
def emptyRead (f : BitVec 1) : Stop := if f == 1 then stopTrap 0x07 0 else .wait .reg

/-- The number of the g register an operand code names (R188). -/
def gCode (code : BitVec 6) : Nat := code.toNat - 16

/-- The register or queue entry that an operand code names is full (R179, R185, R188). -/
def Ctx.filled (c : Ctx) (code : Nat) : Bool :=
  if code < 16 then (vget c.q code ⟨false, 0, none⟩).pend.isNone
  else if code < 48 then code == 16 || (vget c.g (code - 16) ⟨0, none⟩).pend.isNone
  else (vget c.h (code - 48) ⟨0, none⟩).pend.isNone

/-- Read a scalar operand (R179, R182, R185, R188). -/
def readS (c : Ctx) (code : BitVec 6) (f : BitVec 1) : Except Stop W64 :=
  if code.toNat < 16 then
    let e := vget c.q code.toNat ⟨false, 0, none⟩
    if e.isVec then .error illegalQtype
    else if e.pend.isSome then .error (emptyRead f)
    else .ok (e.val.extractLsb' 0 64)
  else if code.toNat = 16 then .ok 0
  else if code.toNat < 48 then
    let r := vget c.g (gCode code) ⟨0, none⟩
    if r.pend.isSome then .error (emptyRead f) else .ok r.val
  else .error illegalOperand

/-- Read a vector operand (R182, R185, R188). -/
def readV (c : Ctx) (code : BitVec 6) (f : BitVec 1) : Except Stop Vec :=
  if code.toNat < 16 then
    let e := vget c.q code.toNat ⟨false, 0, none⟩
    if !e.isVec then .error illegalQtype
    else if e.pend.isSome then .error (emptyRead f)
    else .ok e.val
  else if code.toNat < 48 then .error illegalOperand
  else
    let r := vget c.h (code.toNat - 48) ⟨0, none⟩
    if r.pend.isSome then .error (emptyRead f) else .ok r.val

/-- Does operand B of a vector row name a vector (R182, R275)? -/
def namesVector (c : Ctx) (code : BitVec 6) : Bool :=
  if code.toNat < 16 then (vget c.q code.toNat ⟨false, 0, none⟩).isVec else 48 ≤ code.toNat

/-- Read operand B of majors 0x20 to 0x22: a vector, or a scalar whose bits 31:0 go to every lane (R275). -/
def readVB (c : Ctx) (code : BitVec 6) (f : BitVec 1) : Except Stop Vec :=
  if namesVector c code then readV c code f
  else match readS c code f with
    | .ok v => .ok (broadcast (v.extractLsb' 0 32))
    | .error e => .error e

/-- A scalar destination (R179, R188). DEDUCED, log 80. -/
def destS (code : BitVec 6) : Except Stop Dest :=
  if code.toNat = 0 then .ok .push
  else if code.toNat < 16 then .error illegalOperand
  else if code.toNat = 16 then .ok .drop
  else if code.toNat < 48 then .ok (.g (gCode code))
  else .error illegalOperand

/-- A vector destination (R188). -/
def destV (code : BitVec 6) : Except Stop Dest :=
  if code.toNat = 0 then .ok .push
  else if code.toNat < 48 then .error illegalOperand
  else .ok (.h (code.toNat - 48))

/-- Bytes of a size code and whether its register is a vector (R189). -/
def sizeOf' (z : BitVec 3) : Option (Nat × Bool) :=
  match z.toNat with
  | 0 => some (1, false)
  | 1 => some (2, false)
  | 2 => some (4, false)
  | 3 => some (8, false)
  | 4 => some (128, true)
  | 5 => some (256, true)
  | _ => none

/-- Strength, scope, acquire and cache hint of an ORD code (R189). -/
structure Ord where
  (strong : Option Nat) (acquire : Bool) (hint : Nat)
deriving DecidableEq, Repr

/-- Read an ORD code; 9 to 12 belong to loads alone (R118, R189). -/
def ordOf (o : BitVec 4) (load : Bool) : Option Ord :=
  match o.toNat with
  | 0 => some ⟨none, false, 0⟩
  | 1 => some ⟨none, false, 1⟩
  | 2 => some ⟨none, false, 2⟩
  | 4 => some ⟨some 0, false, 0⟩
  | 5 => some ⟨some 1, false, 0⟩
  | 6 => some ⟨some 2, false, 0⟩
  | 7 => some ⟨some 3, false, 0⟩
  | 9 => if load then some ⟨some 0, true, 0⟩ else none
  | 10 => if load then some ⟨some 1, true, 0⟩ else none
  | 11 => if load then some ⟨some 2, true, 0⟩ else none
  | 12 => if load then some ⟨some 3, true, 0⟩ else none
  | _ => none

/-- A size code or ILLEGAL, MODIFIER (R189). -/
def needSize (z : BitVec 3) : Except Stop (Nat × Bool) :=
  match sizeOf' z with
  | some r => .ok r
  | none => .error illegalModifier

/-- An ORD code or ILLEGAL, MODIFIER (R189). -/
def needOrd (o : BitVec 4) (load : Bool) : Except Stop Ord :=
  match ordOf o load with
  | some r => .ok r
  | none => .error illegalModifier

/-- A condition whose failure ends the issue. -/
def need (ok : Bool) (e : Stop) : Except Stop Unit := if ok then .ok () else .error e

/-- A zero-extended FP32 result (R222). -/
def zext32 (w : W32) : W64 := w.setWidth 64

/-- A scalar result as vector contents. -/
def asVec (v : W64) : Vec := v.setWidth 2048

/-- A 12-bit or 19-bit immediate, sign-extended (R227, R235). -/
def sext {n : Nat} (i : BitVec n) : W64 := i.signExtend 64

end Sys2Proof.Machine
end

