-- ==== Sys2Proof/Machine/Flags.lean ====
section
/-! DEFINITION. The flag and range computations of scalar instructions: integer arithmetic at its edges (R224 to R229),
scalar conversions with their flags (R238), and the flags of the FP atomics (R262). The flags of FP32 arithmetic stand
in Machine/Numbers.lean. -/
namespace Sys2Proof.Machine

/-- `alu.div` (R224, R225). -/
def divS (a b : W64) : W64 := if b == 0 then BitVec.allOnes 64 else BitVec.ofInt 64 (a.toInt.tdiv b.toInt)
/-- `alu.divu` (R224, R225). -/
def divU (a b : W64) : W64 := if b == 0 then BitVec.allOnes 64 else BitVec.ofNat 64 (a.toNat / b.toNat)
/-- `alu.rem` (R224, R225). -/
def remS (a b : W64) : W64 := if b == 0 then a else BitVec.ofInt 64 (a.toInt.tmod b.toInt)
/-- `alu.remu` (R224, R225). -/
def remU (a b : W64) : W64 := if b == 0 then a else BitVec.ofNat 64 (a.toNat % b.toNat)
/-- `alu.mulhs` (R224). -/
def mulHS (a b : W64) : W64 := BitVec.ofInt 64 (a.toInt * b.toInt / 2 ^ 64)
/-- `alu.mulhu` (R224). -/
def mulHU (a b : W64) : W64 := BitVec.ofNat 64 (a.toNat * b.toNat / 2 ^ 64)
/-- `alu.min` (R224). -/
def minS (a b : W64) : W64 := if a.slt b then a else b
/-- `alu.max` (R224). -/
def maxS (a b : W64) : W64 := if a.slt b then b else a
/-- `alu.minu` (R224). -/
def minU (a b : W64) : W64 := if a.ult b then a else b
/-- `alu.maxu` (R224). -/
def maxU (a b : W64) : W64 := if a.ult b then b else a

/-- The shift amount: bits 5:0 (R226). -/
def shiftAmt (b : W64) : Nat := fld b 0 6

/-- One bits among the low `n` bits (R226). -/
def countOnes (a : W64) : Nat → Nat
  | 0 => 0
  | n + 1 => countOnes a n + (if a.getLsbD n then 1 else 0)

/-- Zero bits from bit `n - 1` down to the first one bit (R226). -/
def leadingZeros (a : W64) : Nat → Nat
  | 0 => 0
  | n + 1 => if a.getLsbD n then 0 else leadingZeros a n + 1

/-- Zero bits from bit `64 - n` up to the first one bit (R226). -/
def trailingZeros (a : W64) : Nat → Nat
  | 0 => 0
  | n + 1 => if a.getLsbD (63 - n) then 0 else trailingZeros a n + 1

/-- `alu.bswap` (R226). -/
def byteSwap (a : W64) : W64 :=
  BitVec.ofNat 64 ((List.range 8).foldl (fun acc i => acc * 256 + fld a (8 * i) 8) 0)

/-- The field `len` bits from `pos`; bits at 64 and above read 0 (R228). -/
def bitField (a b : W64) : Nat × Nat := (bits a.toNat (fld b 0 6) (fld b 8 6 + 1), fld b 8 6 + 1)

/-- `bit.ext` (R228). -/
def bitExtS (a b : W64) : W64 :=
  let (v, n) := bitField a b
  BitVec.ofInt 64 (signed v n)

/-- `bit.extu` (R228). -/
def bitExtU (a b : W64) : W64 := BitVec.ofNat 64 (bitField a b).1

/-- `bit.ins` (R228): bits at or above 64 are dropped. -/
def bitInsert (d a b : W64) : W64 :=
  let pos := fld b 0 6
  let len := fld b 8 6 + 1
  let mask : W64 := BitVec.ofNat 64 ((2 ^ len - 1) <<< pos)
  (d &&& ~~~mask) ||| (BitVec.ofNat 64 (bits a.toNat 0 len <<< pos))

/-- 1 or 0 (R222). -/
def bool64 (b : Bool) : W64 := if b then 1 else 0

/-- Is a format code an integer one (R79)? -/
def isIntFmt (t : BitVec 4) : Bool := 7 ≤ t.toNat && t.toNat ≤ 14

/-- Is an integer format signed (R79)? -/
def isSignedFmt (t : BitVec 4) : Bool := t.toNat ≤ 10

/-- `cvt.sf2i` (R238, R90). -/
def scalarToInt (t : BitVec 4) (a : W64) : W64 × Flags :=
  let r := encodeElem t true (fp32 (a.extractLsb' 0 32))
  (BitVec.ofInt 64 (if isSignedFmt t then signed r.code (elemBits t) else r.code), r.flags)

/-- `cvt.si2f` (R238, R88). -/
def intToScalar (t : BitVec 4) (a : W64) : W64 × Flags :=
  let r := roundFp32 (decodeElem t (a.toNat % 2 ^ elemBits t))
  (zext32 r.1, r.2)

/-- `cvt.sf2b` narrowing (R238). -/
def scalarNarrow (t : BitVec 4) (sat : Bool) (a : W64) : W64 × Flags :=
  let r := encodeElem t sat (fp32 (a.extractLsb' 0 32))
  (BitVec.ofNat 64 r.code, r.flags)

/-- `cvt.sf2b` widening (R238); no flag. -/
def scalarWiden (t : BitVec 4) (a : W64) : W64 :=
  let x := decodeElem t (a.toNat % 2 ^ elemBits t)
  zext32 (if x.isNan then fp32NaN else (roundFp32 x).1)

/-- A signalling NaN: a NaN with bit 22 clear (R262). -/
def isSignalling (w : W32) : Bool := (fp32 w).isNan && !w.getLsbD 22

/-- The new value of an atomic and the flag it raises (R260, R262), over `n` bits. DEDUCED, log 87. -/
def atomicNew (op n old v : Nat) : Nat × Flags :=
  let so := signed old n
  let sv := signed v n
  let a := BitVec.ofNat 32 old
  let b := BitVec.ofNat 32 v
  let snan := if isSignalling a || isSignalling b then flagIV else 0
  match op with
  | 0 => ((old + v) % 2 ^ n, 0)
  | 1 => (old &&& v, 0)
  | 2 => (old ||| v, 0)
  | 3 => (old ^^^ v, 0)
  | 4 => (if sv < so then v else old, 0)
  | 5 => (if so < sv then v else old, 0)
  | 6 => (min old v, 0)
  | 7 => (max old v, 0)
  | 8 => (v, 0)
  | 9 => ((fpAdd a b).1.toNat, ((fpAdd a b).2 &&& flagIV) ||| snan)
  | 10 => ((fpMin a b).toNat, snan)
  | _ => ((fpMax a b).toNat, snan)

end Sys2Proof.Machine
end

