-- ==== Sys2Proof/Machine/Form.lean ====
section
/-! DEFINITION. What a slot's own fields decide: the operands of every row (R188), modifier codes (R189), the registers that
it writes (R184, R230), and its slot class with the limits of a bundle (R191). -/
namespace Sys2Proof.Machine

/-- How a row uses an operand field: scalar or vector, read or written; `vb` takes either type (R275); `pd` names a
predicate that is written (R230). -/
inductive Role where
  | sd (c : BitVec 6)
  | ss (c : BitVec 6) (f : BitVec 1)
  | vd (c : BitVec 6)
  | vs (c : BitVec 6) (f : BitVec 1)
  | vb (c : BitVec 6) (f : BitVec 1)
  | pd (n : BitVec 3)
deriving DecidableEq, Repr

/-- The operand code fits its role (R188). -/
def Role.ok : Role → Bool
  | .sd c => c == 0 || (16 ≤ c.toNat && c.toNat < 48)
  | .ss c _ => c.toNat < 48
  | .vd c => c == 0 || 48 ≤ c.toNat
  | .vs c _ => c.toNat < 16 || 48 ≤ c.toNat
  | .vb _ _ => true
  | .pd _ => true

/-- The named register or predicate that a role writes, as a number (R184, R230); g0 is not written (R179). -/
def Role.write : Role → Option Nat
  | .sd c => if 17 ≤ c.toNat then some c.toNat else none
  | .vd c => if 48 ≤ c.toNat then some c.toNat else none
  | .pd n => some (64 + n.toNat)
  | _ => none

/-- D of a load or data of a store by its size; with an invalid size the type is not checked (R189).
DESIGN CHOICE, log 95. -/
def sizedRole (z : BitVec 3) (load : Bool) (c : BitVec 6) : List Role :=
  match sizeOf' z with
  | some (_, true) => [if load then .vd c else .vs c 0]
  | some (_, false) => [if load then .sd c else .ss c 0]
  | none => []

/-- The operands of a slot, from bit 24 downward (R188, R199). -/
def rolesOf : Instr → List Role
  | .aluAdd o | .aluSub o | .aluMul o | .aluMulhs o | .aluMulhu o | .aluDiv o | .aluDivu o | .aluRem o | .aluRemu o
  | .aluMin o | .aluMax o | .aluMinu o | .aluMaxu o | .aluAnd o | .aluOr o | .aluXor o | .aluAndn o | .aluShl o | .aluShr o
  | .aluSar o | .aluRotl o | .aluRotr o | .bitExt o | .bitExtu o | .bitSet o | .bitClr o | .bitTst o | .cmpEq o
  | .cmpNe o | .cmpLt o | .cmpLtu o | .cmpLe o | .cmpLeu o | .addrSpl o | .addrSpd o | .addrPdv o | .addrPeer o
  | .fpAdd o | .fpSub o | .fpMul o | .fpDiv o | .fpMin o | .fpMax o | .fpEq o | .fpLt o | .fpLe o | .fpUn o
  | .memLdxb o | .memLdxh o | .memLdxw o | .memLdxd o | .nmEnq o | .nmChase o | .logAppend o =>
    [.sd o.d, .ss o.a o.f, .ss o.b o.g]
  | .aluClz o | .aluCtz o | .aluPopc o | .aluBswap o | .aluMov o | .addrTag o | .addrOff o | .fpSqrt o | .fpAbs o | .fpNeg o
  | .ctlCallr o | .nmDeq o | .collRun o | .collStat o | .logReplay o | .lvlCancel o | .lvlStat o => [.sd o.d, .ss o.a o.f]
  | .sel o => [.sd o.d, .ss o.a o.f, .ss o.b o.g]
  | .prSet o => [.pd o.c, .ss o.a o.f]
  | .prGet o => [.sd o.d]
  | .prAnd o | .prOr o => [.pd o.c]
  | .prNot o => [.pd o.c]
  | .immLo o | .ctlCall o => [.sd o.d]
  | .aluAddi o | .aluAndi o => [.sd o.d, .ss o.a o.f]
  | .addrTagi o => [.sd o.d, .ss o.a o.f]
  | .ctlNop _ | .ctlEnd _ | .cpStage _ | .wlDone _ | .sysShinv _ | .trapRet _ => []
  | .ctlJr o | .ctlRet o | .ctlSetmpc o | .ownGive o | .ownTake o | .collAbort o | .logResume o | .sysFlushSplit o
  | .sysFlushL2 o | .sysFlushL2Clean o | .sysFlushL1 o | .trapRaise o => [.ss o.a o.f]
  | .ctlLoop o => [.ss o.a o.f]
  | .ctlKadd o => [.ss o.a o.f]
  | .ctlBr _ => []
  | .ctlWait o => [.ss o.b o.g]
  | .memLd o => sizedRole o.z true o.d ++ [.ss o.a 0]
  | .memSt o => sizedRole o.z false o.d ++ [.ss o.a 0]
  | .memLdxv o => [.vd o.d, .ss o.a o.f, .ss o.b o.g]
  | .memStxb o | .memStxh o | .memStxw o | .memStxd o => [.ss o.d 0, .ss o.a o.f, .ss o.b o.g]
  | .memStxv o => [.vs o.d 0, .ss o.a o.f, .ss o.b o.g]
  | .memDrain _ => []
  | .memPf o | .cpBatch o | .cpRread o | .wlPush o | .sysTinv o => [.ss o.a o.f, .ss o.b o.g]
  | .viewOpen o => [.ss o.a o.f]
  | .viewRetire _ => []
  | .viewSet o => [.ss o.a o.f]
  | .viewGet o => [.sd o.d]
  | .tenLd o => sizedRole o.z true o.d ++ [.ss o.a 0]
  | .tenSt o => sizedRole o.z false o.d ++ [.ss o.a 0]
  | .atomAdd o | .atomAnd o | .atomOr o | .atomXor o | .atomSmin o | .atomSmax o | .atomUmin o | .atomUmax o | .atomSwap o =>
    [.sd o.d, .ss o.d 0, .ss o.a 0]
  | .atomCas o => [.sd o.d, .ss o.d 0, .ss o.a 0, .ss o.c 0]
  | .monWait o => [.sd o.d, .ss o.d 0, .ss o.a 0]
  | .phWait o | .phSig o | .phDrop o => [.ss o.b o.g]
  | .phReg o => [.ss o.b o.g]
  | .phExpect o => [.ss o.b o.g]
  | .vecAdd o | .vecSub o | .vecMul o | .vecMin o | .vecMax o | .vecDiv o | .vecIadd o | .vecIsub o | .vecImul o
  | .vecAnd o | .vecOr o | .vecXor o | .vecShl o | .vecShr o | .vecSar o | .vecImin o | .vecImax o =>
    [.vd o.d, .vs o.a o.f, .vb o.b o.g]
  | .vecAbs o | .vecNeg o | .vecSqrt o | .vecSigm o | .vecExp2 o | .vecRcp o | .vecRsq o | .vecLog2 o | .vecTanh o | .vecMov o
  | .cvtE8 o => [.vd o.d, .vs o.a o.f]
  | .vecEq o | .vecNe o | .vecLt o | .vecLe o | .vecIeq o | .vecIlt o => [.pd o.c, .vs o.a o.f, .vb o.b o.g]
  | .vecRsum o | .vecRmax o | .vecRmin o => [.sd o.d, .vs o.a o.f]
  | .vecDotg o => [.sd o.d, .ss o.d 0, .vs o.a o.f, .vs (o.a + 1) o.f]
  | .vecBcast o => [.vd o.d, .ss o.a o.f]
  | .vecPerm o => [.vd o.d, .vs o.a o.f, .vs o.b o.g]
  | .vecSel o => [.vd o.d, .vs o.d 0, .vs o.a o.f]
  | .vecLane o => [.sd o.d, .vs o.a o.f]
  | .vecIns o => [.vd o.d, .vs o.d 0, .ss o.a o.f]
  | .accRd o | .accRdk o => [.vd o.d, .ss o.a o.f]
  | .cvtWid o | .cvtI2f o => [.vd o.d, .vs o.a o.f, .ss o.b o.g]
  | .cvtSf2i o | .cvtSi2f o => [.sd o.d, .ss o.a o.f]
  | .cvtSf2b o => [.sd o.d, .ss o.a o.f]
  | .matCall _ | .matDrain _ => []
  | .matSetp o => [.ss o.a o.f]
  | .matGetp o => [.sd o.d]
  | .matCfg o => [.ss o.a o.f]
  | .matPert o => [.ss o.a o.f, .ss o.b o.g]
  | .nmCas o => [.vd o.d, .ss o.a o.f, .vs o.b o.g]
  | .wlPop o => [.sd o.d]
  | .sysCsrr o => [.sd o.d]
  | .sysCsrw o => [.ss o.a o.f]
  | .bitIns o | .fpFma o => [.sd o.d, .ss o.d 0, .ss o.a o.f, .ss o.b o.g]
  | .immHi o => [.sd o.d, .ss o.d 0]
  | .atomFadd o | .atomFmin o | .atomFmax o => [.sd o.d, .ss o.d 0, .ss o.a 0]
  | .vecFma o => [.vd o.d, .vs o.d 0, .vs o.a o.f, .vb o.b o.g]
  | .cvtNar o | .cvtF2i o => [.vd o.d, .vs o.d 0, .vs o.a o.f, .ss o.b o.g]
  | _ => []

/-- The conditions of ctl.br (R240). -/
def branchCond (c : BitVec 6) : Bool := c == 0 || (8 ≤ c.toNat && c.toNat ≤ 15) || (24 ≤ c.toNat && c.toNat ≤ 31)

/-- Operand codes that are no register but have a range of their own (R240, R242, R246, R268, R282, R299). -/
def rangeOk : Instr → Bool
  | .ctlBr o => branchCond o.c
  | .ctlLoop o => o.d == 0 || o.d == 1
  | .ctlWait o => o.k.toNat < 16
  | .phWait o | .phSig o | .phDrop o => o.p.toNat < 48
  | .phReg o => o.p.toNat < 48
  | .phExpect o => o.p.toNat < 48
  | .vecDotg o => 48 ≤ o.a.toNat && o.a.toNat % 2 == 0
  | .matCall o => o.p.toNat < 48 || o.p == 63
  | _ => true

/-- SZ of an atomic or a monitored wait is w or d (R260, R264). -/
def wordSize (z : BitVec 3) : Bool := z == 2 || z == 3

/-- Is a cvt.sf2b's format, SAT and DIR in its table (R238)? -/
def sf2bOk (r q : BitVec 1) (t : BitVec 4) : Bool := (t.toNat ≤ 5 || t == 15) && !(r == 1 && q == 1)

/-- Formats of vec.dotg, FP16 included, which traps for emulation (R282). -/
def dotgFmt (t : BitVec 4) : Bool := t.toNat ≤ 5 || t == 7

/-- Modifier codes (R189 and the rows). -/
def modifiersOk : Instr → Bool
  | .memLd o => (sizeOf' o.z).isSome && (ordOf o.o true).isSome
  | .memSt o => (sizeOf' o.z).isSome && (ordOf o.o false).isSome
  | .tenLd o => (sizeOf' o.z).isSome && (ordOf o.o true).isSome
  | .tenSt o => (sizeOf' o.z).isSome && (ordOf o.o false).isSome
  | .atomAdd o | .atomAnd o | .atomOr o | .atomXor o | .atomSmin o | .atomSmax o | .atomUmin o | .atomUmax o | .atomSwap o =>
    wordSize o.z && (ordOf o.o false).isSome
  | .atomFadd o | .atomFmin o | .atomFmax o => (ordOf o.o false).isSome
  | .atomCas o => wordSize o.z && (ordOf o.o false).isSome
  | .monWait o => wordSize o.z && (ordOf o.o true).isSome && o.t.toNat ≤ 40
  | .phReg o => o.m != 0
  | .viewSet o => o.t.toNat < 6
  | .vecDotg o => dotgFmt o.t
  | .cvtSf2i o | .cvtSi2f o => isIntFmt o.t && o.r == 0 && o.q == 0
  | .cvtSf2b o => sf2bOk o.r o.q o.t
  | _ => true

/-- The operand or modifier check that a slot's fields fail, alone (R188, R189, R193). -/
def formFault (i : Instr) : Option Illegal :=
  if !((rolesOf i).all Role.ok && rangeOk i) then some .operand
  else if !modifiersOk i then some .modifier
  else none

/-- The named registers and predicates that a slot writes (R184, R230). -/
def writesOf (i : Instr) : List Nat := (rolesOf i).filterMap Role.write

/-- The slot classes (R191). -/
inductive SlotClass where
  | scalar | memory | vector | matrix | engine | control | wait | free
deriving DecidableEq, Repr

/-- The class of a slot by major and minor (R191). -/
def slotClass (maj min : Nat) : SlotClass :=
  if maj ≤ 0x0F || maj == 0x2D then .scalar
  else if maj == 0x1E || maj == 0x13 || (maj == 0x1F && min == 0) then .wait
  else if maj == 0x1F then .control
  else if (0x14 ≤ maj && maj ≤ 0x1D) || maj == 0x39 then .memory
  else if 0x20 ≤ maj && maj ≤ 0x2C then .vector
  else if maj == 0x30 || maj == 0x31 then .matrix
  else if maj == 0x38 || maj == 0x3A || maj == 0x3B then .engine
  else if maj == 0x10 && min == 0 then .free
  else .control

/-- The class of an instruction (R191). -/
def classOf (i : Instr) : SlotClass :=
  match i.fields with
  | some f => slotClass f.maj.toNat f.min.toNat
  | none => .free

/-- How many slots of a class a bundle may hold (R191). -/
def classLimit : SlotClass → Nat
  | .scalar => 4
  | .memory => 2
  | .vector => 2
  | .free => 8
  | _ => 1

/-- No class is beyond its limit (R191). -/
def classesOk (cs : List SlotClass) : Bool := cs.all fun c => cs.count c ≤ classLimit c

end Sys2Proof.Machine
end

