-- ==== Sys2Proof/Machine/Memory.lean ====
section
/-! DEFINITION. What an access does at its point of coherence (R115 to R117): bytes, the L1 (R63), the tags of L2 and LLC
(R65 to R67), mailbox captures (R170), monitors (R265), and full/empty lines and owner bits (R132 to R139). -/
namespace Sys2Proof.Machine

/-- Wake the monitors armed on a line with a cause, unless they have been woken (R264, R265). -/
def wakeMonitors (s : State) (line cause : Nat) : State :=
  { s with ctxs := s.ctxs.map fun (k, c) =>
      match c.monitor with
      | some m => if m.line == line && m.woken.isNone then (k, { c with monitor := some { m with woken := some cause } }) else (k, c)
      | none => (k, c) }

/-- Queue a value in a mailbox; the seventeenth is lost (R170). -/
def capture (s : State) (die n : Nat) (v : W64) : State :=
  let key := die * 64 + n
  let q := (tget s.mailboxes key).getD []
  if q.length < 16 then { s with mailboxes := tset s.mailboxes key (q ++ [v]) }
  else
    let off := 0xC000 + 32 * n + 16
    let w := s.mmioWord die off
    s.setMmio die off (setFld (setFld w 13 1 1) 32 32 (fld w 32 32 + 1))

/-- A completion that names a mailbox is captured while EN = 1 (R170, R323). -/
def captureEvent (s : State) (die n : Nat) (v : W64) : State :=
  if (s.mmioWord die (0xC000 + 32 * n)).getLsbD 0 then capture s die n v else s

/-- The mailboxes whose registered word a write of `n` bytes at a physical address touches, with the word (R169). -/
def mailboxesAt (s : State) (key n : Nat) : List (Nat × Nat × Nat) :=
  s.mmio.filterMap fun (mk, w) =>
    let off := mk % 2 ^ 32
    let a := fld w 3 45 * 8
    if 0xC000 ≤ off && off < 0xC800 && off % 32 == 0 && w.getLsbD 0 && key < a + 8 && a < key + n then
      some (mk / 2 ^ 32, (off - 0xC000) / 32, a)
    else none

/-- Capture a write in every mailbox that registers it (R170). -/
def captureWrites (s : State) (key n : Nat) : State :=
  (mailboxesAt s key n).foldl (fun s (d, i, a) => capture s d i (BitVec.ofNat 64 (memRead s.mem a 8))) s

/-- A write of `n` bytes performs at the point of coherence (R115, R170, R265). -/
def performWrite (s : State) (key n v : Nat) : State :=
  let s := { s with mem := memWrite s.mem key v n }
  (linesOf key n).foldl (fun s l => wakeMonitors s l 1) (captureWrites s key n)

/-- A read of `n` bytes at the point of coherence. -/
def performRead (s : State) (key n : Nat) : Nat := memRead s.mem key n

/-- Write `n` bits at bit `bit` of the bytes from `key`; the other bits keep their values (R106). -/
def performBits (s : State) (key bytes bit n v : Nat) : State :=
  if bit == 0 && n == 8 * bytes then performWrite s key bytes v
  else
    let old := memRead s.mem key bytes
    let mask := (2 ^ n - 1) <<< bit
    performWrite s key bytes ((old &&& (2 ^ (8 * bytes) - 1 - mask)) ||| ((v % 2 ^ n) <<< bit))

/-- Is the line of a key empty (R132)? -/
def lineEmpty (s : State) (key : Nat) : Bool := s.emptyLines.contains (lineOf key)

/-- Is the tile of a key on the engine side (R132)? -/
def engineSide (s : State) (key : Nat) : Bool := s.engineTiles.contains (tileOf key)

/-- The lines of a tile. -/
def tileLines (tile : Nat) : List Nat := (List.range 32).map (tile * 32 + ·)

/-- Move a tile to the thread side with every line full (R135, R147). -/
def takeTile (s : State) (tile : Nat) : State :=
  { s with engineTiles := serase s.engineTiles tile, emptyLines := seraseAll s.emptyLines (tileLines tile) }

/-- Move a tile to the engine side (R134). -/
def giveTile (s : State) (tile : Nat) : State := { s with engineTiles := sinsert s.engineTiles tile }

/-- Set lines empty, or full (R137). -/
def setEmpty (s : State) (lines : List Nat) : State := { s with emptyLines := sinsertAll s.emptyLines lines }
/-- Set lines full (R137). -/
def setFull (s : State) (lines : List Nat) : State := { s with emptyLines := seraseAll s.emptyLines lines }

/-- The L1 line that a virtual address hits (R63). -/
def l1Find (s : State) (core asid va : Nat) : Option L1Line :=
  (s.core core).l1.find? fun l => l.asid == asid && l.line == va / 128

/-- A line of an L1 is used: it becomes the most recent (R63). -/
def l1Touch (s : State) (core asid va : Nat) : State :=
  match l1Find s core asid va with
  | none => s
  | some l =>
    let c := s.core core
    s.setCore core { c with l1 := l :: c.l1.filter fun x => !(x.asid == asid && x.line == va / 128) }

/-- Fill a line into an L1: 8 ways in a set chosen by VA bits 14:7. Pseudo-LRU: a line of the seven that are not the most
recent leaves; which of them is the device's choice (R63). DESIGN CHOICE, log 6. -/
def l1Fill (s : State) (core asid va : Nat) (data : BitVec 1024) : State :=
  let c := s.core core
  let rest := c.l1.filter fun l => !(l.asid == asid && l.line == va / 128)
  let mine := rest.filter fun l => l.line % 256 == va / 128 % 256
  let rest := if mine.length < 8 then rest
    else match (mine.drop 1)[Sys2Proof.Config.victim s.free % 7]? with
      | some v => rest.filter (· != v)
      | none => rest
  { s.setCore core { c with l1 := ⟨asid, va / 128, data⟩ :: rest } with free := s.free + 1 }

/-- A store of `n` bits at bit `bit` of a virtual address updates a matching L1 line (R63, R113). -/
def l1Store (s : State) (core asid va bit n v : Nat) : State :=
  let pos := 8 * (va % 128) + bit
  let mask : BitVec 1024 := BitVec.ofNat 1024 ((2 ^ n - 1) <<< pos)
  let upd (l : L1Line) : L1Line :=
    if l.asid == asid && l.line == va / 128 then { l with data := (l.data &&& ~~~mask) ||| BitVec.ofNat 1024 ((v % 2 ^ n) <<< pos) } else l
  let s := l1Touch s core asid va
  let c := s.core core
  if c.l1.isEmpty then s else s.setCore core { c with l1 := c.l1.map upd }

/-- A store between its column's L2 boundary and its point of coherence touches one of `n` bytes from a key (R116). -/
def Fwd.meets (f : Fwd) (key n : Nat) : Bool := f.key < key + n && key < f.key + f.bytes

/-- Some such store of a core touches these bytes. -/
def fwdMeets (s : State) (core key n : Nat) : Bool := (s.core core).fwd.any (·.meets key n)

/-- `n` bytes from a key with the bits of one forwarded store. -/
def Fwd.over (f : Fwd) (key n v : Nat) : Nat :=
  let at' := 8 * f.key + f.bit
  let m := (2 ^ f.bits - 1) <<< at' >>> (8 * key) % 2 ^ (8 * n)
  (v &&& (2 ^ (8 * n) - 1 - m)) ||| (f.value <<< at' >>> (8 * key) % 2 ^ (8 * n))

/-- What a load of a core reads: memory, and over it the stores forwarded at the core's L2 boundary (R113, R116). -/
def coreRead (s : State) (core key n : Nat) : Nat :=
  ((s.core core).fwd.filter (·.meets key n)).foldl (fun v f => f.over key n v) (performRead s key n)

/-- The bits of a forwarded store have reached their point of coherence. -/
def dropFwd (s : State) (k id lo : Nat) : State :=
  let c := s.core (k / 4)
  s.setCore (k / 4) { c with fwd := c.fwd.filter fun f => !(f.k == k && f.id == id && f.lo == lo) }

/-- Invalidate the L1 lines of an ASID in a range of addresses on one core (R72, R123, R341). -/
def l1Invalidate (s : State) (core asid first last : Nat) : State :=
  let c := s.core core
  if c.l1.isEmpty then s
  else s.setCore core
    { c with l1 := c.l1.filter fun l => !(l.asid == asid && first < (l.line + 1) * 128 && l.line * 128 ≤ last) }

/-- An acquire at die scope or wider invalidates the L1 lines of the unit's ASID (R113, R123). -/
def acquireL1 (s : State) (core asid scope : Nat) : State :=
  if scope == 0 then s else l1Invalidate s core asid 0 (2 ^ 48)

/-- An L2 or LLC line stops being tracked at its point of coherence: monitors on it wake with EVICT (R265). -/
def evictLine (s : State) (line : Nat) : State := wakeMonitors s line 2

/-- Drop every other column's copy of an LPDDR-6 line (R67). -/
def dropOthers (s : State) (line : Nat) (keep : Option Nat) : State :=
  { s with l2 := s.l2.filter fun l => !(l.line == line && some l.column != keep) }

/-- A modified copy of an LPDDR-6 line stands in the L2 of a column other than `keep` (R67). -/
def modifiedElsewhere (s : State) (line : Nat) (keep : Option Nat) : Bool :=
  s.l2.any fun l => l.line == line && some l.column != keep && l.dirty

/-- The LLC line of a line, marked dirty: a modified L2 copy has been written back to its home slice (R67). -/
def llcDirty (s : State) (line : Nat) : State :=
  { s with llc := s.llc.map fun l => if l.line == line then { l with dirty := true } else l }

/-- An L2 line that leaves its slice: it is written back, and its point of coherence no longer tracks it (R65, R67, R265). -/
def l2Gone (s : State) (l : L2Line) : State :=
  evictLine (if l.dirty && isLpddr (l.line * 128) then llcDirty s l.line else s) l.line

/-- Insert an L2 line, or use it: a slice has 2,048 sets of SPLIT ways, replaced in LRU order; `stream` inserts a line that
is not there in the LRU position (R17, R65). -/
def l2Insert (s : State) (column line : Nat) (stream : Bool) (st : LineState) (dirty : Bool) : State :=
  if s.split column == 0 then s
  else
    let slice := line % 4
    match s.l2.find? fun l => l.column == column && l.line == line with
    | some o =>
      let rest := s.l2.filter fun l => !(l.column == column && l.line == line)
      { s with l2 := { o with state := if o.state == .modified then .modified else st, dirty := o.dirty || dirty } :: rest }
    | none =>
      let mine := s.l2.filter fun l => l.column == column && l.slice == slice && l.line / 4 % 2048 == line / 4 % 2048
      let s := if mine.length < s.split column then s
        else match mine.getLast? with
          | some v => l2Gone { s with l2 := s.l2.filter (· != v) } v
          | none => s
      let new : L2Line := ⟨column, slice, line, st, dirty⟩
      { s with l2 := if stream then s.l2 ++ [new] else new :: s.l2 }

/-- The home LLC slice of a physical address, as die × 256 + column × 4 + vault (R66). -/
def homeSlice (pa : Nat) : Nat := bits pa 7 10 ^^^ bits pa 17 10

/-- Lines of an LLC slice of 1 MiB (R54). -/
def llcLines : Nat := 8192

/-- The LLC evicts a line: every L2 copy goes first (R67), and monitors on it wake (R265). -/
def llcEvict (s : State) (line : Nat) : State :=
  if s.llc.any (·.line == line) then
    evictLine { dropOthers s line none with llc := s.llc.filter (·.line != line) } line
  else s

/-- Put a line into its home slice of the LLC, or use it; a full slice evicts a line of the device's choice first (R54,
R66, R67). DESIGN CHOICE, log 6. -/
def llcPut (s : State) (line : Nat) (sharers : Option (List Nat)) (dirty : Bool) : State :=
  let slice := homeSlice (line * 128)
  let old := s.llc.find? (·.line == line)
  let s := if old.isSome then s
    else
      let mine := s.llc.filter (·.slice == slice)
      if mine.length < llcLines then s
      else match mine[Sys2Proof.Config.victim s.free % llcLines]? with
        | some v => { llcEvict s v.line with free := s.free + 1 }
        | none => s
  { s with llc := ⟨slice, line, sharers, dirty || (old.map (·.dirty)).getD false⟩ :: s.llc.filter (·.line != line) }

/-- The sharers of an LLC line after a column is added: at most four, then OVERFLOW (R67). -/
def addSharer (sh : Option (List Nat)) (column : Nat) : Option (List Nat) :=
  match sh with
  | none => none
  | some l => if l.contains column then some l else if l.length < 4 then some (l ++ [column]) else none

/-- The sharers that the LLC knows of a line (R67). -/
def sharersOf (s : State) (line : Nat) : Option (List Nat) := ((s.llc.find? (·.line == line)).map (·.sharers)).getD (some [])

/-- A column writes an LPDDR-6 line: its L2 holds it modified and no other holds it; with SPLIT 0 the LLC takes the write
(R65, R67). -/
def lpddrWrite (s : State) (column line : Nat) (stream : Bool) : State :=
  let own := s.split column != 0
  let was := modifiedElsewhere s line (some column)
  let s := llcPut (dropOthers s line (some column)) line (some (if own then [column] else [])) (was || !own)
  l2Insert s column line stream .modified true

/-- A column reads an LPDDR-6 line: it becomes a sharer, and a modified copy elsewhere is written back (R67). -/
def lpddrRead (s : State) (column line : Nat) (stream : Bool) : State :=
  let was := modifiedElsewhere s line (some column)
  let sh := sharersOf s line
  let s := llcPut s line (if s.split column == 0 then sh else addSharer sh column) was
  let s := { s with l2 := s.l2.map fun (l : L2Line) =>
      if l.line == line && l.column != column then { l with state := LineState.shared, dirty := false } else l }
  l2Insert s column line stream .shared false

/-- The cache tags after a load or a store of a column meets a physical address (R18, R56, R65, R66, R67). -/
def touchCaches (s : State) (column key : Nat) (write stream : Bool) : State :=
  let line := lineOf key
  if isSp key then s
  else if isDram key then l2Insert s (dramCore key) line stream (if write then .modified else .shared) write
  else if write then lpddrWrite s column line stream
  else lpddrRead s column line stream

/-- The tags of a line after a write of the host, a peer or an engine of the package: a vault's line stands in its home
column's L2 (R56), an LPDDR-6 line in its home LLC slice alone (R67, R129). DESIGN CHOICE, log 113. -/
def touchLine (s : State) (line : Nat) : State :=
  let key := line * 128
  if isSp key then s
  else if isDram key then l2Insert s (dramCore key) line false .modified true
  else llcPut (dropOthers s line none) line (some []) true

/-- The tags after a host, peer or engine write (R56, R67, R129). -/
def touchExternal (s : State) (key n : Nat) : State := (linesOf key n).foldl touchLine s

/-- The tags after a read of the host, a peer or an engine: a vault's line comes into its home column's L2 (R56), an
LPDDR-6 line into its home LLC slice, with a modified copy written back (R67). DESIGN CHOICE, log 113. -/
def touchRead (s : State) (key n : Nat) : State :=
  (linesOf key n).foldl (fun s line =>
    if isSp (line * 128) then s
    else if isDram (line * 128) then l2Insert s (dramCore (line * 128)) line false .shared false
    else
      let was := modifiedElsewhere s line none
      llcPut { s with l2 := s.l2.map fun l => if l.line == line then { l with state := .shared, dirty := false } else l }
        line (sharersOf s line) was) s

/-- A read of `n` bytes by the host, a peer or an engine: the value at the point of coherence, and the tags (R56, R115). -/
def externalRead (s : State) (key n : Nat) : Nat × State := (performRead s key n, touchRead s key n)

/-- The first line of `n` bytes from a key that holds an uncorrectable error (R388, R397). -/
def badLine? (s : State) (key n : Nat) : Option Nat :=
  if s.badLines.isEmpty then none else (linesOf key n).find? s.badLines.contains

/-- The host answers an access to these bytes with an error (R32). -/
def hostFails (s : State) (addr n : Nat) : Bool := s.hostBad.any fun a => addr ≤ a && a < addr + n

/-- The walk of R68 on this memory; the read of a table may meet an uncorrectable error (R388, R397). DEDUCED, log 58. -/
def walkNow (s : State) (root va : Nat) (write : Bool) : WalkResult :=
  match (walkReads s.mem va root 0 4).findSome? (badLine? s · 8) with
  | some l => .bad l
  | none => walk s.mem root va write

/-- The walk of R68, whose reads of the tables pass through the caches for a column. -/
def walkThrough (s : State) (column root va : Nat) (write : Bool) : WalkResult × State :=
  (walkNow s root va write, (walkReads s.mem va root 0 4).foldl (fun s a => touchCaches s column a false false) s)

/-- A write of an engine, the host or a peer (R115, R129, R137). -/
def externalWrite (s : State) (key n v : Nat) : State := performWrite (touchExternal s key n) key n v

/-- Write an event value to the registered word of a mailbox, where it is captured (R170, R384, R394). -/
def mailboxPost (s : State) (die n : Nat) (v : W64) : State :=
  let key := fld (s.mmioWord die (0xC000 + 32 * n)) 3 45 * 8
  if populated key then externalWrite s key 8 v.toNat else s

end Sys2Proof.Machine
end

