-- ==== Sys2Proof/Machine/Phasers.lean ====
section
/-! DEFINITION. Phaser slots (R267 to R274): completion of a phase, signals of members and of engines, registering and
dropping, and the return of an idle slot to its reset state. -/
namespace Sys2Proof.Machine

/-- Is a member of a mode that signals (R268)? -/
def Member.signals (m : Member) : Bool := m.mode == 1 || m.mode == 3
/-- Is a member of a mode that waits (R268)? -/
def Member.waits (m : Member) : Bool := m.mode == 2 || m.mode == 3

/-- The slot is quiet (R267). -/
def Phaser.quiet (p : Phaser) : Bool := p.arr == 0 && p.pend == 0 && !p.expd

/-- NSIG of a list of members: active, or leaving, members of a signalling mode (R267, R269). -/
def countSignallers (ms : List Member) : Nat :=
  (ms.filter fun m => m.signals && (m.state == .active || m.state == .leaving)).length

/-- The phase completes where its conditions hold, and the next one opens (R269); signals that joining members held
count in it. -/
def Phaser.complete (p : Phaser) : Phaser :=
  if p.pend == 0 && p.arr == p.nsig && (0 < p.nsig || p.expd) then
    let ms := (p.members.filter fun m => m.state == .active || m.state == .joining).map fun m =>
      if m.state == .joining then { m with state := .active, sigd := m.held, held := false } else { m with sigd := false }
    { p with phase := (p.phase + 1) % 65536, arr := (ms.filter (·.sigd)).length, expd := false, nsig := countSignallers ms, members := ms }
  else p

/-- Completions one after another: a phase that opens with its signals already there completes as well (R269). -/
def Phaser.settle (p : Phaser) : Nat → Phaser
  | 0 => p
  | n + 1 =>
    let q := p.complete
    if q == p then p else q.settle n

/-- Is a context a member? -/
def Phaser.member? (p : Phaser) (core ctx : Nat) : Option Member := p.members.find? fun m => m.core == core && m.ctx == ctx

/-- Change a context's membership. -/
def Phaser.update (p : Phaser) (core ctx : Nat) (f : Member → Member) : Phaser :=
  { p with members := p.members.map fun m => if m.core == core && m.ctx == ctx then f m else m }

/-- The member has not become active yet (R270). -/
def Member.waitsToJoin (m : Member) : Bool := m.state == .joining || m.state == .quitting

/-- Count a member's signal (R271): a joining member's is held. -/
def Phaser.countSignal (p : Phaser) (core ctx : Nat) : Phaser :=
  match p.member? core ctx with
  | none => p
  | some m =>
    if m.waitsToJoin then p.update core ctx fun m => { m with held := true, pending := false }
    else Phaser.settle { p.update core ctx (fun m => { m with sigd := true, pending := false }) with arr := p.arr + 1 } 4

/-- An engine signal (R141, R269). DEDUCED, log 49. -/
def Phaser.engineSignal (p : Phaser) : Phaser :=
  if p.pend == 0 then { p with credit := min (p.credit + 1) 65535 }
  else Phaser.settle { p with pend := p.pend - 1 } 4

/-- `ph.reg` (R270). -/
def Phaser.register (p : Phaser) (core ctx mode : Nat) : Phaser :=
  if p.quiet then
    let ms := p.members ++ [⟨core, ctx, mode, false, false, false, p.phase, .active⟩]
    { p with members := ms, nsig := countSignallers ms }
  else { p with members := p.members ++ [⟨core, ctx, mode, false, false, false, (p.phase + 1) % 65536, .joining⟩] }

/-- Does a drop by this member count as its signal (R270)? -/
def Phaser.dropCounts (p : Phaser) (core ctx : Nat) : Bool :=
  match p.member? core ctx with
  | some m => m.state == .active && !p.quiet && m.signals && !m.sigd
  | none => false

/-- `ph.drop` (R270). A joining member goes at the next completion without becoming active; until then it is a member of its
mode. -/
def Phaser.dropMember (p : Phaser) (core ctx : Nat) : Phaser :=
  match p.member? core ctx with
  | none => p
  | some m =>
    if m.waitsToJoin then p.update core ctx fun m => { m with state := .quitting, held := false }
    else if p.quiet then
      let ms := p.members.filter fun m => !(m.core == core && m.ctx == ctx)
      { p with members := ms, nsig := countSignallers ms }
    else if m.signals && !m.sigd then
      Phaser.settle { p.update core ctx (fun m => { m with state := .leaving, sigd := true, pending := false }) with arr := p.arr + 1 } 4
    else p.update core ctx fun m => { m with state := .leaving }

/-- `ph.expect` (R273); none where PEND would pass 65,535. -/
def Phaser.expect (p : Phaser) (count : Nat) : Option Phaser :=
  let t := count - min count p.credit
  if p.pend + t > 65535 then none
  else some (Phaser.settle { p with credit := p.credit - (count - t), pend := p.pend + t, expd := true } 4)

/-- Has phase `p` of a slot at PHASE completed (R272, R300)? -/
def phaseDone (phase p : Nat) : Bool :=
  let d := (phase + 65536 - p % 65536) % 65536
  1 ≤ d && d ≤ 32767

/-- Does an accepted matrix call or a collective wait step record a phase of the slot (R267)? -/
def phaseRecorded (s : State) (core slot : Nat) : Bool :=
  (s.engines.any fun (e, x) => e / 2 == core && x.queue.any fun c => c.ph == slot)
    || (s.savedCalls.any fun v => v.engine / 2 == core && (v.call :: v.kept).any fun c => c.ph == slot && !c.stop)
    || s.runs.any fun r => r.core == core && r.phase.any (·.1 == slot)

/-- The leaving members that a slot has lost and that are blocked on a phase which has completed: their waits are satisfied
(R269 step 4). -/
def satisfyLeft (s : State) (core slot : Nat) (p : Phaser) : State :=
  ((s.phaser core slot).members.filter fun m => m.state == .leaving && (p.member? m.core m.ctx).isNone).foldl (fun s m =>
    let k := m.core * 4 + m.ctx
    if m.ctx < 4 && (s.ctx k).wait == some (.block (.phase core slot m.local')) && phaseDone p.phase m.local'
    then s.setCtx k { s.ctx k with wait := some (.block (.passed core slot)) } else s) s

/-- Put a slot back, in its reset state once it has no member, is quiet and no phase of it is recorded (R267). -/
def State.putPhaser (s : State) (core slot : Nat) (p : Phaser) : State :=
  let s := satisfyLeft s core slot p
  if p.members.isEmpty && p.quiet && !phaseRecorded s core slot then
    let c := s.core core
    s.setCore core { c with phasers := terase c.phasers slot }
  else s.setPhaser core slot p

/-- A call or a wait step that recorded a phase of a slot is gone: the slot may return to its reset state (R267). -/
def State.releasePhase (s : State) (core slot : Nat) : State :=
  if 48 ≤ slot then s else s.putPhaser core slot (s.phaser core slot)

/-- An engine signals a slot of a core; 63 names none (R141). A credit banked in a slot that was quiet already resets
nothing (R267). -/
def engineSignal (s : State) (core slot : Nat) : State :=
  if 48 ≤ slot then s
  else if (s.phaser core slot).pend == 0 then s.setPhaser core slot (s.phaser core slot).engineSignal
  else s.putPhaser core slot (s.phaser core slot).engineSignal

/-- Every slot a context is a member of. -/
def memberships (s : State) (core ctx : Nat) : List (Nat × Nat) :=
  s.cores.flatMap fun (n, c) => c.phasers.filterMap fun (i, p) => if (p.member? core ctx).isSome then some (n, i) else none

/-- Add an entry to a unit's pending list (R102, R104). -/
def addPend (s : State) (k : Nat) (kind : PendKind) : State :=
  let (id, s) := s.fresh
  let c := s.ctx k
  s.setCtx k { c with pend := c.pend ++ [⟨id, c.bundleNo, kind⟩] }

/-- A signal or drop of the context on a slot has committed and is still to act (R271). -/
def slotBusy (c : Ctx) (core slot : Nat) : Bool := c.pend.any fun p => match p.kind with
  | .release _ (.signal n i _) => n == core && i == slot
  | _ => false

/-- A drop of a slot of a core by context `k` (R270, R271): one that counts as a signal, or that follows a signal still to
be counted, acts in its turn; any other acts at once. -/
def dropSlot (s : State) (k core slot scope : Nat) : State :=
  let p := s.phaser core slot
  if slotBusy (s.ctx k) core slot then addPend s k (.release scope (.signal core slot true))
  else if p.dropCounts (k / 4) (k % 4) then
    addPend (s.setPhaser core slot (p.update (k / 4) (k % 4) fun m => { m with pending := true })) k (.release scope (.signal core slot true))
  else s.putPhaser core slot (p.dropMember (k / 4) (k % 4))

/-- The memberships of a context that stops are dropped, each as `ph.drop` at sys would (R270). -/
def dropInTurn (s : State) (k : Nat) : State :=
  (memberships s (k / 4) (k % 4)).foldl (fun s (n, i) => dropSlot s k n i 3) s

/-- Drop every membership that a saved unit left (R270, R400). -/
def dropAll (s : State) (core ctx : Nat) : State :=
  (memberships s core ctx).foldl (fun s (n, i) => s.putPhaser n i ((s.phaser n i).dropMember core ctx)) s

end Sys2Proof.Machine
end

