-- ==== Sys2Proof/Machine/Order.lean ====
section
/-! DEFINITION. When a committed access, release or drain of a unit may perform: the unit's own order (R48, R49), bundle and
local order (R102, R104), strong and own-column stores (R118, R119), releases, acquires and drains (R121 to R127,
R255). Nothing else orders accesses of one unit, so the agenda may perform them in any order these rules leave open. An access
of several pieces performs them in the order of its list: the elements of a vector tensor access, each an access of its own
(R259), in ascending order. DESIGN CHOICE, log 90. -/
namespace Sys2Proof.Machine

/-- Does the operation write (an atomic always counts as a store, R263)? -/
def opWrites : MemOp → Bool
  | .load => false
  | .nmChase _ _ => false
  | _ => true

/-- Does the operation read? -/
def opReads : MemOp → Bool
  | .store => false
  | _ => true

/-- The memory that a place lies in: 0 scratchpad, 1 DRAM vault, 2 LPDDR-6, 3 PEER, 4 HOST, 5 MMIO, 6 none, 7 a line of
the L1 alone. -/
def Place.kind : Place → Nat
  | .mem key => if isSp key then 0 else if isDram key then 1 else 2
  | .va _ key => if isDram key then 1 else 2
  | .bound _ key => if isDram key then 1 else 2
  | .untranslated _ => 7
  | .cached _ => 7
  | .peer _ _ => 3
  | .host _ => 4
  | .mmio _ _ => 5
  | .outside => 6

/-- A place as a number within its memory. -/
def Place.pos : Place → Nat
  | .mem key => key
  | .va _ key => key
  | .bound _ key => key
  | .untranslated x => x
  | .cached x => x
  | .peer d off => d * 2 ^ 44 + off
  | .host a => a
  | .mmio d off => d * 2 ^ 32 + off
  | .outside => 0

/-- The virtual address of a place. -/
def Place.va? : Place → Option Nat
  | .va x _ => some x
  | .bound x _ => some x
  | .untranslated x => some x
  | .cached x => some x
  | _ => none

/-- Two ranges of bytes meet. -/
def rangesMeet (a n b m : Nat) : Bool := a < b + m && b < a + n

/-- Two pieces touch a common byte (R49): of one memory, or, where one stands in the L1 alone, of one virtual address. -/
def Piece.overlap (p q : Piece) : Bool :=
  (p.place.kind == q.place.kind && p.place.kind != 6 && rangesMeet p.place.pos p.bytes q.place.pos q.bytes)
    || match p.place.va?, q.place.va? with
      | some x, some y => (p.place.kind == 7 || q.place.kind == 7) && rangesMeet x p.bytes y q.bytes
      | _, _ => false

/-- The memory kind of a resolved byte, and its number in it (R48): a VA counts by its virtual address. -/
def Place.window (p : Place) : Nat × Nat :=
  match p.va? with
  | some x => (7, x)
  | none => (p.kind, p.pos)

/-- Lowest and highest byte of pieces, per kind (R48). -/
def windowOf (ps : List Piece) (kind : Nat) : Option (Nat × Nat) :=
  (ps.filter fun p => p.place.window.1 == kind).foldl (fun w p =>
    let x := p.place.window.2
    match w with
    | none => some (x, x + p.bytes)
    | some (lo, hi) => some (min lo x, max hi (x + p.bytes))) none

/-- A piece falls inside the window of others of its kind (R49). -/
def inWindow (ps : List Piece) (p : Piece) : Bool :=
  match windowOf ps p.place.window.1 with
  | some (lo, hi) => p.place.kind != 6 && p.place.window.2 < hi && lo < p.place.window.2 + p.bytes
  | none => false

/-- The accesses of a pending list, with their bundles. -/
def accessesOf (ps : List Pend) : List (Nat × Access) :=
  ps.filterMap fun p => match p.kind with
    | .access a => some (p.bundle, a)
    | _ => none

/-- The pending writes made through a directory entry (R48, R50). -/
def entryWrites (ps : List Pend) (i : Nat) : List Access :=
  ((accessesOf ps).map (·.2)).filter fun a => opWrites a.op && a.entry == some i

/-- The lowest and highest resolved byte of a directory entry's pending writes, per memory kind (R48). -/
def entryWindow (ps : List Pend) (i kind : Nat) : Option (Nat × Nat) := windowOf ((entryWrites ps i).flatMap (·.pieces)) kind

/-- The tensor coordinates of the elements that an access through a view has still to perform (R44). -/
def Access.coords (a : Access) : List (List Int) :=
  match a.foot with
  | some (v, d) => a.pieces.map fun p =>
      viewCoords v (dRank d) [fld a.index 0 16 + p.lo / elemBits (dFmt d), fld a.index 16 16, fld a.index 32 16, fld a.index 48 16]
  | none => []

/-- The bounding box of coordinates: lowest and highest along each dimension. -/
def boxOf : List (List Int) → Option (List (Int × Int))
  | [] => none
  | c :: cs => some (cs.foldl (fun b x => b.zipWith (fun r y => (min r.1 y, max r.2 y)) x) (c.map fun y => (y, y)))

/-- The bounding box of a directory entry's pending writes (R48); none where none is pending. -/
def entryBox (ps : List Pend) (i : Nat) : Option (List (Int × Int)) := boxOf ((entryWrites ps i).flatMap Access.coords)

/-- The pieces of a write with those of the window or directory entry to which it belongs: for one through a view the pending
writes of its entry, for a plain store the pending plain stores (R48). -/
def hullOf (earlier : List Pend) (x : Access) : List Piece :=
  x.pieces ++
    match x.entry with
    | some i => (entryWrites earlier i).flatMap (·.pieces)
    | none =>
      if x.foot.isSome then []
      else (accessesOf earlier).flatMap fun (_, y) => if opWrites y.op && y.foot.isNone then y.pieces else []

/-- Can a piece of a later access meet an earlier pending access (R49)? A window is that of writes: a read has its resolved
bytes alone (R48). -/
def mayMeet (earlier : List Pend) (e a : Access) (q : Piece) : Bool :=
  match e.foot, a.foot with
  | some (v, d), some (v', d') => viewsMeet v d v' d'
  | none, none => e.pieces.any fun p => p.overlap q
  | _, _ => e.pieces.any (fun p => p.overlap q) || (opWrites e.op && inWindow (hullOf earlier e) q)
      || (opWrites a.op && e.pieces.any (inWindow (hullOf earlier a)))

/-- An agent's operation on nodes that the packet does not name (R328, R329). -/
def walksNodes : MemOp → Bool
  | .nmEnq _ => true
  | .nmDeq => true
  | .nmChase _ _ => true
  | _ => false

/-- Two accesses of which one walks the nodes of a vault in which the other has a byte: they may meet (R49, R148).
DESIGN CHOICE, log 35. -/
def sameVault (e a : Access) (q : Piece) : Bool :=
  (walksNodes e.op || walksNodes a.op)
    && e.pieces.any fun p => p.place.kind == 1 && q.place.kind == 1 && dramCore p.place.pos == dramCore q.place.pos

/-- Is every piece local to a column (R103)? -/
def Access.isLocal (core : Nat) (a : Access) : Bool :=
  a.pieces.all fun p => match p.place with
    | .mem key => isSp key && spCore key == core
    | _ => false

/-- Does a piece lie in the own column's memory (R119)? -/
def ownColumn (core : Nat) (p : Piece) : Bool :=
  if p.place.kind == 0 then spCore p.place.pos == core else p.place.kind == 1 && dramCore p.place.pos == core

/-- Does a piece lie in the own column's scratchpad (R103)? -/
def ownLocal (core : Nat) (p : Piece) : Bool := p.place.kind == 0 && spCore p.place.pos == core

/-- Does a piece leave the device (R127)? -/
def offDevice (p : Piece) : Bool := p.place.kind == 3 || p.place.kind == 4

/-- Every piece leaves the device. -/
def Access.off (a : Access) : Bool := a.pieces.all offDevice && !a.pieces.isEmpty

/-- A piece of a VA store that has performed at core scope alone (R116). -/
def isBound (p : Piece) : Bool := match p.place with
  | .bound _ _ => true
  | _ => false

/-- A VA store that has performed at core scope (R116). -/
def Access.atCore (a : Access) : Bool := a.op == .store && a.pieces.all isBound

/-- A piece of a VA store that is still to pass its column's L2 boundary (R116). -/
def crosses (a : Access) (q : Piece) : Bool := a.op == .store && match q.place with
  | .va _ _ => true
  | _ => false

/-- A strong store waits for an earlier one (R118): it performs at its own scope once the other has performed at its, and the
points of coherence see both in program order. Strong VA stores pass the L2 boundary in program order, too. DESIGN CHOICE,
log 105. -/
def strongHolds (e a : Access) (q : Piece) : Bool :=
  e.strong.isSome && a.strong.isSome && !e.off && !offDevice q
    && !(crosses a q && e.atCore && (a.strong != some 0 || e.strong == some 0))

/-- An earlier access of the unit, of bundle `b`, holds back the next piece of a later one, of bundle `b'`: within the
bundle (R102), where they can meet (R49), loads of one byte (R117), local accesses (R104), strong stores (R118), stores to
the own column (R119), after an acquire (R123, R127). A store that has performed at core scope is forwarded to loads, and
lets a later one follow to the L2 boundary (R116). -/
def holdsBack (core : Nat) (earlier : List Pend) (b : Nat) (e : Access) (b' : Nat) (a : Access) (q : Piece) : Bool :=
  let follows := e.atCore && (crosses a q || a.op == .load)
  (b == b' && (opWrites a.op || walksNodes a.op) && !follows)
    || ((opWrites e.op || opWrites a.op) && !follows && (mayMeet earlier e a q || sameVault e a q) && (b != b' || opWrites a.op))
    || (b != b' && opReads e.op && opReads a.op && q.place.kind != 7 && e.pieces.any fun p => p.place.kind != 7 && p.overlap q)
    || (b != b' && e.pieces.any (ownLocal core) && ownLocal core q)
    || (opWrites e.op && opWrites a.op && strongHolds e a q)
    || (opWrites e.op && opWrites a.op && !follows && e.pieces.any (ownColumn core) && ownColumn core q)
    || (b != b' && e.acquire && !e.off && !offDevice q)

/-- The part of a pending list before an entry. -/
def pendBefore (ps : List Pend) (id : Nat) : List Pend := ps.takeWhile (·.id != id)

/-- Every earlier access that a release covers has performed at its scope (R116, R122): PEER and HOST accesses count where
`off` is set (R127, R255). -/
def coveredDone (earlier : List Pend) (scope : Nat) (off : Bool) : Bool :=
  (accessesOf earlier).all fun (_, e) => (!off && e.off) || (scope == 0 && e.atCore)

/-- Two releases act on one phaser slot (R271). -/
def sameSlot : Release → Release → Bool
  | .signal c n _, .signal c' n' _ => c == c' && n == n'
  | _, _ => false

/-- Stores of the core that stand between the L2 boundary and their point of coherence let a piece perform (R116, R117):
a store in its turn, a load at once, every other operation once they are over. -/
def fwdLets (s : State) (k id : Nat) (a : Access) (q : Piece) : Bool :=
  let fs := (s.core (k / 4)).fwd
  if fs.isEmpty then true
  else match a.op with
    | .load => true
    | .store => (fs.takeWhile fun f => !(f.k == k && f.id == id && f.lo == q.lo)).all fun f => !(isBound q && f.meets q.place.pos q.bytes)
    | op => fs.all fun f => !(f.meets q.place.pos q.bytes || (walksNodes op && isDram f.key && dramCore f.key == dramCore q.place.pos))

/-- Earlier releases and acquires of the unit let a piece of bundle `b` perform: a release holds back writes (R122, R421), and
a retire at sys those that leave the device as well (R127, R255); an acquire holds back everything that stays on it (R123,
R127), a drain every later access, those that leave the device only at sys (R122, R127), and a drop that has still to act every
access of a later bundle (R420). -/
def eventsLet (earlier : List Pend) (b : Nat) (a : Access) (q : Piece) : Bool :=
  earlier.all fun e => match e.kind with
    | .release scope (.view _) => !opWrites a.op || (offDevice q && scope != 3)
    | .acquire _ => e.bundle == b || offDevice q
    | .drain scope => e.bundle == b || (offDevice q && scope != 3)
    | .release _ (.signal _ _ true) => e.bundle == b
    | .release _ _ => !opWrites a.op || offDevice q
    | .access _ => true

/-- The next piece of an access of a context may perform now. -/
def pieceMay (s : State) (k id : Nat) (earlier : List Pend) (b : Nat) (a : Access) (q : Piece) : Bool :=
  (accessesOf earlier).all (fun (b', e) => !holdsBack (k / 4) earlier b' e b a q) && eventsLet earlier b a q && fwdLets s k id a q

/-- May this pending entry of a context perform now? A drop that counts as no signal is no release (R270). -/
def mayPerform (s : State) (k : Nat) (earlier : List Pend) (p : Pend) : Bool :=
  match p.kind with
  | .access a => match a.pieces with
    | q :: _ => pieceMay s k p.id earlier p.bundle a q
    | [] => true
  | .release scope r =>
    let off := match r with
      | .view _ => scope == 3
      | _ => false
    let free := match r with
      | .signal n slot true => !(s.phaser n slot).dropCounts (k / 4) (k % 4)
      | _ => false
    (free || coveredDone earlier scope off) && earlier.all fun e => match e.kind with
      | .release _ r' => !sameSlot r r'
      | _ => true
  | .drain scope => coveredDone earlier scope (scope == 3)
  | .acquire _ => (accessesOf earlier).all fun (_, e) => !opReads e.op || e.off

end Sys2Proof.Machine
end

