-- ==== Sys2Proof/Machine/Levels.lean ====
section
/-! DEFINITION. Launches and the five levels: the level table's changes (R154, R165, R166), the fault ring's records (R394),
stopping units and commands (R147, R167), cancels (R167, R168) and discards (R396, R398). -/
namespace Sys2Proof.Machine

/-- A word of a launch record (R157). -/
def Launch.word (l : Launch) (i : Nat) : W64 := Machine.word l.record i
/-- LAUNCHID (R157). -/
def Launch.lid (l : Launch) : Nat := fld (l.word 5) 0 10
/-- GRAPHID (R157). -/
def Launch.graph (l : Launch) : Nat := fld (l.word 5) 16 8
/-- PHASEID (R157). -/
def Launch.phase (l : Launch) : Nat := fld (l.word 5) 24 4
/-- JOBID (R157). -/
def Launch.job (l : Launch) : Nat := fld (l.word 5) 32 16
/-- GRAPHN (R157). -/
def Launch.graphN (l : Launch) : Nat := fld (l.word 6) 0 16
/-- PHASEN (R157). -/
def Launch.phaseN (l : Launch) : Nat := fld (l.word 6) 16 8
/-- UNITS (R157). -/
def Launch.units (l : Launch) : Nat := fld (l.word 4) 0 32
/-- PRIO (R157). -/
def Launch.prio (l : Launch) : Nat := fld (l.word 3) 6 3
/-- PIPE (R157). -/
def Launch.pipe (l : Launch) : Bool := (l.word 3).getLsbD 12
/-- DET (R157). -/
def Launch.det (l : Launch) : Bool := (l.word 3).getLsbD 10
/-- Stages: NSTAGE + 1 (R157, R164). -/
def Launch.stages (l : Launch) : Nat := fld (l.word 3) 13 3 + 1
/-- The valid predecessors (R157). -/
def Launch.preds (l : Launch) : List Nat :=
  (List.range 4).filterMap fun i => if (l.word 7).getLsbD (16 * i + 15) then some (fld (l.word 7) (16 * i) 10) else none

/-- The launch with the scheduler's number. -/
def State.launch? (s : State) (id : Nat) : Option Launch := s.launches.find? (·.id == id)

/-- Replace a launch. -/
def State.putLaunch (s : State) (l : Launch) : State :=
  { s with launches := s.launches.map fun x => if x.id == l.id then l else x }

/-- The level-table index of a launch, a graph, a phase and a job slot (R166). -/
def graphEntry (g : Nat) : Nat := 1024 + g
/-- See `graphEntry`. -/
def phaseEntry (p : Nat) : Nat := 1280 + p
/-- See `graphEntry`. -/
def jobEntry (j : Nat) : Nat := 1296 + j

/-- The job slot that holds a JOBID (R166). -/
def State.jobSlot (s : State) (job : Nat) : Option Nat :=
  (List.range 4).find? fun j => s.levelState (jobEntry j) != 0 && fld (s.level (jobEntry j) 0) 0 16 == job

/-- An ended state of a level entry (R166). -/
def endedState (st : Nat) : Bool := 3 ≤ st && st ≤ 6

/-- Count an ended member in a level entry (R154, R166); the entry ends with a member that does not complete, or
completes when every member has. The second part says whether the entry ended now. -/
def countMember (s : State) (entry st : Nat) : State × Bool :=
  let done := (s.levelDone entry + 1) % 2 ^ 32
  let s := s.setLevelCounts entry (s.levelTarget entry) done
  if s.levelState entry != 2 then (s, false)
  else if st != 3 then (s.setLevelState entry st, true)
  else if done == s.levelTarget entry then (s.setLevelState entry 3, true)
  else (s, false)

/-- The end of a phase counts in the job to which it belongs (R166, R340). -/
def phaseEnded (s : State) (phase : Nat) : State :=
  match ((tget s.levelJobs (phaseEntry phase)).bind s.jobSlot) with
  | some j => s.setLevelCounts (jobEntry j) 0 ((s.levelDone (jobEntry j) + 1) % 2 ^ 32)
  | none => s

/-- A member of a phase has ended in a state (R154, R166). -/
def phaseMember (s : State) (phase st : Nat) : State :=
  let (s, ended) := countMember s (phaseEntry phase) st
  if ended then phaseEnded s phase else s

/-- The latest record that named a graph as a member (R157). -/
def graphFirst (s : State) (g : Nat) : Option Launch := s.launches.reverse.find? fun x => x.graphN != 0 && x.graph == g

/-- A graph has ended in a state: it counts in its phase (R154, R166). -/
def graphEnded (s : State) (g st : Nat) : State :=
  match graphFirst s g with
  | some l => if l.phaseN != 0 then phaseMember s l.phase st else s
  | none => s

/-- The end of a launch counts in its graph, its phase and its job (R154, R166). -/
def countEnd (s : State) (l : Launch) (st : Nat) : State :=
  if l.graphN != 0 then
    let (s, ended) := countMember s (graphEntry l.graph) st
    if ended then graphEnded s l.graph (s.levelState (graphEntry l.graph)) else s
  else if l.phaseN != 0 then phaseMember s l.phase st
  else s

/-- A running graph or phase is cancelled: it takes the state CANCELLED, and what encloses it counts its end (R154, R168). -/
def cancelGroup (s : State) (entry : Nat) : State :=
  if s.levelState entry != 2 then s
  else
    let s := s.setLevelState entry 4
    if entry < 1280 then graphEnded s (entry - 1024) 4 else if entry < 1296 then phaseEnded s (entry - 1280) else s

/-- End a launch in a state, once (R154); a state other than COMPLETE cancels the launches validated after it that depend on it
(R165), at most `fuel` deep. -/
def endLaunch (s : State) (id st : Nat) : Nat → State
  | 0 => s
  | fuel + 1 =>
    match s.launch? id with
    | none => s
    | some l =>
      if l.done then s
      else
        let s := s.putLaunch { l with done := true, cores := [] }
        let s := countEnd (s.setLevelState l.lid st) l st
        if st == 3 then s
        else ((s.launches.dropWhile (·.id != id)).filter fun x => !x.done && x.id != id && x.preds.contains l.lid).foldl
          (fun s x => endLaunch s x.id 4 fuel) s

/-- A word of the fault ring's REGION list for scratchpad tiles (R398). -/
def tileRegion (tile : Nat) : W64 :=
  let key := tile * 4096
  BitVec.ofNat 64 (1 <<< 61 ||| spCore key <<< 40 ||| ((key - 2 ^ 48) % 2 ^ 24 / 2 ^ 22) <<< 38 ||| spOff key <<< 16 ||| 1)

/-- A record for the fault ring with everything else at its default (R394). DEDUCED, log 77. -/
def faultRec (kind src cls cause : Nat) : FaultRec := ⟨0, kind, src, cls, cause, 0, none, 0, 0, 0, false, 0, 0, 0, 0, 0, []⟩

/-- Queue a record for the fault ring under the next sequence number, from 1 and wrapping past 0 (R394). -/
def postRecord (s : State) (r : FaultRec) : Nat × State :=
  let seq := s.faultSeq
  let (job, lid) := match r.launch.bind s.launch? with
    | some l => (l.job, l.lid)
    | none => (0, 0)
  (seq, { s with faultSeq := if seq + 1 == 2 ^ 32 then 1 else seq + 1, faultQueue := s.faultQueue ++ [{ r with
    seq := seq, job := job, launchId := lid, device := if r.cls == 0x12 then r.device else s.deviceId }] })

/-- Undefined contents: 128 free bytes for a line (R147; log 7). -/
def scrambleLine (s : State) (line : Nat) : State :=
  let v := (List.range 128).foldl (fun acc i => acc * 256 + (Sys2Proof.Config.freeByte (s.free + i)).toNat) 0
  { s with mem := memWrite s.mem (line * 128) v 128, free := s.free + 128 }

/-- The scratchpad tiles that a list of lines stands in. -/
def tilesOf (lines : List Nat) : List Nat := lines.foldl (fun ts l => sinsert ts (l / 32)) []

/-- A field of a collective descriptor (R331). -/
def cdf (d : BitVec 1024) (w lo n : Nat) : Nat := fld (word d w) lo n
/-- NCHUNK (R331). -/
def cdChunks (d : BitVec 1024) : Nat := cdf d 4 48 16
/-- CHUNK (R331). -/
def cdBytes (d : BitVec 1024) : Nat := cdf d 5 0 32
/-- FMT (R331). -/
def cdFmt (d : BitVec 1024) : BitVec 4 := BitVec.ofNat 4 (cdf d 5 32 4)
/-- ROP (R331). -/
def cdRop (d : BitVec 1024) : Nat := cdf d 5 38 2
/-- The pointer of OUT (R331). -/
def cdOut (d : BitVec 1024) : W64 := if word d 2 == 0 then word d 1 else word d 2
/-- Key of a byte of BUF or OUT. -/
def cdKey (core : Nat) (p : W64) (off : Nat) : Nat := spKey core (fld p 22 2) (fld p 0 22 + off)

/-- The lines of BUF or OUT over every chunk (R331). -/
def cdLines (core : Nat) (d : BitVec 1024) (p : W64) : List Nat := linesOf (cdKey core p 0) (cdChunks d * cdBytes d)

/-- The tiles of BUF and OUT of a run (R331). -/
def CollRun.tiles (r : CollRun) : List Nat := tilesOf (cdLines r.core r.desc (word r.desc 1) ++ cdLines r.core r.desc (cdOut r.desc))

/-- The context in which the unit of a command runs, or ran when it was saved: a saved unit's commands bear its context's
number plus 4 (`moveCommands`). -/
def unitKey (core ctx : Nat) : Nat := core * 4 + ctx % 4

/-- The saved unit that a command belongs to, if its unit is saved (R400). -/
def ofSaved (core ctx : Nat) (v : SavedCtx) : Bool := 4 ≤ ctx && v.key == unitKey core ctx

/-- Keep the tiles that a command of a unit names, for the unit's retire (R174 step 3). -/
def noteTiles (s : State) (core ctx launch : Nat) (tiles : List Nat) : State :=
  let k := unitKey core ctx
  let c := s.ctx k
  if tiles.isEmpty then s
  else if 4 ≤ ctx then
    let note (v : SavedCtx) : SavedCtx := if ofSaved core ctx v then { v with given := sinsertAll v.given tiles } else v
    { s with savedCtxs := s.savedCtxs.map note }
  else if c.status != .free && c.unit.launch == launch then s.setCtx k { c with given := sinsertAll c.given tiles }
  else s

/-- Give up the lines and tiles of a stopped command: lines it had not completed hold undefined contents, every tile
goes to the thread side with every line full (R147). -/
def abandon (s : State) (lines tiles : List Nat) : State :=
  let s := (lines.filter s.emptyLines.contains).foldl scrambleLine s
  (tiles ++ lines.map (· / 32)).foldl takeTile s

/-- Set the declared accumulator tiles of an engine full (R147, R300). -/
def accFull (x : Engine) (accw : Nat) : Engine :=
  { x with acc := (List.range 8).foldl (fun a i => if accw.testBit i then vset a i { vget a i ⟨true, []⟩ with full := true } else a) x.acc }

/-- What the stationary B and the latches hold after a stop: undefined contents (R294; log 7). -/
def junkEngine (x : Engine) (n : Nat) : Engine :=
  { x with
    b := [], bRows := List.range 256, bJunk := some n
    latches := Vector.replicate 4 ⟨(Sys2Proof.Config.freeByte n).toNat % 129, List.range 256, [], some n⟩ }

/-- Where PRECTL of a context (R399) stands in its die's window. -/
def prectlOff (k : Nat) : Nat := 0xE000 + 16 * (k % 256)
/-- Where MEPRE of an engine (R399) stands in its die's window. -/
def mepreOff (e : Nat) : Nat := 0xF000 + 16 * (e % 128)

/-- STATE of PRECTL (R399). -/
def preState (s : State) (k : Nat) : Nat := fld (s.mmioWord (k / 256) (prectlOff k)) 2 2
/-- Set STATE of PRECTL. -/
def setPreState (s : State) (k st : Nat) : State :=
  s.setMmio (k / 256) (prectlOff k) (setFld (s.mmioWord (k / 256) (prectlOff k)) 2 2 st)
/-- STATE of MEPRE (R399). -/
def mepreState (s : State) (e : Nat) : Nat := fld (s.mmioWord (e / 128) (mepreOff e)) 2 2
/-- Set STATE of MEPRE. -/
def setMepreState (s : State) (e st : Nat) : State :=
  s.setMmio (e / 128) (mepreOff e) (setFld (s.mmioWord (e / 128) (mepreOff e)) 2 2 st)

/-- The number under which the phaser memberships and the commands of a saved unit stand, apart from those of the next unit
in its context (R400). -/
def savedMember (k : Nat) : Nat := k % 4 + 4

/-- The writes of the store and the directory that waited for an idle engine (R305). -/
def flushWrites (s : State) (e : Nat) : State :=
  let x := s.engine e
  if x.queue.isEmpty && !x.writes.isEmpty then
    x.writes.foldl (fun s (off, n, v) => s.mmioPut (e / 128) off n v) (s.setEngine e { x with writes := [] })
  else s

/-- The places of an engine's queue that are taken, those of its saved calls included, so that these find room again (R299,
R402). DEDUCED, log 62. -/
def queueUsed (s : State) (e : Nat) : Nat :=
  (s.engine e).queue.length + ((s.savedCalls.filter (·.engine == e)).map fun v => v.kept.length + 1).sum

/-- Stop an engine's calls (R147): a queued call leaves at once, a running one stops at its next interrupt point. -/
def stopCalls (s : State) (e : Nat) (sel : Nat → Nat → Nat → Bool) : State :=
  let x := s.engine e
  let hit (c : MatCall) : Bool := sel c.core c.ctx c.launch
  let gone := x.queue.filter fun c => hit c && !c.started
  let q := (x.queue.filter fun c => !(hit c && !c.started)).map fun c => if hit c then { c with stop := true } else c
  if x.queue.any hit then
    flushWrites (gone.foldl (fun s c => (abandon s c.lines c.tiles).releasePhase c.core c.ph)
      (s.setEngine e (gone.foldl (fun x c => accFull x c.accw) { x with queue := q }))) e
  else s

/-- A saved call is given up (R147, R402). -/
def abandonSaved (e : Nat) (s : State) (c : MatCall) : State :=
  (abandon (s.setEngine e (accFull (s.engine e) c.accw)) c.lines c.tiles).releasePhase c.core c.ph

/-- Every call of a save has been stopped. -/
def SavedCalls.over (v : SavedCalls) : Bool := (v.call :: v.kept).all (·.stop)

/-- Stop calls that an engine pre-emption has saved (R147, R402): they are not put back into their queue; STATE of MEPRE
becomes 0 where no call of the save is left. -/
def stopSaved (s : State) (sel : Nat → Nat → Nat → Bool) : State :=
  let hit (c : MatCall) : Bool := sel c.core c.ctx c.launch && !c.stop
  let mark (c : MatCall) : MatCall := if hit c then { c with stop := true } else c
  let gone := s.savedCalls.flatMap fun v => ((v.call :: v.kept).filter hit).map fun c => (v.engine, c)
  let s := { s with savedCalls := s.savedCalls.map fun v => { v with call := mark v.call, kept := v.kept.map mark } }
  let s := gone.foldl (fun s (e, c) => abandonSaved e s c) s
  (s.savedCalls.filter (·.over)).foldl (fun s v => setMepreState s v.engine 0)
    { s with savedCalls := s.savedCalls.filter fun v => !v.over }

/-- Stop the accepted commands that a selection of core, context and launch names (R147, R167). Copies stand between
chunks, batches between elements, runs between packets, so these stop at once; a run that has already ended keeps its status.
DESIGN CHOICE, log 27. -/
def stopCommands (s : State) (sel : Nat → Nat → Nat → Bool) (status : Nat) : State :=
  let s := stopSaved (s.engines.foldl (fun s (e, _) => stopCalls s e sel) s) sel
  let cs := s.copies.filter fun c => sel c.core c.ctx c.launch
  let bs := s.batches.filter fun c => sel c.core c.ctx c.launch
  let rs := s.rreads.filter fun c => sel c.core c.ctx c.launch
  let hitRun (r : CollRun) : Bool := sel r.core r.ctx r.launch && !r.stop
  let us := s.runs.filter hitRun
  let s := { s with
    copies := s.copies.filter (fun c => !sel c.core c.ctx c.launch)
    batches := s.batches.filter (fun c => !sel c.core c.ctx c.launch)
    rreads := s.rreads.filter (fun c => !sel c.core c.ctx c.launch)
    staggers := s.staggers.filter (fun g => !sel g.core g.ctx g.launch)
    runs := s.runs.map fun r => if hitRun r then { r with status := some (r.status.getD status), lines := [], stop := true } else r }
  let s := cs.foldl (fun s c => abandon s c.lines c.tiles) s
  let s := bs.foldl (fun s c => abandon s c.lines [c.opnd, c.res]) s
  let s := us.foldl (fun s r => abandon s r.lines r.tiles) s
  rs.foldl (fun s c => abandon s ((List.range c.count).map (lineOf c.dst + ·)) [tileOf c.dst]) s

/-- The context executes bundles: its unit's, or those of the handler store (R390). -/
def Ctx.executes (c : Ctx) : Bool := c.status == .running || (c.status == .handler && c.handling)

/-- The bundle is to commit when it issues again, for what it waited for has come to pass: firmware has performed it (R392), or
the phase of its wait has completed (R269). -/
def Block.kept (b : Block) : Bool :=
  match b with
  | .emulation => true
  | .passed _ _ => true
  | _ => false

/-- A context is runnable: it executes bundles and its next is not blocked on an engine (R150). -/
def runnable (c : Ctx) : Bool :=
  c.executes && match c.wait with
    | some (.block b) => b.kept
    | _ => true

/-- The contexts of a core in the order of R349, from the one after the last chosen. -/
def choiceOrder (last : Nat) : List Nat := (List.range 4).map fun i => (last + 1 + i) % 4

/-- The context that a core chooses (R349). -/
def choice (s : State) (core : Nat) : Option Nat :=
  let ok := (choiceOrder (s.core core).last).filter fun x => runnable (s.ctx (core * 4 + x))
  match ok.find? fun x => (s.ctx (core * 4 + x)).skip == 64 with
  | some x => some x
  | none =>
    let top := ok.foldl (fun m x => max m (s.ctx (core * 4 + x)).unit.prio) 0
    ok.find? fun x => (s.ctx (core * 4 + x)).unit.prio == top

/-- The core chooses its issuing context, where none issues (R349); a change of context counts as a switch (R152, R177). -/
def chooseCtx (s : State) (core : Nat) : State :=
  let c := s.core core
  if c.cur.isSome then s
  else match choice s core with
    | none => s
    | some x =>
      let s := (List.range 4).foldl (fun s y =>
        let k := core * 4 + y
        let d := s.ctx k
        if y == x then s.setCtx k { d with skip := 0 }
        else if runnable d then s.setCtx k { d with skip := min 64 (d.skip + 1) } else s) s
      s.setCore core { c with cur := some x, last := x, ctxSw := if x == c.last then c.ctxSw else c.ctxSw + 1 }

/-- A context stops issuing, and its core chooses again (R150, R174, R349). -/
def leaveCore (s : State) (k : Nat) : State :=
  let c := s.core (k / 4)
  if c.cur == some (k % 4) then chooseCtx (s.setCore (k / 4) { c with cur := none }) (k / 4) else s

/-- The image of a saved unit is dropped: its tiles, its memberships and the record that waits for it go, and STATE of its
PRECTL becomes 0 (R270, R400). -/
def dropImage (s : State) (v : SavedCtx) : State :=
  let s := dropAll (v.given.foldl takeTile (setPreState s v.key 0)) (v.key / 4) (savedMember v.key)
  { s with savedCtxs := s.savedCtxs.filter (· != v), decisions := s.decisions.filter fun d => v.record != some d.seq }

/-- The save or the restore of a context ends with the stop of its unit (R400). -/
def endSave (s : State) (k : Nat) : State :=
  match preState s k with
  | 1 => setPreState s k 0
  | 3 => (s.savedCtxs.filter (·.key == k)).foldl dropImage (setPreState s k 0)
  | _ => s

/-- A decision awaited for the unit that a context holds, not for one that was saved there (R395). -/
def ownDecision (s : State) (k : Nat) (d : Decision) : Bool :=
  d.ctx == some k && !(s.savedCtxs.any fun x => x.key == k && x.record == some d.seq)

/-- A unit stops at its bundle boundary: its uncommitted bundle and monitor go, and its memberships as `ph.drop` at sys
would (R167, R270). -/
def stopUnit (s : State) (k : Nat) : State :=
  let c := s.ctx k
  if c.status == .free then s
  else
    let s := if (s.bundle.map (·.ctx)) == some k then { s with bundle := none } else s
    let s := endSave (dropInTurn s k) k
    let s := s.setCtx k { s.ctx k with status := .stopping, wait := none, monitor := none, record := none, task := none, handling := false }
    leaveCore { s with
      walks := s.walks.filter (·.ctx != k), stageZero := s.stageZero.filter (·.ctx != k)
      decisions := s.decisions.filter fun d => !ownDecision s k d } k

/-- The contexts that hold units of a launch. -/
def unitsOf (s : State) (launch : Nat) : List Nat :=
  s.ctxs.filterMap fun (k, c) => if c.status != .free && c.unit.launch == launch then some k else none

/-- Drop the saved images of a launch's units and calls (R396, R400); STATE of their PRECTL and MEPRE becomes 0. -/
def dropSaved (s : State) (id : Nat) : State :=
  let s := (s.savedCtxs.filter (·.unit.launch == id)).foldl dropImage s
  (s.savedCalls.filter (·.call.launch == id)).foldl (fun s v =>
    (v.call :: v.kept).foldl (abandonSaved v.engine) (setMepreState s v.engine 0))
    { s with savedCalls := s.savedCalls.filter (·.call.launch != id) }

/-- Stop everything of a launch that has not ended, in a level state (R167, R396). -/
def stopLaunch (s : State) (id st : Nat) : State :=
  let s := stopCommands s (fun _ _ l => l == id) 4
  let s := (unitsOf s id).foldl stopUnit s
  endLaunch (dropSaved s id) id st 1024

/-- The tiles with lines that the commands of a launch have not completed (R147). -/
def undoneTiles (s : State) (id : Nat) : List Nat :=
  let lines := (s.copies.filter (·.launch == id)).flatMap (·.lines)
    ++ (s.batches.filter (·.launch == id)).flatMap (·.lines)
    ++ (s.rreads.filter (·.launch == id)).flatMap (fun r => r.waiting.map (lineOf r.dst + ·.1))
    ++ s.engines.flatMap (fun x => (x.2.queue.filter (·.launch == id)).flatMap (·.lines))
    ++ s.savedCalls.flatMap (fun v => ((v.call :: v.kept).filter (·.launch == id)).flatMap (·.lines))
    ++ (s.runs.filter (·.launch == id)).flatMap (·.lines)
  sinsertAll [] ((lines.filter s.emptyLines.contains).map (· / 32))

/-- Discard a launch (R396) with its KIND 3 record: the tiles with lines that its commands had not completed, and what its
stores could write, are listed as undefined (R147, R398). -/
def discardLaunch (s : State) (id : Nat) (r : FaultRec) : State :=
  match s.launch? id with
  | none => s
  | some l =>
    if l.done && (unitsOf s id).isEmpty then s
    else
      let regions := ((undoneTiles s id).map tileRegion) ++ [BitVec.ofNat 64 (3 <<< 61 ||| l.lid)]
      let (_, s) := postRecord s { r with kind := 3, launch := some id, regions := regions }
      stopLaunch s id 5

/-- Cancel one launch that has not ended (R167). -/
def cancelLaunch (s : State) (id : Nat) : State := stopLaunch s id 4

/-- The graph and the phase that a launch is in, by entry of the level table (R166). -/
def Launch.groups (l : Launch) : List Nat :=
  (if l.graphN != 0 then [graphEntry l.graph] else []) ++ (if l.phaseN != 0 then [phaseEntry l.phase] else [])

/-- The launch belongs to a graph or phase that a cancel has ended (R167). -/
def inCancelled (s : State) (l : Launch) : Bool := l.groups.any s.cancelled.contains

/-- A level's cancel: the result of R340 and the state (R167, R168). `below` are the entries of the levels below that the
cancel ends as well. -/
def cancelEntry (s : State) (entry : Nat) (members : Launch → Bool) (below : Launch → List Nat) : Nat × State :=
  let st := s.levelState entry
  if st == 3 then (1, s)
  else if st != 1 && st != 2 then (2, s)
  else
    let s := (s.launches.filter fun l => !l.done && members l).foldl (fun s l => cancelLaunch s l.id) s
    let mine (e : Nat) : Bool := s.levelState e != 0 && (s.launches.reverse.find? fun x => x.groups.contains e).all members
    let lower := ((s.launches.filter members).flatMap below).filter mine
    let gone := (if 1024 ≤ entry then [entry] else []) ++ lower
    let s := { s with cancelled := gone.foldl (fun c e => if c.contains e then c else e :: c) s.cancelled }
    let s := ((lower.filter (· < 1280)) ++ lower.filter (1280 ≤ ·)).foldl cancelGroup s
    let s := cancelGroup s entry
    (0, if endedState (s.levelState entry) then s else s.setLevelState entry 4)

/-- An uncorrectable error that no access of a launch meets: a record without a launch, with the line in ADDR (R397). DEDUCED, log
58. -/
def lineError (s : State) (line : Nat) : State := (postRecord s { faultRec 3 6 0x10 2 with addr := BitVec.ofNat 64 (line * 128) }).2

/-- Stop the commands of one unit (R147, R167). -/
def stopUnitCommands (s : State) (k launch : Nat) : State :=
  stopCommands s (fun c x l => c == k / 4 && x == k % 4 && l == launch) 4

/-- Stop the commands of a saved unit (R147, R400). -/
def stopSavedCommands (s : State) (v : SavedCtx) : State :=
  stopCommands s (fun c x _ => c == v.key / 4 && x == savedMember v.key) 4

/-- `lvl.cancel` of an instance (R340). A free context whose unit is saved answers 2 as every free context does, and the
image of that unit is dropped (R400). DEDUCED, log 102. -/
def cancelInstance (s : State) (level inst : Nat) : Nat × State :=
  match level with
  | 0 =>
    if (s.ctx inst).status == .free then
      (2, (s.savedCtxs.filter (·.key == inst)).foldl (fun s v => dropImage (stopSavedCommands s v) v) s)
    else (0, stopUnit (stopUnitCommands s inst (s.ctx inst).unit.launch) inst)
  | 1 => cancelEntry s inst (fun l => l.lid == inst) fun _ => []
  | 2 => cancelEntry s (graphEntry inst) (fun l => l.graphN != 0 && l.graph == inst) fun _ => []
  | 3 => cancelEntry s (phaseEntry inst) (fun l => l.phaseN != 0 && l.phase == inst) Launch.groups
  | _ => cancelEntry s (jobEntry inst) (fun l => l.job == fld (s.level (jobEntry inst) 0) 0 16) Launch.groups

/-- The job of an instance; none where it belongs to no job (R340). -/
def jobOfInstance (s : State) (level inst : Nat) : Option Nat :=
  let groupJob (e : Nat) : Option Nat := if s.levelState e == 0 then none else tget s.levelJobs e
  match level with
  | 0 => if (s.ctx inst).status == .free then none else some (s.ctx inst).unit.job
  | 1 => groupJob inst
  | 2 => groupJob (graphEntry inst)
  | 3 => groupJob (phaseEntry inst)
  | _ => if s.levelState (jobEntry inst) == 0 then none else some (fld (s.level (jobEntry inst) 0) 0 16)

end Sys2Proof.Machine
end

