-- ==== Sys2Proof/Machine/Transport.lean ====
section
/-! DEFINITION. Messages that leave the device (R78, R406 to R410): a message goes to the egress of the port that the routing
table names; with DET = 1 it waits there for the tick boundary, and a flit once sent is kept for retransmission. A
message to the device itself does not leave the package (R21). -/
namespace Sys2Proof.Machine

/-- FPORT of a port (R410). -/
def State.fport (s : State) (p : Nat) : W64 := s.mmioWord 0 (0x1000 + 16 * p)

/-- A port is UP and not locked (R409, R410). -/
def State.portUp (s : State) (p : Nat) : Bool := (s.fport p).getLsbD 0 && !(s.fport p).getLsbD 1

/-- TICKCTL.DET (R77). -/
def State.det (s : State) : Bool := (s.mmioWord 0 0x200).getLsbD 0

/-- TICKCTL.LOCK (R77). -/
def State.tickLock (s : State) : Bool := (s.mmioWord 0 0x200).getLsbD 1

/-- The role of a message's first segment in MAP (R406). DEDUCED, log 53. -/
def segmentRole : Msg → Nat
  | .peerReq r => if r.hops == 0 then 1 else 2
  | .packet .. | .logUp _ | .logDown _ | .wlShip .. => 1
  | .peerResp .. | .wlAck _ => 3
  | .check .. | .mismatch .. | .abort .. | .wlUp .. | .wlDown .. | .wlIb .. | .ptp _ => 5

/-- A segment that carries part of a message, with whether it is its last and whether it is circuit traffic (R406). -/
structure Segment where
  (msg : Msg) (part : Nat) (last circ : Bool)

/-- The segments of a message (R406). -/
def segmentsOf (m : Msg) (circ : Bool) : List Segment :=
  (List.range (Config.moreSegments m + 1)).map fun i => ⟨m, i, i == Config.moreSegments m, circ⟩

/-- The role of a segment (R406): its message's, and 4 where the message continues. -/
def Segment.role (g : Segment) : Nat := if g.part == 0 then segmentRole g.msg else 4

/-- The segments of one flit after another (R406): up to nine, which share CIRC. `n` bounds the flits. DESIGN CHOICE, log 53. -/
def packSegments : Nat → List Segment → List (List Segment)
  | 0, _ => []
  | _ + 1, [] => []
  | n + 1, g :: gs =>
    let mine := (gs.take 8).takeWhile (·.circ == g.circ)
    (g :: mine) :: packSegments n (gs.drop mine.length)

/-- MAP of a flit's segments (R406): role 0 where a segment is empty. -/
def mapOf (gs : List Segment) : BitVec 27 := BitVec.ofNat 27 (gs.foldr (fun g v => v * 8 + g.role) 0)

/-- The bytes of a little-endian word. -/
def wordBytes (n v : Nat) : List Byte := (List.range n).map fun i => BitVec.ofNat 8 (v >>> (8 * i))

/-- The bytes that TAG covers (R408): the whole flit with bytes 16 to 23 at 0 (R406). -/
def flitBytes (f : Flit) : List Byte :=
  wordBytes 8 (f.map.toNat + (if f.circ then 2 ^ 27 else 0) + (if f.replay then 2 ^ 28 else 0) + f.reserved.toNat % 128 * 2 ^ 29
      + f.credits.toNat * 2 ^ 36 + f.src.toNat * 2 ^ 48)
    ++ wordBytes 8 f.fseq ++ wordBytes 8 0 ++ wordBytes 40 (f.reserved.toNat / 128) ++ f.data

/-- TAG of a flit under a session key (R408): the nonce is FSEQ padded with 32 zero bits. -/
def tagOf (key : BitVec 256) (f : Flit) : W64 := Config.gcmTag key (BitVec.ofNat 64 f.fseq ++ 0#32) (flitBytes f)

/-- A flit with its TAG (R408). -/
def tagFlit (key : BitVec 256) (f : Flit) : Flit := { f with tag := tagOf key f }

/-- A flit of segments under a number (R406, R408): reserved bits are 0. -/
def flitOf (src : Nat) (key : BitVec 256) (n : Nat) (gs : List Segment) : Flit :=
  tagFlit key { src := BitVec.ofNat 16 src, credits := Config.credits n, replay := false, circ := gs.any (·.circ), map := mapOf gs, fseq := n
                tag := 0, reserved := 0, data := gs.flatMap fun g => Config.segmentBytes g.msg g.part
                msgs := (gs.filter (·.last)).map (·.msg) }

/-- No segment has one of the invalid roles 6 and 7 (R406). -/
def mapOk (m : BitVec 27) : Bool := (List.range 9).all fun i => bits m.toNat (3 * i) 3 < 6

/-- The flits of a port's released messages leave, numbered in turn (R408); each is kept for retransmission (R409). FSEQ may not
wrap: where it would, nothing leaves. -/
def drainEgress (src : Nat) (p : Port) : Port :=
  let gs := (p.egress.filter (·.2.1)).flatMap fun e => segmentsOf e.1 e.2.2
  let flits := packSegments gs.length gs
  if 2 ^ 64 ≤ p.sent + flits.length then p
  else { p with sent := p.sent + flits.length, egress := p.egress.filter fun e => !e.2.1
                kept := p.kept ++ flits.zipIdx.map fun (g, i) => flitOf src p.key (p.sent + i) g }

/-- Bits of an FPORT register. -/
def setPortBits (s : State) (p lo n v : Nat) : State := s.setMmio 0 (0x1000 + 16 * p) (setFld (s.fport p) lo n v)

/-- What waits at a port's egress leaves while the port is UP; the session ends before FSEQ wraps, and the port is UP again once it
is attested (R408, R412). DESIGN CHOICE, log 110. -/
def drainPort (s : State) (p : Nat) (q : Port) : State :=
  if s.portUp p then
    let q := drainEgress s.deviceId q
    let s := s.setPort p q
    if q.egress.any (·.2.1) then setPortBits s p 0 1 0 else s
  else s.setPort p q

/-- A request of a copy of a launch whose record marks its static copy schedule as circuit traffic (R76, R156). -/
def circuitMsg (s : State) (m : Msg) : Bool :=
  match m with
  | .peerReq r => r.src == s.deviceId && match s.fetches.find? (·.id == r.id) with
    | some f => match s.copies.find? (·.id + 1024 == f.owner) with
      | some c => match s.launch? c.launch with
        | some l => (Machine.word l.record 3).getLsbD 11
        | none => false
      | none => false
    | none => false
  | _ => false

/-- Queue a message at a port's egress (R78); it leaves while the port is UP. A locked port sends nothing (R409). -/
def sendAt (s : State) (p : Nat) (m : Msg) : State :=
  let q := s.port p
  if (s.fport p).getLsbD 1 then s else drainPort s p { q with egress := q.egress ++ [(m, !s.det, circuitMsg s m)] }

/-- The event by which a message acts on this device (R409). -/
def turnOf : Msg → Option Turn
  | .peerReq r => some (.event (.peerAccessArrive r))
  | .abort g q => some (.event (.collAbortFlit g q))
  | .logUp e => some (.event (.logEntryArrive e))
  | .logDown e => some (.event (.logReleasedArrive e))
  | .wlShip src job b t => some (.event (.wlShipmentArrive job b t src))
  | .wlAck job => some (.event (.wlShipmentAck job))
  | .ptp off => some (.event (.ptpSync off))
  | _ => none

/-- Add turns at the end of the agenda. -/
def State.later (s : State) (ts : List Turn) : State := { s with agenda := s.agenda ++ ts }

/-- No device answers a message: a PEER request fails (R32); any other is lost. -/
def refuseMsg (s : State) : Msg → State
  | .peerReq r => s.later [.refuse r.id]
  | _ => s

/-- Send a message to a device (R410). A PEER request without a route, or whose port is not UP, fails (R32); a locked port takes
nothing (R409). DEDUCED, log 52. -/
def sendMsg (s : State) (device : Nat) (m : Msg) : State :=
  if device == s.deviceId then match m with
    | .packet src g q op tag data => { s with packets := s.packets ++ [⟨src, g, q, op, tag, data⟩] }
    | m => s.later (turnOf m).toList
  else match s.route device with
    | some p => match m with
      | .peerReq _ => if s.portUp p then sendAt s p m else refuseMsg s m
      | _ => sendAt s p m
    | none => refuseMsg s m

/-- The die whose unit, engine or scheduler reads another device under an owner number. -/
def ownerDie (s : State) (owner : Nat) : Nat :=
  if owner < 1024 then owner / 256
  else match s.copies.find? (·.id + 1024 == owner), s.rreads.find? (·.id + 1024 == owner), s.runs.find? (·.id + 1024 == owner) with
    | some c, _, _ => c.core / 64
    | none, some r, _ => r.core / 64
    | none, none, some r => r.die
    | none, none, none => (((s.launches ++ s.validating).find? (2 ^ 50 + ·.id == owner)).map (·.die)).getD 0

/-- Ask for bytes of another device, or of this one under PEER, for an engine or a record read (R21, R32). -/
def askFetch (s : State) (owner device off bytes : Nat) : State :=
  if s.fetches.any fun f => f.owner == owner && f.device == device && f.off == off && f.bytes == bytes then s
  else
    let (id, s) := s.fresh
    let s := { s with fetches := s.fetches ++ [⟨id, owner, device, off, bytes, none⟩] }
    sendMsg s device (.peerReq ⟨s.deviceId, id, device, off, .load, bytes, 0, 8 * bytes, 0, 0, ownerDie s owner⟩)

/-- Write bytes of another device for an engine; the acknowledgement is the answer (R127, R325). -/
def askStore (s : State) (owner device off bytes v : Nat) : State :=
  if s.fetches.any fun f => f.owner == owner && f.device == device && f.off == off && f.bytes == bytes then s
  else
    let (id, s) := s.fresh
    let s := { s with fetches := s.fetches ++ [⟨id, owner, device, off, bytes, none⟩] }
    sendMsg s device (.peerReq ⟨s.deviceId, id, device, off, .store, bytes, 0, 8 * bytes, BitVec.ofNat 2048 v, 0, ownerDie s owner⟩)

/-- The answer to a read that an owner sent, where none inside says that it failed (R32). -/
def fetched (s : State) (owner device off bytes : Nat) : Option (Option Nat) :=
  (s.fetches.find? fun f => f.owner == owner && f.device == device && f.off == off && f.bytes == bytes).bind (·.answer)

/-- Throw away the answers that an owner has used. -/
def dropFetches (s : State) (owner : Nat) : State :=
  if s.fetches.isEmpty then s else { s with fetches := s.fetches.filter (·.owner != owner) }

end Sys2Proof.Machine
end

