-- ==== Sys2Proof/Machine/Ops.lean ====
section
/-! DEFINITION. The shared operations of a context: writing and filling registers and queue entries (R180 to R183),
taking a trap (R388 to R390) and returning from it (R344, R391), waits and blocks (R150, R151), fetching code words
(R176), and reading a record before commit (R26). -/
namespace Sys2Proof.Machine

/-- Push an entry onto the result queue; the oldest leaves (R180). -/
def Ctx.push (c : Ctx) (e : QEntry) : Ctx :=
  { c with q := ⟨((e :: c.q.toList).take 16).toArray, by simp⟩ }

/-- Write a result, or reserve its place empty for the producer `pend` (R181, R183); g0 takes nothing (R179). -/
def Ctx.setDest (c : Ctx) (d : Dest) (isVec : Bool) (v : Vec) (pend : Option Nat) : Ctx :=
  match d with
  | .push => c.push ⟨isVec, v, pend⟩
  | .g n => if n == 0 then c else { c with g := vset c.g n ⟨v.extractLsb' 0 64, pend⟩ }
  | .h n => { c with h := vset c.h n ⟨v, pend⟩ }
  | .drop => c

/-- A result arrives: the entry or register that waits for this producer becomes full; one that has left or has a later
producer takes nothing (R181, R183). -/
def Ctx.fill (c : Ctx) (id : Nat) (v : Vec) : Ctx :=
  { c with
    q := c.q.map fun e => if e.pend == some id then { e with val := v, pend := none } else e
    g := c.g.map fun r => if r.pend == some id then ⟨v.extractLsb' 0 64, none⟩ else r
    h := c.h.map fun r => if r.pend == some id then ⟨v, none⟩ else r
    bank := c.bank.map fun r => if r.pend == some id then ⟨v.extractLsb' 0 64, none⟩ else r }

/-- What the slots of a context see of its registers (R390): handler code has the handler's bank in the place of g0 to g31, and
no loop is active for it. DESIGN CHOICE, log 8. -/
def Ctx.seen (c : Ctx) : Ctx := if c.handling then { c with g := c.bank, lp0 := .reset, lp1 := .reset } else c

/-- A context after a bundle that left its seen registers as `d` (R390): handler code changes its bank and leaves every register
of the unit unchanged. DESIGN CHOICE, log 8. -/
def Ctx.keep (c d : Ctx) : Ctx :=
  if c.handling then { d with
    bank := d.g, g := c.g, q := c.q, h := c.h, w := c.w, shadow := c.shadow, p := c.p, k := c.k, c := c.c, mpc := c.mpc
    lp0 := c.lp0, lp1 := c.lp1, fpflags := c.fpflags }
  else d

/-- For whom a context's accesses are checked: code of a PRIV launch and the handler are privileged (R22, R390). -/
def who (s : State) (k : Nat) : Who :=
  let c := s.ctx k
  ⟨k / 4, c.asperm, c.unit.priv || c.status == .handler⟩

/-- CODE of the image that a context runs, and the number of its code words (R157, R176). -/
def codeOf (s : State) (k : Nat) : W64 × Nat :=
  match s.launch? (s.ctx k).unit.launch with
  | some l => (l.word 0, fld (l.word 1) 0 32 / 4)
  | none => ((s.core (k / 4)).ovlCode, (s.core (k / 4)).ovlWords.length)

/-- A code word that a context fetches: from its core's overlay store, whatever image stands there, and none outside its launch's
code (R176, R190), or
from the handler store for handler code, whose first word has the address 0 (R390). DESIGN CHOICE, log 8. -/
def codeWord (s : State) (k : Nat) (a : W64) : Option W32 :=
  if (s.ctx k).handling then (s.core (k / 4)).handlerStore[a.toNat / 4]?
  else
    let (code, n) := codeOf s k
    let i := (a - code).toNat / 4
    if a.ult code || n ≤ i then none else some ((s.core (k / 4)).ovlWords.getD i 0)

/-- The address after the stop slot of the bundle at `a`, looked for in at most `n` slots (R190, R239). -/
def bundleEnd (s : State) (k : Nat) (a : W64) : Nat → Option W64
  | 0 => none
  | n + 1 =>
    match codeWord s k a with
    | none => none
    | some w => if w.getLsbD 31 then some (a + 4) else bundleEnd s k (a + 4) n

/-- The bundle being issued by a context is dropped; it leaves no trace (R101). -/
def dropBundle (s : State) (k : Nat) : State :=
  if (s.bundle.map (·.ctx)) == some k then { s with bundle := none } else s

/-- A discarding fault of a unit's launch (R396); a unit without a launch record stops alone. -/
def discardUnit (s : State) (k : Nat) (r : FaultRec) : State :=
  let c := s.ctx k
  match s.launch? c.unit.launch with
  | some _ => discardLaunch s c.unit.launch r
  | none => stopUnit (postRecord s { r with kind := 3 }).2 k

/-- Classes whose FAULT_INFO and record carry no slot (R389): BUNDLE_FORM and SOFT. -/
def slotless (cls : Nat) : Bool := cls == 0x01 || cls == 0x0E

/-- Take a trap (R389, R390): FAULT_INFO, FAULT_ADDR and TRAP_PC are written and the context enters handler mode, which
is privileged and leaves every register of the unit as it is. The handler writes its record of KIND 1 and waits for
the decision (R391), which blocks the context; once it is there the handler applies it, by the code that UMBER has loaded into
the handler store if there is any (`decideUnit`). A trap in handler mode discards with class DOUBLE. DESIGN CHOICE, log 8. -/
def takeTrap (s : State) (k slot : Nat) (t : Trap) : State :=
  let s := dropBundle s k
  let c := s.ctx k
  let addr := t.addr.getD c.pc
  if c.status == .handler then
    discardUnit s k { faultRec 3 0 0x14 t.cls with core := k / 4, ctx := k % 4, pc := c.trapPc, addr := addr }
  else
    let slot := if slotless t.cls then 0 else slot
    let (seq, s) := postRecord s
      { faultRec 1 0 t.cls t.cause with slot := slot, launch := some c.unit.launch, addr := addr, core := k / 4, ctx := k % 4, pc := c.pc }
    let s := s.setCtx k { c with
      status := .handler
      handling := false
      faultInfo := BitVec.ofNat 64 (slot <<< 20 ||| t.cls <<< 8 ||| t.cause)
      faultAddr := addr
      trapPc := c.pc
      record := some seq
      wait := none }
    leaveCore { s with decisions := s.decisions ++ [⟨seq, none, some k, none⟩] } k

/-- Return from the handler (R344, R391): the unit resumes at an address, TRAP_PC for `trap.ret`; a bundle of handler code that
is being issued is dropped. -/
def trapReturn (s : State) (k : Nat) (pc : W64) : State :=
  let s := dropBundle s k
  let c := s.ctx k
  let s := match c.record with
    | some seq => { s with decisions := s.decisions.filter (·.seq != seq) }
    | none => s
  chooseCtx (s.setCtx k { c with status := .running, pc := pc, handling := false, record := none, wait := none }) (k / 4)

/-- BUNDLE_FORM with a subcause (R193). -/
def bundleForm (s : State) (k cause : Nat) : State := takeTrap s k 0 ⟨0x01, cause, none⟩

/-- Send a walk for an address that a bundle needs, unless it is on its way (R68). One that an earlier bundle of the context
asked for and needs no more is given up. -/
def askWalk (s : State) (k slot va addr : Nat) (write : Bool) : State :=
  let c := s.ctx k
  let w : Walk := ⟨k, slot, c.asid.toNat, c.ptroot.toNat, va, addr, write⟩
  if s.walks.contains w then s else { s with walks := s.walks.filter (·.ctx != k) ++ [w] }

/-- The bundle waits (R150, R151): nothing of it commits, and another core issues next (log 1). A block lets
the core issue another context; a stall holds the core. -/
def hold (s : State) (k slot : Nat) (w : Wait) : State :=
  let s := dropBundle { s with focus := (s.focus + 1) % 256 } k
  let s := s.setCtx k { s.ctx k with wait := some w }
  match w with
  | .block .emulation => leaveCore (s.setCtx k { s.ctx k with status := .emulating }) k
  | .block _ => leaveCore s k
  | .walk va addr write => askWalk s k slot va addr write
  | .fetch device off bytes => askFetch s k device off bytes
  | _ => s

/-- The PEER window of this device (R21, R25): PEER_ASID and PEER_ROOT of die 0; none while EN is 0. -/
def peerSpace (s : State) : Option (Nat × Nat) :=
  let w := s.mmioWord 0 0x100
  if w.getLsbD 16 then some (fld w 0 16, (s.mmioWord 0 0x108).toNat) else none

/-- The record of a failure at another device (R32, R388, R394). -/
def peerFault (device off : Nat) : FaultRec := { faultRec 3 5 0x12 1 with device := device, addr := BitVec.ofNat 64 off }

/-- The record of a HOST access that the host completes with an error (R32, R394). -/
def hostFault (addr : Nat) : FaultRec := { faultRec 3 5 0x12 2 with host := true, addr := BitVec.ofNat 64 addr }

/-- The record of an uncorrectable error that a read meets (R388, R397). -/
def memoryFault (line : Nat) : FaultRec := { faultRec 3 6 0x10 1 with addr := BitVec.ofNat 64 (line * 128) }

/-- The weak load by which a unit reads a record before commit (R26, R256, R331). -/
def recordLoad (c : Ctx) (place : Place) (n : Nat) : Access :=
  ⟨.load, none, 0, false, 0, c.asid.toNat, 0, [⟨place, n, 0, 8 * n, 0⟩], 0, none, none, none, false, none, 0⟩

/-- The load of a record must not perform yet: earlier accesses, releases or acquires of the unit hold it back (R49, R104,
R123). -/
def recordHeld (s : State) (k : Nat) (place : Place) (n : Nat) : Bool :=
  let c := s.ctx k
  !mayPerform s k c.pend ⟨0, c.bundleNo, .access (recordLoad c place n)⟩

/-- A record at a key of on-device memory: its value, or why it cannot be read now (R49, R139, R388). -/
def recordAt (s : State) (k : Nat) (place : Place) (key n : Nat) : Except Stop Nat :=
  if recordHeld s k place n then .error (.wait .read)
  else match (linesOf key n).find? s.emptyLines.contains, badLine? s key n with
    | some l, _ => .error (.wait (.line l))
    | none, some l => .error (.dead (memoryFault l))
    | none, none => .ok (coreRead s (k / 4) key n)

/-- Read a record of `n` bytes before commit (R26, R29, R256): the number it holds, a trap, a wait, or a discarding fault. A
line that the L1 holds is read there and not translated (R20, R63). -/
def readRecord (s : State) (k : Nat) (p : W64) (n : Nat) : Except Stop Nat :=
  let c := s.ctx k
  match checkAddr s (who s k) p p n false with
  | .error t => .error (.trap t)
  | .ok (_, place) =>
    match place with
    | .mem key => recordAt s k place key n
    | .untranslated va =>
      match l1Find s (k / 4) c.asid.toNat va with
      | some l =>
        if recordHeld s k (.cached va) n then .error (.wait .read) else .ok (bits l.data.toNat (8 * (va % 128)) (8 * n))
      | none => match tlbLookup s (k / 4) c.asid.toNat va false with
        | .hit key => recordAt s k (.va va key) key n
        | .phys => .error (.trap ⟨0x03, 0xB, some p⟩)
        | _ => .error (.wait (.walk va va false))
    | .host a =>
      if recordHeld s k place n then .error (.wait .read)
      else if hostFails s a n then .error (.dead (hostFault a))
      else .ok (memRead s.hostMem a n)
    | .peer device off =>
      if recordHeld s k place n then .error (.wait .read)
      else match fetched s k device off n with
        | some (some v) => .ok v
        | _ => .error (.wait (.fetch device off n))
    | _ => .error (.wait .read)

/-- The cache tags after a record was read (R56, R63, R67): the weak load of R26 uses its line of the L1, or fills it, and goes
through the L2 and the LLC where it misses. -/
def recordTouch (s : State) (k : Nat) (p : W64) (n : Nat) : State :=
  let core := k / 4
  let asid := (s.ctx k).asid.toNat
  match checkAddr s (who s k) p p n false with
  | .ok (_, .mem key) => touchCaches s core key false false
  | .ok (_, .untranslated va) =>
    if (l1Find s core asid va).isSome then l1Touch s core asid va
    else match tlbLookup s core asid va false with
      | .hit key => l1Fill (touchCaches s core key false false) core asid va (BitVec.ofNat 1024 (coreRead s core (key / 128 * 128) 128))
      | _ => s
  | _ => s

end Sys2Proof.Machine
end

