-- ==== Sys2Proof/Machine/Agent.lean ====
section
/-! DEFINITION. An indivisible access at its point of coherence (R115, R126): loads, stores, atomics (R260 to R263) and the
packets of near-memory agents (R326 to R329); and PEER requests that this device serves (R21, R32, R128). -/
namespace Sys2Proof.Machine

/-- The key of the node a pointer names in the vault of a column (R328): PDV, or CDV where the issuing unit's column is
that vault's. -/
def nodeKey (core vault : Nat) (p : W64) (link : Nat) : Option Nat :=
  let ok := match spaceOf (fld p 60 4) with
    | some .pdv => !fieldBad .pdv p && ptrCore p == vault
    | some .cdv => !fieldBad .cdv p && core == vault
    | _ => false
  if ok && fld p 0 30 + link + 8 ≤ 0x30000000 then some (dramKey vault (fld p 0 30)) else none

/-- The chase of R329 from a node: the pointer at which it stops, after at most `hops` hops. -/
def chase (m : List Host.Cell) (core vault link : Nat) (p : W64) (key : Nat) : Nat → W64
  | 0 => p
  | hops + 1 =>
    let next := BitVec.ofNat 64 (memRead m (key + link) 8)
    if next == 0 then p
    else match nodeKey core vault next link with
      | none => next
      | some k => chase m core vault link next k hops

/-- The old words of `nm.cas` that equal their comparands, all `n` of them (R327). -/
def wordsEqual (old cmp : Nat) (n : Nat) : Bool := old == cmp % 2 ^ (64 * n)

/-- `nm.enq` at the agent (R328): D and the memory. -/
def enqueue (s : State) (core key : Nat) (node : W64) : Nat × State :=
  let vault := dramCore key
  let tail := BitVec.ofNat 64 (memRead s.mem (key + 8) 8)
  match nodeKey core vault node 0 with
  | none => (1, s)
  | some nk =>
    let link := if tail == 0 then some key else (if tail.toNat % 8 == 0 then nodeKey core vault tail 0 else none)
    match link with
    | none => (1, s)
    | some lk =>
      let s := performWrite s nk 8 0
      let s := performWrite s lk 8 node.toNat
      (tail.toNat, performWrite s (key + 8) 8 node.toNat)

/-- `nm.deq` at the agent (R328): D and the memory. The stored head is checked, and the link that takes its place. -/
def dequeue (s : State) (core key : Nat) : Nat × State :=
  let head := BitVec.ofNat 64 (memRead s.mem key 8)
  if head == 0 then (0, s)
  else match (if head.toNat % 8 == 0 then nodeKey core (dramCore key) head 0 else none) with
    | none => (1, s)
    | some hk =>
      let link := memRead s.mem hk 8
      if link != 0 && (link % 8 != 0 || (nodeKey core (dramCore key) (BitVec.ofNat 64 link) 0).isNone) then (1, s)
      else
        let s := performWrite s key 8 link
        (head.toNat, if link == 0 then performWrite s (key + 8) 8 0 else s)

/-- One indivisible access of `n` bits at bit `bit` of `bytes` bytes from `key`: the value read, the flags of an FP
atomic, and the state (R102, R126, R260 to R262). -/
def performOp (s : State) (core : Nat) (op : MemOp) (key bytes bit n : Nat) (data : Vec) : Nat × Flags × State :=
  let old := bits (performRead s key bytes) bit n
  let v := data.toNat % 2 ^ n
  match op with
  | .load => (old, 0, s)
  | .store => (old, 0, performBits s key bytes bit n v)
  | .atom o =>
    let r := atomicNew o n old v
    (old, r.2, performBits s key bytes bit n r.1)
  | .cas cmp => (old, 0, if old == cmp.toNat % 2 ^ n then performBits s key bytes bit n v else s)
  | .nmCas w cmp =>
    let ok := wordsEqual old cmp.toNat w
    (old + if ok then 2 ^ 256 else 0, 0, if ok then performWrite s key (8 * w) (data.toNat % 2 ^ (64 * w)) else s)
  | .nmEnq node =>
    let r := enqueue s core key node
    (r.1, 0, r.2)
  | .nmDeq =>
    let r := dequeue s core key
    (r.1, 0, r.2)
  | .nmChase hops link => ((chase s.mem core (dramCore key) link (data.extractLsb' 0 64) key hops).toNat, 0, s)

/-- The first piece of an access has performed with value `v`; with the last piece the access is over, its result sets
out. An acquire takes effect once nothing of it is left but pieces that leave the device, which hold back no access that stays
on it (R123, R127), and at its end. The pieces follow each other in their order in the list, for a vector tensor
access that of ascending elements. DESIGN CHOICE, log 90. -/
def finishPiece (s : State) (k id : Nat) (a : Access) (p : Piece) (v : Nat) (f : Flags) : State :=
  let c := s.ctx k
  let a' := { a with got := a.got ||| BitVec.ofNat 2048 (v <<< p.lo), pieces := a.pieces.tail, sent := false }
  if a'.pieces.isEmpty then
    let res : List Result := match a.res with
      | some r => [⟨r, a'.got, f⟩]
      | none => []
    let s := s.setCtx k { c with pend := c.pend.filter (·.id != id), results := c.results ++ res }
    acquired s
  else
    let s := s.setCtx k { c with pend := c.pend.map fun x => if x.id == id then { x with kind := .access a' } else x }
    if a'.pieces.all offDevice && !offDevice p then acquired s else s
where
  acquired (s : State) : State := if a.acquire then acquireL1 s (k / 4) a.asid (a.strong.getD 0) else s

/-- A committed access meets a discarding fault (R32, R396): it leaves its unit's list, and its launch is discarded. -/
def failAccess (s : State) (k id : Nat) (r : FaultRec) : State :=
  let c := s.ctx k
  discardUnit (s.setCtx k { c with pend := c.pend.filter (·.id != id) }) k { r with core := k / 4, ctx := k % 4, pc := c.pc }

/-- An access fails at its PEER or HOST target (R32): its launch is discarded, and its result never arrives. DEDUCED, log 29. -/
def targetError (s : State) (k id : Nat) : State :=
  match (s.ctx k).pend.find? (·.id == id) with
  | some ⟨_, _, .access a⟩ =>
    match a.pieces with
    | ⟨.host h, _, _, _, _⟩ :: _ => failAccess s k id (hostFault h)
    | ⟨.peer d off, _, _, _, _⟩ :: _ => failAccess s k id (peerFault d off)
    | _ => s
  | _ => s

/-- The number under which a batch element is asked for at another device. -/
def batchReqId (cmd i : Nat) : Nat := 2 ^ 40 + cmd * 256 + i

/-- A command of an engine fails (R32, R324, R396). -/
def commandError (s : State) (launch core ctx : Nat) (r : FaultRec) : State :=
  discardLaunch s launch { r with core := core, ctx := ctx % 4 }

/-- The elements of a batch that share the result line of element `i` have all been answered (R137). -/
def batchLineDone (b : BatchCmd) (i : Nat) : Bool :=
  let last := min (fld b.ctl 8 8) (i / 16 * 16 + 15)
  last < b.next && b.waiting.all fun w => w.1 / 16 != i / 16

/-- A batch element's old value goes to the result tile; a line that then holds every value it is to get is full (R137,
R324). -/
def batchResult (s : State) (id i old : Nat) : State :=
  match s.batches.find? (·.id == id) with
  | none => s
  | some b =>
    let s := performWrite s (b.res * 4096 + 8 * i) 8 old
    let b := { b with waiting := b.waiting.filter (·.1 != i) }
    let line := b.res * 32 + i / 16
    let put (s : State) (b : BatchCmd) : State := { s with batches := s.batches.map fun x => if x.id == id then b else x }
    if batchLineDone b i then setFull (put s { b with lines := b.lines.filter (· != line) }) [line] else put s b

/-- The command or unit for which an owner reads another device fails; a read of the scheduler keeps the failure for it. -/
def fetchError (s : State) (f : Fetch) : State :=
  let r := peerFault f.device f.off
  if f.owner < 1024 then discardUnit s f.owner { r with core := f.owner / 4, ctx := f.owner % 4 }
  else
    let mine (id : Nat) : Bool := id + 1024 == f.owner
    match s.copies.find? (mine ·.id) with
    | some c => commandError s c.launch c.core c.ctx r
    | none => match s.rreads.find? (mine ·.id) with
      | some c => commandError s c.launch c.core c.ctx r
      | none => match s.runs.find? (mine ·.id) with
        | some c => answer (if c.stop then s else commandError s c.launch c.core c.ctx r)
        | none => answer s
where
  answer (s : State) : State := { s with fetches := s.fetches.map fun x => if x.id == f.id then { x with answer := some none } else x }

/-- An answer from another device arrives (R32). -/
def deliverAnswer (s : State) (id : Nat) (ok : Bool) (v : Vec) : State :=
  if 2 ^ 40 ≤ id then
    match s.batches.find? (·.id == (id - 2 ^ 40) / 256) with
    | some b => match b.waiting.find? (·.1 == id % 256) with
      | some (i, d, off) =>
        if ok then batchResult s b.id i (v.toNat % 2 ^ 64) else commandError s b.launch b.core b.ctx (peerFault d off)
      | none => s
    | none => s
  else match s.fetches.find? (·.id == id) with
    | some f =>
      if ok then { s with fetches := s.fetches.map fun x => if x.id == id then { x with answer := some (some v.toNat) } else x }
      else fetchError s f
    | none =>
      match s.ctxs.find? fun (_, c) => c.pend.any (·.id == id) with
      | some (k, c) =>
        match c.pend.find? (·.id == id) with
        | some ⟨_, _, .access a⟩ =>
          match a.pieces with
          | p :: _ => if !a.sent then s else if ok then finishPiece s k id a p (v.toNat % 2 ^ p.bits) 0 else targetError s k id
          | [] => s
        | _ => s
      | none => s

/-- Answer a PEER request (R32, R128). -/
def peerAnswer (s : State) (r : PeerReq) (ok : Bool) (v : Vec) : State :=
  if r.src == s.deviceId then deliverAnswer s r.id ok v else sendMsg s r.src (.peerResp r.id ok v)

/-- Translate the offset of a request that enters at a die under PEER_ASID and PEER_ROOT (R21, R423). DESIGN CHOICE, log 28. -/
def peerTranslate (s : State) (die off : Nat) (write : Bool) : Option (Nat × State) :=
  match peerSpace s with
  | none => none
  | some (asid, root) =>
    match tlbLookup s (64 * die) asid off write with
    | .hit key => some (key, s)
    | .write => none
    | .phys => none
    | .miss => match walkThrough s (64 * die) root off write with
      | (.page size frame w, s) => some (frame + off % size, tlbInsert s (64 * die) asid off size frame w)
      | _ => none

/-- A PEER request arrives (R21, R32, R128): served here, or sent on towards its device; the 64th device that it reaches
answers with an error. An uncorrectable error that it meets is told by a record without a launch (R397). -/
def servePeer (s : State) (r : PeerReq) : State :=
  if r.device != s.deviceId then
    let r := { r with hops := r.hops + 1 }
    match s.route r.device with
    | some p => if s.portUp p && r.hops < 64 then sendAt s p (.peerReq r) else peerAnswer s r false 0
    | none => peerAnswer s r false 0
  else match peerTranslate s r.die r.off (opWrites r.op) with
    | none => peerAnswer s r false 0
    | some (key, s) =>
      match (if opReads r.op then badLine? s key r.bytes else none) with
      | some l => peerAnswer (lineError s l) r false 0
      | none =>
        let s := if opWrites r.op then touchExternal s key r.bytes else touchRead s key r.bytes
        let (v, _, s) := performOp s 0 r.op key r.bytes r.bit r.bits r.data
        peerAnswer s r true (BitVec.ofNat 2048 v)

end Sys2Proof.Machine
end

