-- ==== Sys2Proof/Machine/MmioView.lean ====
section
/-! DEFINITION. The register window as it reads (R3): stored words, and the fields that mirror other state: LOAD and SHAPE
(R353 to R355, R416), PEND (R169), the counters of R177, PORTSUP and THERM (R415). -/
namespace Sys2Proof.Machine

/-- The launch that a context's unit belongs to. -/
def unitLaunch (s : State) (k : Nat) : Option Launch := s.launch? (s.ctx k).unit.launch

/-- The weight of a power class (R353). -/
def weight (c : Nat) : Nat := c % 4 + 1

/-- The power class of a placed unit: the register's, or the record's before the start (R353). -/
def classOfUnit (s : State) (k : Nat) : Nat :=
  let c := s.ctx k
  if c.status == .reserved then ((unitLaunch s k).map fun l => fld (l.word 3) 4 2).getD 0 else fld c.pclass 0 2

/-- The placed units of a core. -/
def placedOn (s : State) (core : Nat) : List Nat := ((List.range 4).map (core * 4 + ·)).filter fun k => (s.ctx k).status != .free

/-- LOAD of a column (R354). -/
def columnLoad (s : State) (core : Nat) : Nat := (placedOn s core).foldl (fun a k => a + weight (classOfUnit s k)) 0

/-- THRESH of a column (R355). -/
def thresh (s : State) (core : Nat) : Nat := fld (s.mmioWord (core / 64) (0x2800 + 8 * (core % 64))) 0 5

/-- TEMP of a die (R416). -/
def dieTemp (s : State) (die : Nat) : Nat := fld (s.mmioWord 0 0x328) (8 * die) 8

/-- A thermal limit is active on a die: its TEMP is at TLIM or above (R416). -/
def thermActive (s : State) (die : Nat) : Bool := fld (s.mmioWord 0 0x320) 0 8 ≤ dieTemp s die

/-- SHAPE of a column (R355, R416). DESIGN CHOICE, log 36. -/
def shapeOf (s : State) (core : Nat) : Nat :=
  let w := s.mmioWord (core / 64) (0x2800 + 8 * (core % 64))
  let gov := fld (s.mmioWord 0 0x308) 32 4
  min (min (min (fld w 16 4) gov) (if thresh s core < columnLoad s core then fld w 12 4 else 15))
    (if thermActive s (core / 64) then 7 else 15)

/-- DEV_STATUS as stored; PORTSUP and THERM are computed when it is read (R415). -/
def devStatus (s : State) : W64 := s.mmioWord 0 0

/-- Is an offset in the descriptor array or the sharding table (R34)? -/
def isTable (off : Nat) : Bool := (0x100000 ≤ off && off < 0x120000) || (0x200000 ≤ off && off < 0x280000)

/-- A word of the tables as the register window shows it: every write applied. -/
def tableWord (s : State) (off : Nat) : W64 :=
  s.tableWrites.foldl (fun w (o, n, v) => if o / 8 == off / 8 then mmioMerge w o n v else w) (s.mmioWord 0 off)

/-- PORTSUP (R415). -/
def portsUp (s : State) : Nat := ((List.range 32).filter fun p => (s.fport p).getLsbD 0).length

/-- DEV_STATUS as it reads (R415, R416). -/
def devStatusRead (s : State) : W64 :=
  let hot := (List.range 4).any (thermActive s)
  setFld (setFld (devStatus s) 24 8 (portsUp s)) 3 1 (if hot && s.devReady then 1 else 0)

/-- Some clk pass; VIEWSTALL of a core counts those in which its issuing context waits for the directory (R51, R177). -/
def passClk (s : State) (n : Nat) : State :=
  let stalled (i : Nat) (c : Core) : Bool := match c.cur.bind fun x => (s.ctx (i * 4 + x)).wait with
    | some (.directory _ _) => true
    | _ => false
  { s with
    clk := s.clk + n
    cores := s.cores.map fun x => (x.1, if stalled x.1 x.2 then { x.2 with viewStall := x.2.viewStall + BitVec.ofNat 64 n } else x.2) }

/-- Local time in ns (R77, R413): a clk is 5 / 6 ns. -/
def localTime (s : State) : Nat := s.timeNs + (s.clk - s.timeClk) * 5 / 6

/-- TICKNOW: local time in exchange ticks of 2,000 ns (R77). -/
def tickNow (s : State) : Nat := localTime s / 2000

/-- Registers that stand in the window of die 0 alone. -/
def dieZeroOnly (off : Nat) : Bool :=
  off < 0x700 || (0x1000 ≤ off && off < 0x1200) || (0x8000 ≤ off && off < 0x8800) || (0x300000 ≤ off && off < 0x700000)

/-- COLPWR as it reads (R355). -/
def colpwrRead (s : State) (die off : Nat) : W64 :=
  let core := die * 64 + (off - 0x2800) / 8
  setFld (setFld (s.mmioWord die off) 20 4 (shapeOf s core)) 32 5 (columnLoad s core)

/-- A word of a die's window as it reads: a reserved or write-only field and an address without a register read 0 (R3, R4,
log 14); before DEV_READY everything but DEV_STATUS reads 0 (R414). DESIGN CHOICE, log 85. -/
def mmioView (s : State) (die off : Nat) : W64 :=
  let off := off / 8 * 8
  if die == 0 && off == 0 then devStatusRead s
  else if !s.devReady || (die != 0 && dieZeroOnly off) || off == 0x620 then 0
  else if 0x2800 ≤ off && off < 0x2A00 then colpwrRead s die off
  else if 0x3000 ≤ off && off < 0x3400 then
    let c := s.core (die * 64 + (off - 0x3000) / 16)
    if off % 16 == 0 then c.viewStall else c.ctxSw
  else if 0xC000 ≤ off && off < 0xC800 && off % 32 == 16 then
    setFld (s.mmioWord die off) 8 5 ((tget s.mailboxes (die * 64 + (off - 0xC000) / 32)).getD []).length
  else if off == 0x208 then BitVec.ofNat 64 (tickNow s)
  else if isTable off then tableWord s off
  else s.mmioWord die off

/-- A read of `n` bytes of a die's window. -/
def mmioRead (s : State) (die off n : Nat) : Nat := bits (mmioView s die off).toNat (8 * (off % 8)) (8 * n)

end Sys2Proof.Machine
end

