-- ==== Sys2Proof/Machine/EngineMem.lean ====
section
/-! DEFINITION. Memory as the engines and the scheduler see it: translation under a launch (R156, R161), reads and writes
under the owner bits and full lines (R133, R137, R140), and the records they write (R418). -/
namespace Sys2Proof.Machine

/-- PRIV of a launch (R157). -/
def Launch.priv (l : Launch) : Bool := (l.word 3).getLsbD 9

/-- For whom an access of a launch's engine command on a core is checked (R31). -/
def Launch.who (l : Launch) (core : Nat) : Who := ⟨core, l.asperm, l.priv⟩

/-- A context that still has a release of this tile to make (R134). -/
def giveWaits (s : State) (tile : Nat) : Bool :=
  s.ctxs.any fun (_, c) => c.pend.any fun p => match p.kind with
    | .release _ (.give t) => t == tile
    | _ => false

/-- An engine may use a tile: it is on the engine side and its give has taken effect (R133, R134). -/
def tileReady (s : State) (tile : Nat) : Bool := s.engineTiles.contains tile && !giveWaits s tile

/-- Why an engine has no place for an address: the trap that a thread would meet, or a discarding fault. -/
inductive NoPlace where
  | trap (t : Trap)
  | dead (r : FaultRec)
deriving DecidableEq, Repr

/-- Translate an address for an engine, through the cache of a column (R68): a key, or the trap that a thread would meet
(R71). -/
def engineTranslate (s : State) (column asid root va : Nat) (write : Bool) : Except NoPlace (Nat × State) :=
  let p : Option W64 := some (BitVec.ofNat 64 va)
  match tlbLookup s column asid va write with
  | .hit key => .ok (key, s)
  | .write => .error (.trap ⟨0x04, 2, p⟩)
  | .phys => .error (.trap ⟨0x03, 0xB, p⟩)
  | .miss =>
    match walkThrough s column root va write with
    | (.page size frame w, s) => .ok (frame + va % size, tlbInsert s column asid va size frame w)
    | (.fault c, _) => .error (.trap ⟨0x04, c, p⟩)
    | (.phys, _) => .error (.trap ⟨0x03, 0xB, p⟩)
    | (.bad l, _) => .error (.dead (memoryFault l))

/-- What an engine's read finds: a value, a trap, a discarding fault (R32, R396), or that it must wait (R133, R139). -/
inductive EngineRead where
  | val (v : Nat)
  | trap (t : Trap)
  | dead (r : FaultRec)
  | wait
deriving DecidableEq, Repr

/-- Read `n` bytes from a key for an engine, through the tags of the home column (R56, R388). -/
def engineBytes (s : State) (key n : Nat) : EngineRead × State :=
  match badLine? s key n with
  | some l => (.dead (memoryFault l), s)
  | none => let (v, s) := externalRead s key n; (.val v, s)

/-- Read `n` bytes of host memory for an engine (R32). -/
def engineHost (s : State) (a n : Nat) : EngineRead :=
  if hostFails s a n then .dead (hostFault a) else .val (memRead s.hostMem a n)

/-- Read `n` bytes at a checked place for an engine (R133, R140). -/
def engineRead (s : State) (owner column asid root : Nat) (place : Place) (n : Nat) : EngineRead × State :=
  match place with
  | .mem key =>
    if isSp key && !((linesOf key n).all fun l => tileReady s (l / 32) && !s.emptyLines.contains l) then (.wait, s)
    else engineBytes s key n
  | .va _ key | .bound _ key => engineBytes s key n
  | .untranslated va | .cached va =>
    match engineTranslate s column asid root va false with
    | .ok (key, s) => engineBytes s key n
    | .error (.trap t) => (.trap t, s)
    | .error (.dead r) => (.dead r, s)
  | .host a => (engineHost s a n, s)
  | .peer d off =>
    match fetched s owner d off n with
    | some (some v) => (.val v, s)
    | some none => (.dead (peerFault d off), s)
    | none => (.wait, askFetch s owner d off n)
  | .mmio die off => (.val (mmioRead s die off n), s)
  | .outside => (.val 0, s)

/-- The place a record pointer reaches, translated (R29, R323). -/
def recordPlace (s : State) (w : Who) (asid root : Nat) (p : W64) (n : Nat) (write : Bool) : Except NoPlace (Place × State) :=
  match checkAddr s w p p n false with
  | .error t => .error (.trap t)
  | .ok (_, .untranslated va) =>
    match engineTranslate s w.core asid root va write with
    | .ok (key, s) => .ok (.va va key, s)
    | .error x => .error x
  | .ok (_, place) => .ok (place, s)

/-- What the write of a record comes to: it has performed, it waits, or it fails at the host (R32, R418). -/
inductive RecordWrite where
  | done
  | wait
  | dead (r : FaultRec)
deriving DecidableEq, Repr

/-- Write a record of `n` bytes (R418). A record in scratchpad waits until its tile is given, and changes no full/empty bit. -/
def writeRecord (s : State) (owner : Nat) (place : Place) (n v : Nat) : RecordWrite × State :=
  match place with
  | .mem key => if isSp key && !tileReady s (tileOf key) then (.wait, s) else (.done, externalWrite s key n v)
  | .va _ key => (.done, externalWrite s key n v)
  | .host a => if hostFails s a n then (.dead (hostFault a), s) else (.done, { s with hostMem := memWrite s.hostMem a v n })
  | .peer d off =>
    match fetched s owner d off n with
    | some (some _) => (.done, s)
    | some none => (.dead (peerFault d off), s)
    | none => (.wait, askStore s owner d off n v)
  | _ => (.done, s)

/-- Read a record of a launch for the scheduler or an engine (R26, R161). -/
def launchRecord (s : State) (l : Launch) (owner core : Nat) (p : W64) (n : Nat) : EngineRead × State :=
  match recordPlace s (l.who core) l.asid l.root.toNat p n false with
  | .error (.trap t) => (.trap t, s)
  | .error (.dead r) => (.dead r, s)
  | .ok (place, s) => engineRead s owner core l.asid l.root.toNat place n

end Sys2Proof.Machine
end

