-- ==== Sys2Proof/Machine/Copy.lean ====
section
/-! DEFINITION. The copy engines: entries of the static schedule (R320, R321), acceptance and the octant's queue (R322),
the checks of stage start, chunks and completion (R323, R145, R146), batches of atomics (R324) and remote reads
(R325). -/
namespace Sys2Proof.Machine

/-- A field of a copy-schedule entry (R320). -/
def ent (e : BitVec 512) (w lo n : Nat) : Nat := fld (word e w) lo n

/-- VAULT and OFFSET of an entry's destination (R320). -/
def entKey (core : Nat) (e : BitVec 512) : Nat := spKey core (ent e 1 22 2) (ent e 1 0 22)

/-- TRANS (R320). -/
def entTrans (e : BitVec 512) : Bool := ent e 5 18 1 == 1
/-- SRCK (R320). -/
def entView (e : BitVec 512) : Bool := ent e 5 19 1 == 1
/-- DFMT (R320). -/
def entDfmt (e : BitVec 512) : BitVec 4 := BitVec.ofNat 4 (ent e 5 4 4)
/-- SFMT (R320). -/
def entSfmt (e : BitVec 512) : BitVec 4 := BitVec.ofNat 4 (ent e 5 0 4)
/-- Columns and rows of a destination plane (R321). -/
def entCols (e : BitVec 512) : Nat := if entTrans e then ent e 2 16 16 else ent e 2 0 16
/-- See `entCols`. -/
def entRows (e : BitVec 512) : Nat := if entTrans e then ent e 2 0 16 else ent e 2 16 16
/-- N2 (R320). -/
def entPlanes (e : BitVec 512) : Nat := ent e 2 32 16
/-- DPITCH and DPLANE in lines (R320). -/
def entPitch (e : BitVec 512) : Nat := ent e 4 0 16
/-- See `entPitch`. -/
def entPlane (e : BitVec 512) : Nat := ent e 4 16 16

/-- Lines that one destination row takes. -/
def entRowLines (e : BitVec 512) : Nat := (entCols e * elemBits (entDfmt e) + 1023) / 1024

/-- The destination lines in ascending order, each with its plane, row and number in the row (R321). Lines past the end of
the vault's scratchpad are in no tile and are left out; an entry that describes more lines than the scratchpad has names none
(R323; log 17). -/
def entLines (core : Nat) (e : BitVec 512) : List (Nat × Nat × Nat × Nat) :=
  let base := lineOf (entKey core e)
  let first := ent e 1 0 22 / 128
  if 24576 < entPlanes e * entRows e * entRowLines e then []
  else ((List.range (entPlanes e)).flatMap fun c => (List.range (entRows e)).flatMap fun r =>
    (List.range (entRowLines e)).map fun l => (entPitch e * r + entPlane e * c + l, c, r, l)).filterMap fun (d, c, r, l) =>
      if first + d < 24576 then some (base + d, c, r, l) else none

/-- Source coordinates (a, b) of a destination row and column (R321). -/
def entAB (e : BitVec 512) (row col : Nat) : Nat × Nat := if entTrans e then (row, col) else (col, row)

/-- The copy of an entry accepted (R136, R137): its destination lines become empty. -/
def acceptCopy (s : State) (core ctx launch unit index : Nat) (e : BitVec 512) (st : CopyState) (stage0 : Bool) : State :=
  let (id, s) := s.fresh
  let lines := (entLines core e).map (·.1)
  let c : CopyCmd := ⟨id, core, ctx, launch, unit, index, e, st, stage0, 0, 0, 0, lines, tilesOf lines, none, none, 0, false⟩
  setEmpty (noteTiles { s with copies := s.copies ++ [c] } core ctx launch c.tiles) lines

/-- Replace a copy command. -/
def State.putCopy (s : State) (c : CopyCmd) : State := { s with copies := s.copies.map fun x => if x.id == c.id then c else x }

/-- A copy command by number. -/
def State.copy? (s : State) (id : Nat) : Option CopyCmd := s.copies.find? (·.id == id)

/-- Queue places in use of an octant of columns: 48 in all (R322). DEDUCED, log 31. -/
def placesUsed (s : State) (octant : Nat) : Nat :=
  (s.copies.filter fun c => c.core / 8 == octant && c.state != .backlog).length

/-- Backlogs in use of an octant: each is what is left of one stage of one unit (R322). -/
def backlogsUsed (s : State) (octant : Nat) : Nat :=
  ((s.copies.filter fun c => c.core / 8 == octant && c.state == .backlog).map
    fun c => (c.core, c.ctx, c.launch, ent c.entry 5 48 8)).eraseDups.length

/-- May the entries of a stage be accepted (R322)? -/
def stageFits (s : State) (octant n : Nat) : Bool := placesUsed s octant + n ≤ 48 || backlogsUsed s octant < 32

/-- Accept the entries of a stage: those that find a free place are queued, the rest are a backlog (R322). -/
def acceptStage (s : State) (core ctx launch unit : Nat) (es : List (Nat × BitVec 512)) (stage0 : Bool) : State :=
  es.foldl (fun s (i, e) =>
    acceptCopy s core ctx launch unit i e (if placesUsed s (core / 8) < 48 then .queued else .backlog) stage0) s

/-- Reserved bits and an invalid PH (R320, R323). -/
def entReserved (e : BitVec 512) : Bool :=
  ent e 1 24 40 != 0 || ent e 2 48 16 != 0 || ent e 4 32 32 != 0 || ent e 5 56 8 != 0 || ent e 5 44 4 != 0 || ent e 5 30 2 != 0
    || ent e 5 20 4 != 0 || (48 ≤ ent e 5 24 6 && ent e 5 24 6 ≤ 62)

/-- The first failure among an entry's own fields, as a cause of class 3 (R323 step 1). -/
def entFields (s : State) (core : Nat) (e : BitVec 512) : Option Nat :=
  let last := entPitch e * (entRows e - 1) + entPlane e * (entPlanes e - 1) + entRowLines e
  if entReserved e then some 6
  else if entView e && spaceOf (ent e 0 60 4) != some .va then some 8
  else if entDfmt e == 15 || entSfmt e == 15 then some 2
  else if ent e 2 0 16 == 0 || ent e 2 16 16 == 0 || ent e 2 32 16 == 0 || entPitch e < entRowLines e
      || entPlane e < entPitch e * (entRows e - 1) + entRowLines e then some 1
  else if ent e 1 0 7 != 0 || s.spSize core < ent e 1 0 22 + 128 * last then some 4
  else if ent e 6 32 32 != entPlanes e * entRows e * entRowLines e then some 3
  else none

/-- Bytes and alignment of the access that carries an element at a bit (R38, R106). -/
def elemBytes (b bit : Nat) : Nat := if b == 6 then (if bit + 6 ≤ 8 then 1 else 2) else b / 8

/-- The issue checks of an element's pointer (R29): every byte of a 6-bit element is checked. -/
def checkElem (s : State) (w : Who) (base p : W64) (b bit : Nat) : Except Trap (Space × Place) :=
  if b != 6 then checkAddr s w base p (b / 8) false
  else match checkAddr s w base p 1 false with
    | .error t => .error t
    | .ok r =>
      if bit + 6 ≤ 8 then .ok r
      else match checkAddr s w base (p + 1) 1 false with
        | .error t => .error t
        | .ok _ => .ok r

/-- Where element (a, b, c) of an entry comes from (R321, R41): base and pointer with the bit, or outside, or a failure. -/
def entSource (s : State) (cmd : CopyCmd) (a b c : Nat) : Resolved :=
  let e := cmd.entry
  match cmd.view with
  | none =>
    let base := word e 0
    let off : Int := signed (ent e 3 0 32) 32 * b + signed (ent e 3 32 32) 32 * c
    let n := a * elemBits (entSfmt e)
    .ptr base (base + BitVec.ofInt 64 (off + (n / 8 : Nat))) (n % 8)
  | some (v, d) => resolveElem s v d true [a, b, c, 0]

/-- Format of the source elements of an entry (R320, R321). -/
def sourceFmt (cmd : CopyCmd) : BitVec 4 :=
  match cmd.view with
  | some (_, d) => dFmt d
  | none => entSfmt cmd.entry

/-- The check of one source element at stage start: class and cause (R323 step 4). -/
def entElemCheck (s : State) (w : Who) (cmd : CopyCmd) (a b c : Nat) : Option (Nat × Nat) :=
  let fmt := sourceFmt cmd
  match entSource s cmd a b c with
  | .outside => if ent cmd.entry 5 17 1 == 1 then none else some (3, 5)
  | .fault t => some (if t.cls == 0x05 then 2 else 1, t.cause)
  | .ptr base p bit =>
    match checkElem s w base p (elemBits fmt) bit with
    | .error t => some (1, t.cause)
    | .ok _ => none

/-- The elements of an entry in ascending destination order (R321). -/
def entElems (e : BitVec 512) : List (Nat × Nat × Nat) :=
  (List.range (entPlanes e)).flatMap fun c => (List.range (entRows e)).flatMap fun r =>
    (List.range (entCols e)).map fun col => let (a, b) := entAB e r col; (a, b, c)

/-- The own-column tiles that hold a source byte, the second byte of a straddling element too (R135, R38). -/
def entSourceTiles (s : State) (w : Who) (cmd : CopyCmd) : List Nat :=
  let add (ts : List Nat) (base p : W64) : List Nat := match checkAddr s w base p 1 false with
    | .ok (_, .mem key) => if isSp key && spCore key == cmd.core then sinsert ts (tileOf key) else ts
    | _ => ts
  (entElems cmd.entry).foldl (fun ts (a, b, c) => match entSource s cmd a b c with
    | .ptr base p bit =>
      if elemBits (sourceFmt cmd) == 6 && 8 < bit + 6 then add (add ts base p) base (p + 1) else add ts base p
    | _ => ts) []

/-- What the checks of stage start end with (R323); a read of the template may meet a discarding fault (R32, R396). -/
inductive StageStart where
  | ok (c : CopyCmd)
  | fail (cls cause : Nat) (crec : Option Place)
  | dead (r : FaultRec)
  | wait
deriving DecidableEq, Repr

/-- What step 3 of stage start finds (R323): the view of the source, if it is one. -/
inductive StageView where
  | ok (v : Option (BitVec 512 × BitVec 1024))
  | fail (cls cause : Nat)
  | dead (r : FaultRec)
  | wait
deriving DecidableEq, Repr

/-- Class of a trap in a completion record (R323). -/
def recordClass (t : Trap) : Nat := if t.cls == 0x04 then 4 else 1

/-- Step 2 of stage start: the place of the record (R323). -/
def startCrec (s : State) (l : Launch) (cmd : CopyCmd) : Except NoPlace (Option Place × State) :=
  if word cmd.entry 7 == 0 then .ok (none, s)
  else match recordPlace s (l.who cmd.core) l.asid l.root.toNat (word cmd.entry 7) 32 true with
    | .error x => .error x
    | .ok (p, s) => .ok (some p, s)

/-- Step 3 of stage start: the template of a view source (R323). -/
def startView (s : State) (l : Launch) (cmd : CopyCmd) : StageView × State :=
  if !entView cmd.entry then (.ok none, s)
  else match launchRecord s l (cmd.id + 1024) cmd.core (word cmd.entry 0) 64 with
    | (.trap t, s) => (.fail (recordClass t) t.cause, s)
    | (.dead r, s) => (.dead r, s)
    | (.wait, s) => (.wait, s)
    | (.val n, s) =>
      let v := BitVec.ofNat 512 n
      let d := s.descriptor (vTid v)
      if !descValid (vTid v) d then (.fail 2 1, s)
      else if vDims v == 0 || 4 < vDims v then (.fail 2 2, s)
      else if dFmt d != entSfmt cmd.entry then (.fail 3 2, s)
      else (.ok (some (v, d)), s)

/-- The checks of stage start, in the order of R323. -/
def stageStart (s : State) (l : Launch) (cmd : CopyCmd) : StageStart × State :=
  let w := l.who cmd.core
  let own := entFields s cmd.core cmd.entry
  match startCrec s l cmd with
  | .error (.dead r) => (.dead r, s)
  | .error (.trap t) =>
    match own with
    | some c => (.fail 3 c none, s)
    | none => (.fail (recordClass t) t.cause none, s)
  | .ok (crec, s) =>
    match own with
    | some c => (.fail 3 c crec, s)
    | none =>
      match startView s l cmd with
      | (.fail cls cause, s) => (.fail cls cause crec, s)
      | (.dead r, s) => (.dead r, s)
      | (.wait, s) => (.wait, s)
      | (.ok view, s) =>
        let cmd := { cmd with view := view, crec := crec }
        match (entElems cmd.entry).findSome? fun (a, b, c) => entElemCheck s w cmd a b c with
        | some (cls, cause) => (.fail cls cause crec, s)
        | none => (.ok { cmd with tiles := sinsertAll cmd.tiles (entSourceTiles s w cmd), state := .running }, s)

/-- A copy entry's stage start (R323); its destination tiles must have been given (R140). DESIGN CHOICE, log 84. -/
def copyStart (s : State) (id : Nat) : State :=
  match s.copy? id with
  | none => s
  | some cmd =>
    if cmd.state != .queued || !cmd.tiles.all (tileReady s) then s
    else match s.launch? cmd.launch with
      | none => s
      | some l =>
        match stageStart s l cmd with
        | (.ok cmd, s) => noteTiles (s.putCopy cmd) cmd.core cmd.ctx cmd.launch cmd.tiles
        | (.fail cls cause crec, s) => s.putCopy { cmd with state := .failed cls cause, crec := crec }
        | (.dead r, s) => commandError s cmd.launch cmd.core cmd.ctx r
        | (.wait, s) => s

/-- The own-column tiles that an accepted entry reads (R135): those found at stage start, or, before it, those that its
source names as the schedule, template and tables stand. -/
def copySources (s : State) (cmd : CopyCmd) : List Nat :=
  match cmd.state, s.launch? cmd.launch with
  | .queued, some l | .backlog, some l =>
    if (entFields s cmd.core cmd.entry).isSome then []
    else match (startView s l cmd).1 with
      | .ok v => entSourceTiles s (l.who cmd.core) { cmd with view := v }
      | _ => []
  | _, _ => []

/-- Why an engine's read of a source stops: a trap, a discarding fault, or a wait. -/
inductive CopyStop where
  | trap (t : Trap)
  | dead (r : FaultRec)
  | wait
deriving DecidableEq, Repr

/-- The scaled value of a source element (R321, R92); a block scale is read like the element. -/
def entValue (s : State) (l : Launch) (cmd : CopyCmd) (a b c : Nat) : Except CopyStop (Num × Bool) × State :=
  let w := l.who cmd.core
  let rd (s : State) (base p : W64) (n : Nat) : Except CopyStop Nat × State :=
    match checkAddr s w base p n false with
    | .error t => (.error (.trap t), s)
    | .ok (_, place) =>
      match engineRead s (cmd.id + 1024) cmd.core l.asid l.root.toNat place n with
      | (.val v, s) => (.ok v, s)
      | (.trap t, s) => (.error (.trap t), s)
      | (.dead r, s) => (.error (.dead r), s)
      | (.wait, s) => (.error .wait, s)
  let fmt := sourceFmt cmd
  match entSource s cmd a b c with
  | .outside => (.ok (.fin false 0 0, true), s)
  | .fault t => (.error (.trap t), s)
  | .ptr base p bit =>
    let eb := elemBits fmt
    let first := rd s base p (if eb == 6 then 1 else eb / 8)
    let both : Except CopyStop Nat × State := match first with
      | (.ok lo, s) =>
        if eb == 6 && 8 < bit + 6 then match rd s base (p + 1) 1 with
          | (.ok hi, s) => (.ok (lo + 256 * hi), s)
          | r => r
        else (.ok lo, s)
      | r => r
    match both with
    | (.error t, s) => (.error t, s)
    | (.ok raw, s) =>
      let x := decodeElem fmt (bits raw bit eb)
      match cmd.view with
      | none => (.ok (x, false), s)
      | some (v, d) =>
        match blockScalePtr d (viewCoords v (dRank d) [a, b, c, 0]) with
        | none => (.ok (x.scaleE8 (dTscale d), false), s)
        | some q =>
          match rd s q q 1 with
          | (.ok bs, s) => (.ok ((x.scaleE8 (dTscale d)).scaleE8 (BitVec.ofNat 8 bs), false), s)
          | (.error t, s) => (.error t, s)

/-- What one line of a chunk comes to: its bits, saturations and clipped elements. -/
structure LineOut where
  (data sat clipped : Nat)
deriving DecidableEq, Repr

/-- Encode the elements of line `l` of a row; an element that straddles two lines is counted where it begins (R145,
R321). -/
def entLine (s : State) (l : Launch) (cmd : CopyCmd) (c r ln : Nat) : Except CopyStop LineOut × State :=
  let e := cmd.entry
  let db := elemBits (entDfmt e)
  let first := 1024 * ln / db
  let last := min (entCols e) ((1024 * (ln + 1) + db - 1) / db)
  (List.range (last - first)).foldl (fun acc i =>
    match acc with
    | (.error t, s) => (.error t, s)
    | (.ok o, s) =>
      let col := first + i
      let (a, b) := entAB e r col
      match entValue s l cmd a b c with
      | (.error t, s) => (.error t, s)
      | (.ok (x, clip), s) =>
        let n := encodeElem (entDfmt e) (ent e 5 16 1 == 1) (x.unscaleE8 (BitVec.ofNat 8 (ent e 5 8 8)))
        let code := n.code
        let here := 1024 * ln ≤ col * db
        let bitsAt := if here then code <<< (col * db - 1024 * ln) else code >>> (1024 * ln - col * db)
        (.ok ⟨o.data ||| bitsAt % 2 ^ 1024, o.sat + (if here && !clip && n.saturated then 1 else 0), o.clipped + (if here && clip then 1 else 0)⟩, s))
    (.ok ⟨0, 0, 0⟩, s)

/-- The progress cursor: the destination offset of a chunk (R146). DEDUCED, log 32. -/
def copyCursor (cmd : CopyCmd) : Nat := ent cmd.entry 1 0 22 + 4096 * cmd.chunk

/-- Suspend a copy (R146, R393, R394): a record of KIND 2 waits for a decision. -/
def suspendCopy (s : State) (cmd : CopyCmd) (cls cause : Nat) (addr : W64) : State :=
  let (seq, s) := postRecord s { faultRec 2 1 cls cause with
    launch := some cmd.launch, addr := addr, core := cmd.core, ctx := cmd.ctx % 4, pc := BitVec.ofNat 64 (copyCursor cmd)
    entry := BitVec.ofNat 64 cmd.index }
  let s := s.putCopy { cmd with state := .suspended seq }
  { s with decisions := s.decisions ++ [⟨seq, some cmd.id, none, none⟩] }

/-- The lines of the chunk that comes next (R146). -/
def chunkLines (cmd : CopyCmd) : List (Nat × Nat × Nat × Nat) :=
  let base := lineOf (entKey cmd.core cmd.entry)
  (entLines cmd.core cmd.entry).filter fun x => (x.1 - base) / 32 == cmd.chunk

/-- A copy entry reads and writes one chunk (R145, R146): every read of the chunk comes before its writes. -/
def copyStep (s : State) (id : Nat) (ev : ChunkEvent) : State :=
  match s.copy? id with
  | none => s
  | some cmd =>
    match s.launch? cmd.launch with
    | none => s
    | some l =>
      if !(cmd.state == .running || cmd.state == .preempted) || !cmd.tiles.all (tileReady s) then s
      else if ev == .corrected then suspendCopy s cmd 0x18 1 (word cmd.entry 0)
      else
        let todo := chunkLines cmd
        let r := todo.foldl (fun (acc : Except CopyStop (List (Nat × LineOut)) × State) (ln, c, row, i) =>
          match acc with
          | (.error t, s) => (.error t, s)
          | (.ok out, s) => match entLine s l cmd c row i with
            | (.ok o, s) => (.ok (out ++ [(ln, o)]), s)
            | (.error t, s) => (.error t, s)) (.ok [], s)
        match r with
        | (.error .wait, s) => s
        | (.error (.dead r), s) => commandError s cmd.launch cmd.core cmd.ctx r
        | (.error (.trap t), s) => suspendCopy s cmd t.cls t.cause (t.addr.getD 0)
        | (.ok out, s) =>
          let s := out.foldl (fun s (ln, o) => setFull (externalWrite s (ln * 128) 128 o.data) [ln]) s
          let done := out.map (·.1)
          let cmd := { cmd with
            chunk := cmd.chunk + 1, sat := cmd.sat + out.foldl (fun n (o : Nat × LineOut) => n + o.2.sat) 0
            clipped := cmd.clipped + out.foldl (fun n (o : Nat × LineOut) => n + o.2.clipped) 0, lines := seraseAll cmd.lines done }
          let s := dropFetches s (cmd.id + 1024)
          s.putCopy { cmd with state := if cmd.lines.isEmpty then .completing else .running }

/-- Where PRECTL of a context has its save area (R399). -/
def savePlace (s : State) (k : Nat) : Nat := fld (s.mmioWord (k / 256) (prectlOff k)) 8 40 <<< 8

/-- The count of a semaphore of a saved unit: that of its image (R401), with the increments since (R400). -/
def savedCount (s : State) (v : SavedCtx) (sem : Nat) : Nat :=
  performRead s (savePlace s v.key + 0x2540 + 4 * sem) 4 + v.bumps.count sem

/-- Step 1 of completion: the semaphore of the unit that the entry serves, saved or not (R323, R400). A stage-0 entry adds to
the count that the unit starts with. -/
def copySemaphore (s : State) (cmd : CopyCmd) : State × CopyCmd :=
  let k := unitKey cmd.core cmd.ctx
  let sem := ent cmd.entry 5 32 4
  if ent cmd.entry 5 36 1 == 0 then (s, cmd)
  else if cmd.stage0 then
    ({ s with stageZero := s.stageZero.map fun z => if z.ctx == k then { z with sems := z.sems ++ [sem] } else z }, cmd)
  else if 4 ≤ cmd.ctx then
    match s.savedCtxs.find? (ofSaved cmd.core cmd.ctx) with
    | some v =>
      if savedCount s v sem < 2 ^ 32 - 1 then
        let raise (v : SavedCtx) : SavedCtx := if ofSaved cmd.core cmd.ctx v
          then { v with bumps := v.bumps ++ [sem], kHeld := vset v.kHeld sem (vget v.kHeld sem 0 + 1) } else v
        ({ s with savedCtxs := s.savedCtxs.map raise }, cmd)
      else (s, { cmd with semLost := true })
    | none => (s, cmd)
  else
    let c := s.ctx k
    let v := vget c.k sem 0
    if v.toNat < 2 ^ 32 - 1 then
      (s.setCtx k { c with k := vset c.k sem (v + 1), kHeld := vset c.kHeld sem (vget c.kHeld sem 0 + 1) }, cmd)
    else (s, { cmd with semLost := true })

/-- The completion record (R323). -/
def copyRecord (cmd : CopyCmd) : Nat :=
  let (status, cls, cause) := match cmd.state with
    | .failed cls cause => (1, cls, cause)
    | _ => (0, 0, 0)
  let written := entPlanes cmd.entry * entRows cmd.entry * entRowLines cmd.entry
  let lines := if status == 1 then 0 else written
  (lines <<< 32 ||| (if cmd.semLost then 1 <<< 16 else 0) ||| cls <<< 12 ||| cause <<< 8 ||| status)
    ||| ((cmd.sat % 2 ^ 32) <<< 32 ||| cmd.clipped % 2 ^ 32) <<< 64
    ||| (cmd.unit <<< 16 ||| cmd.index) <<< 192

/-- Steps 3 to 5 of completion, after the record: the unit of the semaphore is released, the mailbox captures and the
phaser is signalled; a failed entry makes only the capture (R323). The command is over. -/
def copyFinish (s : State) (cmd : CopyCmd) : State :=
  let k := unitKey cmd.core cmd.ctx
  let failed := match cmd.state with
    | .failed _ _ => true
    | _ => false
  let e := cmd.entry
  let sem := ent e 5 32 4
  let s :=
    if failed || cmd.stage0 || cmd.semLost || ent e 5 36 1 == 0 then s
    else if 4 ≤ cmd.ctx then
      { s with savedCtxs := s.savedCtxs.map fun v => if ofSaved cmd.core cmd.ctx v then { v with kHeld := vset v.kHeld sem (vget v.kHeld sem 0 - 1) } else v }
    else
      let c := s.ctx k
      s.setCtx k { c with kHeld := vset c.kHeld sem (vget c.kHeld sem 0 - 1) }
  let s := if ent e 5 37 1 == 1 then captureEvent s (cmd.core / 64) (ent e 5 38 6) (word e 7) else s
  let s := if failed then s else engineSignal s cmd.core (ent e 5 24 6)
  let s := dropFetches { s with copies := s.copies.filter (·.id != cmd.id) } (cmd.id + 1024)
  if cmd.stage0 then
    { s with stageZero := s.stageZero.map fun z =>
        if z.ctx == k then { z with waiting := z.waiting.filter (· != cmd.id), dead := z.dead || failed } else z }
  else s

/-- The record of an entry and all that comes after it, where the record can be written now (R323, R418). -/
def copyRecordStep (s : State) (cmd : CopyCmd) : State :=
  match cmd.crec with
  | none => copyFinish s cmd
  | some place =>
    match writeRecord s (cmd.id + 1024) place 32 (copyRecord cmd) with
    | (.done, s) => copyFinish s cmd
    | (.dead r, s) => commandError s cmd.launch cmd.core cmd.ctx r
    | (.wait, s) => s

/-- The completion of an entry begins (R323); not while a give of one of its tiles is still to take effect (R134). -/
def copyComplete (s : State) (id : Nat) : State :=
  match s.copy? id with
  | none => s
  | some cmd =>
    if cmd.step != 0 || cmd.tiles.any (giveWaits s) then s
    else match cmd.state with
      | .completing =>
        let (s, cmd) := copySemaphore s cmd
        let cmd := { cmd with step := 1 }
        copyRecordStep (s.putCopy cmd) cmd
      | .failed _ _ =>
        let cmd := { cmd with step := 1 }
        copyRecordStep (s.putCopy cmd) cmd
      | _ => s

/-- The record of an entry that waited for its tile (R418). -/
def copyRecordWait (s : State) (id : Nat) : State :=
  match s.copy? id with
  | none => s
  | some cmd => if cmd.step == 1 then copyRecordStep s cmd else s

/-- A backlog entry is read again and takes a freed place; one that has changed fails with CHANGED (R322). Not while a give of
one of its tiles is still to take effect (R134). DEDUCED, log 30. -/
def backlogDrain (s : State) (octant : Nat) : State :=
  if 48 ≤ placesUsed s octant then s
  else match s.copies.find? fun c => c.core / 8 == octant && c.state == .backlog with
    | none => s
    | some cmd =>
      match s.launch? cmd.launch with
      | none => s
      | some l =>
        if cmd.tiles.any (giveWaits s) then s else
        match launchRecord s l (cmd.id + 1024) cmd.core (l.word 9 + BitVec.ofNat 64 (64 * cmd.index)) 64 with
        | (.val n, s) =>
          if BitVec.ofNat 512 n == cmd.entry then s.putCopy { cmd with state := .queued }
          else match startCrec s l cmd with
            | .ok (crec, s) => s.putCopy { cmd with state := .failed 3 7, crec := crec }
            | .error _ => s.putCopy { cmd with state := .failed 3 7 }
        | (.dead r, s) => commandError s cmd.launch cmd.core cmd.ctx r
        | (_, s) => s

/-- A running copy is pre-empted at a chunk boundary (R146, R399); it goes on with its next chunk. -/
def copyPreempt (s : State) (id : Nat) : State :=
  match s.copy? id with
  | some cmd => if cmd.state == .running then s.putCopy { cmd with state := .preempted } else s
  | none => s

/-- A batch element: its target and its operand, from the operand tile (R324). -/
def batchElem (s : State) (b : BatchCmd) (i : Nat) : W64 × Nat :=
  (BitVec.ofNat 64 (memRead s.mem (b.opnd * 4096 + 16 * i) 8), memRead s.mem (b.opnd * 4096 + 16 * i + 8) 8)

/-- Bytes of a batch element (R324). -/
def batchBytes (b : BatchCmd) : Nat := if fld b.ctl 6 1 == 1 then 8 else 4

/-- The result lines that a batch writes (R137, R324). -/
def batchLines (res : Nat) (ctl : W64) : List Nat := (List.range (fld ctl 8 8 / 16 + 1)).map (res * 32 + ·)

/-- An empty line that a batch waits for (R139): one that it has itself set empty does not hold it. DESIGN CHOICE, log 91. -/
def batchWaits (s : State) (b : BatchCmd) (line : Nat) : Bool := s.emptyLines.contains line && !b.lines.contains line

/-- One element of a batch performs at its target (R133, R148, R324, R262): an element that fails discards the launch. -/
def batchElement (s : State) (b : BatchCmd) (l : Launch) (i : Nat) : State :=
  let (p, v) := batchElem s b i
  let n := batchBytes b
  let op := fld b.ctl 0 6
  let put (s : State) (d off : Nat) : State :=
    { s with batches := s.batches.map fun x => if x.id == b.id then { x with next := i + 1, waiting := x.waiting ++ [(i, d, off)] } else x }
  let failWith (s : State) (t : Trap) : State := commandError s b.launch b.core b.ctx { faultRec 3 1 t.cls t.cause with addr := t.addr.getD p }
  let space := spaceOf (fld p 60 4)
  match checkAddr s (l.who b.core) p p n (space != some .peer && space != some .host) with
  | .error t => failWith s t
  | .ok (_, place) =>
    let at' (s : State) (key : Nat) : State :=
      match badLine? s key n with
      | some ln => commandError s b.launch b.core b.ctx (memoryFault ln)
      | none =>
        let (old, _, s) := performOp (touchCaches s b.core key true false) b.core (.atom op) key n 0 (8 * n) (BitVec.ofNat 2048 v)
        batchResult (put s 0 0) b.id i old
    match place with
    | .mem key => if isSp key && (!tileReady s (tileOf key) || batchWaits s b (lineOf key)) then s else at' s key
    | .untranslated va => match engineTranslate s b.core l.asid l.root.toNat va true with
      | .ok (key, s) => at' s key
      | .error (.trap t) => failWith s t
      | .error (.dead r) => commandError s b.launch b.core b.ctx r
    | .host a =>
      if hostFails s a n then commandError s b.launch b.core b.ctx (hostFault a)
      else
        let old := memRead s.hostMem a n
        batchResult (put { s with hostMem := memWrite s.hostMem a (atomicNew op (8 * n) old (v % 2 ^ (8 * n))).1 n } 0 0) b.id i old
    | .peer d off =>
      sendMsg (put s d off) d (.peerReq ⟨s.deviceId, batchReqId b.id i, d, off, .atom op, n, 0, 8 * n, BitVec.ofNat 2048 v, 0, b.core / 64⟩)
    | _ => s

/-- The next element of a batch, or its end: an element waits for the line of its operand alone (R139), and once every
element has its old value the phaser is signalled (R324). An element that reaches this device under PEER performs before
the next begins, so that elements of one byte perform in ascending order; the others do so too. DESIGN CHOICE, log 106. -/
def batchStep (s : State) (id : Nat) : State :=
  match s.batches.find? (·.id == id) with
  | none => s
  | some b =>
    let ready := tileReady s b.opnd && tileReady s b.res && !b.waiting.any (·.2.1 == s.deviceId)
    if b.next ≤ fld b.ctl 8 8 then
      match s.launch? b.launch with
      | some l => if ready && !batchWaits s b (b.opnd * 32 + b.next / 8) then batchElement s b l b.next else s
      | none => s
    else if b.waiting.isEmpty && ready then
      engineSignal (setFull { s with batches := s.batches.filter (·.id != id) } b.lines) b.core (fld b.ctl 40 6)
    else s

/-- The next line of a remote read, or its end (R325); its pages were translated at issue, so it never suspends. -/
def rreadStep (s : State) (id : Nat) : State :=
  match s.rreads.find? (·.id == id) with
  | none => s
  | some r =>
    if !tileReady s (tileOf r.dst) then s
    else match s.launch? r.launch, r.waiting with
      | none, _ => s
      | some _, [] => engineSignal (dropFetches { s with rreads := s.rreads.filter (·.id != id) } (id + 1024)) r.core r.ph
      | some l, (i, place) :: rest =>
        match engineRead s (id + 1024) r.core l.asid l.root.toNat place 128 with
        | (.val v, s) =>
          let s := { s with rreads := s.rreads.map fun x => if x.id == id then { x with waiting := rest } else x }
          setFull (externalWrite s (r.dst + 128 * i) 128 v) [lineOf r.dst + i]
        | (.dead f, s) => commandError s r.launch r.core r.ctx f
        | (_, s) => s

end Sys2Proof.Machine
end

