-- ==== Sys2Proof/Machine/Coll.lean ====
section
/-! DEFINITION. Collective groups and runs (R330 to R336): descriptors, the chunks and packets of a step, order checks, ends,
and the staggered signal (R358). -/
namespace Sys2Proof.Machine

/-- The Meaning column of R331 but for SPL and the fields of BUF and OUT, which `cdPlaces` checks. -/
def cdValid (d : BitVec 1024) : Bool :=
  spaceOf (cdf d 0 60 4) == some .va && cdf d 0 0 3 == 0
    && cdf d 1 0 7 == 0 && cdf d 2 0 7 == 0 && cdf d 3 0 5 == 0
    && 1 ≤ cdChunks d && 1 ≤ cdf d 4 16 16 && cdf d 4 16 16 ≤ 1024
    && (cdf d 5 40 6 < 48 || cdf d 5 40 6 == 63) && (cdf d 5 32 4 ≤ 6 || cdf d 5 32 4 == 9)
    && cdBytes d % 128 == 0

/-- BUF and OUT are SPL pointers (R331, R11). -/
def cdPlaces (d : BitVec 1024) : Bool :=
  let ok (p : W64) : Bool := spaceOf (fld p 60 4) == some .spl && !fieldBad .spl p
  ok (word d 1) && ok (cdOut d)

/-- BUF and OUT, over every chunk, lie in tiles of the scratchpad on the engine side (R331). -/
def cdStaged (s : State) (core : Nat) (d : BitVec 1024) : Bool :=
  let ok (p : W64) : Bool := fld p 0 22 + cdChunks d * cdBytes d ≤ s.spSize core
    && (tilesOf (cdLines core d p)).all s.engineTiles.contains
  ok (word d 1) && ok (cdOut d)

/-- A give of a tile of the run's BUF or OUT is still to take effect: no action of the run takes place (R134). -/
def runHeld (s : State) (r : CollRun) : Bool := r.tiles.any (giveWaits s)

/-- NRANK and MYRANK of a group (R330). -/
def groupRanks (s : State) (g : Nat) : Nat × Nat := (fld (s.group g 0) 16 16 + 1, fld (s.group g 0) 0 16)

/-- SEQ of a group (R330). -/
def groupSeq (s : State) (g : Nat) : Nat := fld (s.group g 0) 32 16

/-- Set a field of word 0 of a group. -/
def setGroup (s : State) (g lo n v : Nat) : State := s.setMmio 0 (0x400000 + 32 * g) (setFld (s.group g 0) lo n v)

/-- The device of a rank (R330). -/
def rankDevice (s : State) (g rank : Nat) : Nat := memRead s.mem (fld (s.group g 1) 0 48 + 2 * rank) 2

/-- The rank `delta` away, over NRANK ranks (R332). -/
def rankAt (s : State) (g : Nat) (delta : Int) : Nat :=
  let (n, me) := groupRanks s g
  ((me : Int) + delta) % n |>.toNat

/-- A signed field of a step word. -/
def sdelta (b : BitVec 8) : Int := b.toInt

/-- A run by number. -/
def State.run? (s : State) (id : Nat) : Option CollRun := s.runs.find? (·.id == id)

/-- Replace a run. -/
def State.putRun (s : State) (r : CollRun) : State := { s with runs := s.runs.map fun x => if x.id == r.id then r else x }

/-- The chunk that a step names (R332). -/
def stepChunk (s : State) (r : CollRun) (w : StepWord) : Nat :=
  let (_, me) := groupRanks s r.group
  let n : Int := cdChunks r.desc
  let c := ((me : Int) + sdelta w.cd) % n
  let less : Int := if w.csel == 1 then r.n0 else if w.csel == 2 then r.n1 else 0
  ((c - less) % n).toNat

/-- Elements of a chunk: the whole ones that it holds, where a TQ6 chunk has bits left over (R100, R331). DESIGN CHOICE, log
107. -/
def chunkElems (d : BitVec 1024) : Nat := 8 * cdBytes d / elemBits (cdFmt d)

/-- A chunk may be read now (R133, R139); a line that the run itself set empty still holds its input. DESIGN CHOICE, log 11. -/
def chunkReady (s : State) (r : CollRun) (p : W64) (c : Nat) : Bool :=
  (linesOf (cdKey r.core p (c * cdBytes r.desc)) (cdBytes r.desc)).all fun l =>
    tileReady s (l / 32) && (!s.emptyLines.contains l || r.lines.contains l)

/-- A chunk may be written now (R133). -/
def chunkWritable (s : State) (r : CollRun) (p : W64) (c : Nat) : Bool :=
  (linesOf (cdKey r.core p (c * cdBytes r.desc)) (cdBytes r.desc)).all fun l => tileReady s (l / 32)

/-- The bytes of a chunk. -/
def chunkRead (s : State) (r : CollRun) (p : W64) (c : Nat) : Nat := performRead s (cdKey r.core p (c * cdBytes r.desc)) (cdBytes r.desc)

/-- Write a chunk and set its lines full (R137). -/
def chunkWrite (s : State) (r : CollRun) (c v : Nat) : State :=
  let key := cdKey r.core (cdOut r.desc) (c * cdBytes r.desc)
  let n := cdBytes r.desc
  (linesOf key n).foldl (fun s l => setFull (externalWrite s (l * 128) 128 (v >>> (8 * (l * 128 - key)))) [l]) s

/-- A run that has written a chunk of OUT still has to write the other lines that it set empty (R137). -/
def CollRun.wrote (r : CollRun) (c : Nat) : CollRun :=
  let ls := linesOf (cdKey r.core (cdOut r.desc) (c * cdBytes r.desc)) (cdBytes r.desc)
  { r with lines := r.lines.filter fun l => !ls.contains l }

/-- An element as a 32-bit word of a reduction: FP32, or the integer itself for FMT 0x9 (R332). -/
def reduceWord (fmt : BitVec 4) (code : Nat) : W32 :=
  if fmt == 9 then BitVec.ofNat 32 code else (roundFp32 (decodeElem fmt code)).1

/-- The bytes of a number, little-endian. -/
def toBytes (v : Nat) : Nat → List Byte
  | 0 => []
  | n + 1 => BitVec.ofNat 8 v :: toBytes (v / 256) n

/-- The number of a list of bytes. -/
def ofBytes (l : List Byte) : Nat := l.foldr (fun b a => b.toNat + 256 * a) 0

/-- A chunk as the words of a reduction packet. -/
def packWords (d : BitVec 1024) (raw : Nat) : List W32 :=
  (List.range (chunkElems d)).map fun i => reduceWord (cdFmt d) (bits raw (i * elemBits (cdFmt d)) (elemBits (cdFmt d)))

/-- Words as bytes of a packet. -/
def wordsBytes (l : List W32) : List Byte := l.flatMap fun w => toBytes w.toNat 4

/-- Bytes of a packet as words. -/
def bytesWords (n : Nat) (l : List Byte) : List W32 := (List.range n).map fun i => BitVec.ofNat 32 (ofBytes ((l.drop (4 * i)).take 4))

/-- Encode words to the elements of a chunk: the number and the saturations (R332); an FP32 chunk takes the word itself
(R100). -/
def unpackWords (d : BitVec 1024) (l : List W32) : Nat × Nat :=
  let b := elemBits (cdFmt d)
  l.foldr (fun w (acc : Nat × Nat) =>
    if cdFmt d == 9 || cdFmt d == 6 then (w.toNat + acc.1 <<< b, acc.2)
    else
      let n := encodeElem (cdFmt d) true (fp32 w)
      (n.code + acc.1 <<< b, acc.2 + if n.saturated then 1 else 0)) (0, 0)

/-- The combination of an rrs, the packet first (R332); ROP 0 names none, and the result is then a free value (log 10). -/
def combine (rop : Nat) (fmt : BitVec 4) (free : Nat) (p l : W32) : W32 :=
  match rop with
  | 1 => if fmt == 9 then p + l else (fpAdd p l).1
  | 2 => if fmt == 9 then (if p.slt l then l else p) else fpMax p l
  | 3 => if fmt == 9 then (if p.slt l then p else l) else fpMin p l
  | _ => BitVec.ofNat 32 ((List.range 4).foldl (fun a i => a * 256 + (Sys2Proof.Config.freeByte (free + i)).toNat) 0)

/-- Send a packet of a run (R332, R334). -/
def sendPacket (s : State) (r : CollRun) (rank : Nat) (tag : Option Nat) (data : List Byte) : State :=
  let dev := rankDevice s r.group rank
  sendMsg s dev (.packet s.deviceId r.group r.seq r.opid tag data)

/-- The oldest packet from a rank for a run. -/
def nextPacket (s : State) (r : CollRun) (rank : Nat) : Option Packet :=
  let dev := rankDevice s r.group rank
  s.packets.find? fun p => p.src == dev && p.group == r.group && p.seq == r.seq

/-- Remove the first packet equal to one. -/
def dropPacket (s : State) (p : Packet) : State := { s with packets := s.packets.erase p }

/-- Note that a started step has named a rank (R334). -/
def CollRun.named (r : CollRun) (rank : Nat) : CollRun := { r with peers := sinsert r.peers rank }

/-- A run ends with a status (R333). -/
def CollRun.ended (r : CollRun) (st : Nat) : CollRun := { r with status := some st }

/-- A `send` or `recv` that has started names its peer (R332, R334). -/
def namesPeer (s : State) (w : StepWord) (r : CollRun) : CollRun := r.named (rankAt s r.group (sdelta w.pd))

/-- An `rrs` that has started names the rank it receives from and the rank it sends to (R332, R334). -/
def namesBoth (s : State) (w : StepWord) (r : CollRun) : CollRun :=
  (r.named (rankAt s r.group (-(sdelta w.pd)))).named (rankAt s r.group (sdelta w.pd))

/-- An order mismatch on a group (R334): every run on it ends with STATUS 2, CANC is set, and the mailbox gets
COLL_ORDER, after the records of the runs that end (R333). -/
def orderMismatch (s : State) (g seq : Nat) : State :=
  let hit (r : CollRun) : Bool := r.group == g && r.status.isNone
  let v : W64 := BitVec.ofNat 64 (1 <<< 56 ||| g <<< 32 ||| seq)
  let w := s.group g 2
  if s.runs.any hit then
    setGroup { s with runs := s.runs.map fun r => if hit r then { r.ended 2 with event := some v } else r } g 62 1 1
  else if (s.group g 0).getLsbD 62 then s
  else
    let s := setGroup s g 62 1 1
    if fld w 6 1 == 1 then mailboxPost s 0 (fld w 0 6) v else s

/-- Packets that waited at the ingress for the SEQ of a run with another OPID (R332, R334). -/
def clashes (s : State) (r : CollRun) : List Packet :=
  s.packets.filter fun p => p.group == r.group && p.seq == r.seq && p.opid != r.opid

/-- The packets of another OPID that a run meets at its start: each is dropped and its sender told, and the mismatch is acted
on (R334). -/
def startClash (s : State) (r : CollRun) : State :=
  orderMismatch ((clashes s r).foldl (fun s p => sendMsg (dropPacket s p) p.src (.mismatch r.group r.seq)) s) r.group r.seq

/-- Run a step on a run that has not ended and meets no packet of another OPID; `f` answers the run with its step done, or none
where it must wait: the step has then started, and `names` adds the peers it names (R334). -/
def collStep (s : State) (run : Nat) (names : CollRun → CollRun) (f : CollRun → Option (State × CollRun)) : State :=
  match s.run? run with
  | none => s
  | some r =>
    if r.status.isSome || runHeld s r then s
    else if !(clashes s r).isEmpty then startClash s r
    else match f r with
      | none => s.putRun { names r with started := true }
      | some (s, r) => s.putRun { r with started := true }

/-- The run after its step. -/
def CollRun.next (r : CollRun) : CollRun := { r with step := r.step + 1 }

/-- `send` (R332). -/
def doSend (s : State) (w : StepWord) (r : CollRun) : Option (State × CollRun) :=
  let c := stepChunk s r w
  let p := rankAt s r.group (sdelta w.pd)
  if !chunkReady s r (word r.desc 1) c then none
  else
    let raw := chunkRead s r (word r.desc 1) c
    let (tag, data) := if w.start == 1 then (some (groupRanks s r.group).2, wordsBytes (packWords r.desc raw))
      else (none, toBytes raw (cdBytes r.desc))
    some (sendPacket s r p tag data, (r.named p).next)

/-- `recv` (R332). -/
def doRecv (s : State) (w : StepWord) (r : CollRun) : Option (State × CollRun) :=
  let c := stepChunk s r w
  let p := rankAt s r.group (sdelta w.pd)
  match nextPacket s r p with
  | none => none
  | some pk =>
    if !chunkWritable s r (cdOut r.desc) c then none
    else
      let (v, sat) := match pk.tag with
        | none => (ofBytes pk.data, 0)
        | some _ => unpackWords r.desc (bytesWords (chunkElems r.desc) pk.data)
      some (chunkWrite (dropPacket s pk) r c v, { ((r.named p).next).wrote c with satcnt := r.satcnt + sat })

/-- `rrs` (R332): a packet with any tag but MYRANK − 1 is refused, and the run ends with STATUS 3. -/
def doRrs (s : State) (w : StepWord) (r : CollRun) : Option (State × CollRun) :=
  let c := stepChunk s r w
  let (_, me) := groupRanks s r.group
  let src := rankAt s r.group (-(sdelta w.pd))
  let dst := rankAt s r.group (sdelta w.pd)
  match nextPacket s r src with
  | none => none
  | some pk =>
    if !(pk.tag.map (· + 1) == some me) then some (dropPacket s pk, ((r.named src).named dst).ended 3)
    else if !chunkReady s r (word r.desc 1) c || (w.store == 1 && !chunkWritable s r (cdOut r.desc) c) then none
    else
      let own := packWords r.desc (chunkRead s r (word r.desc 1) c)
      let got := bytesWords (chunkElems r.desc) pk.data
      let sum := (List.range own.length).map fun i => combine (cdRop r.desc) (cdFmt r.desc) (s.free + 4 * i) (got.getD i 0) (own.getD i 0)
      let s := { s with free := s.free + 4 * own.length }
      let (v, sat) := unpackWords r.desc sum
      let r' := (((r.named src).named dst).next)
      let s := dropPacket s pk
      let s := if w.store == 1 then chunkWrite s r c v else s
      some (sendPacket s r dst (some me) (wordsBytes sum), if w.store == 1 then { r'.wrote c with satcnt := r.satcnt + sat } else r')

/-- `copy` (R332). -/
def doCopy (s : State) (w : StepWord) (r : CollRun) : Option (State × CollRun) :=
  let c := stepChunk s r w
  if !chunkReady s r (word r.desc 1) c || !chunkWritable s r (cdOut r.desc) c then none
  else some (chunkWrite s r c (chunkRead s r (word r.desc 1) c), r.next.wrote c)

/-- `wait` (R332): the phase that is open when the step starts. -/
def doWait (s : State) (w : StepWord) (r : CollRun) : Option (State × CollRun) :=
  let slot := w.arg.toNat % 64
  let ph := s.phaser r.core slot
  match r.phase with
  | none => some (s, { r with phase := some (slot, ph.phase) })
  | some (_, p) =>
    if phaseDone ph.phase p then
      let r' := { r.next with phase := none }
      some ((s.putRun r').releasePhase r.core slot, r')
    else none

/-- `loop` (R332). -/
def doLoop (s : State) (w : StepWord) (r : CollRun) : Option (State × CollRun) :=
  let n := (if w.cnt == 1 then r.n1 else r.n0) + 1
  let (n, step) := if n < w.limit.toNat then (n, w.arg.toNat) else (0, r.step + 1)
  some (s, if w.cnt == 1 then { r with n1 := n, step := step } else { r with n0 := n, step := step })

/-- The record of a run (R333). -/
def runRecordWords (r : CollRun) : Nat :=
  (r.group <<< 48 ||| r.seq <<< 32 ||| r.step <<< 16 ||| r.status.getD 0)
    ||| ((r.satcnt % 2 ^ 32) <<< 32 ||| r.n1 <<< 16 ||| r.n0) <<< 64

/-- Write the record of a run that has ended (R333, R418); where its pointer fails, none is written. -/
def runRecord (s : State) (r : CollRun) : RecordWrite × State :=
  if word r.desc 3 == 0 then (.done, s)
  else match s.launch? r.launch with
    | none => (.done, s)
    | some l =>
      match recordPlace s (l.who r.core) l.asid l.root.toNat (word r.desc 3) 32 true with
      | .error (.trap _) => (.done, s)
      | .error (.dead f) => (.dead f, s)
      | .ok (place, s) => writeRecord s (r.id + 1024) place 32 (runRecordWords r)

/-- Write the record of an ended run, once; a write that fails at the host discards the launch (R32). -/
def recordRun (s : State) (r : CollRun) : State × CollRun :=
  if r.recorded then (s, r)
  else match runRecord s r with
    | (.done, s) => (s, { r with recorded := true })
    | (.dead f, s) => (commandError s r.launch r.core r.ctx f, { r with recorded := true })
    | (.wait, s) => (s, r)

/-- The delay of a run's phaser signal in clk, if it is staggered (R358). -/
def staggerDelay (s : State) (r : CollRun) : Option Nat :=
  let w := s.mmioWord 0 0x310
  if w.getLsbD 31 && (s.mmioWord 0 0x318).getLsbD r.group then
    some ((groupRanks s r.group).2 % max 1 (fld w 0 7) * 1200)
  else none

/-- The event of a run whose record is written reaches the group's mailbox once every run that it concerns has its record
(R333, R334); none where it has still to wait. -/
def runEvent (s : State) (r : CollRun) : Option State :=
  match r.event with
  | none => some s
  | some v =>
    let same (x : CollRun) : Bool := x.group == r.group && x.event == some v
    if s.runs.any fun x => same x && x.id != r.id && !x.recorded then none
    else
      let w := s.group r.group 2
      let s := if fld w 6 1 == 1 then mailboxPost s 0 (fld w 0 6) v else s
      some { s with runs := s.runs.map fun x => if same x then { x with event := none } else x }

/-- The phaser signal of a run, at once or staggered (R333, R358); a run that a cancel or a discard stopped sends none
(R147). -/
def runSignal (s : State) (r : CollRun) : State :=
  let ph := cdf r.desc 5 40 6
  if r.stop then s
  else match staggerDelay s r with
    | some d => { s with staggers := s.staggers ++ [⟨r.core, r.ctx, ph, r.launch, s.clk + d⟩] }
    | none => engineSignal s r.core ph

/-- The end of a run (R333): the record, the mailbox's event, then the phaser signal. Lines of OUT that the run set empty
and has not written become full. A wait step that the end cuts short records its phase no more (R267). -/
def endRun (s : State) (run : Nat) : State :=
  match s.run? run with
  | none => s
  | some r =>
    if runHeld s r && !r.stop then s
    else
      let r := { r with status := some (r.status.getD 0) }
      match recordRun s r with
      | (s, r) =>
        if !r.recorded then s.putRun r
        else match runEvent s r with
          | none => s.putRun r
          | some s =>
            let s := setFull { s with runs := s.runs.filter (·.id != run) } r.lines
            let s := match r.phase with
              | some (slot, _) => s.releasePhase r.core slot
              | none => s
            runSignal (dropFetches s (r.id + 1024)) r

/-- A staggered signal that is due is sent (R358). -/
def staggerSend (s : State) (i : Nat) : State :=
  match s.staggers[i]? with
  | some g => if g.due ≤ s.clk then engineSignal { s with staggers := s.staggers.eraseIdx i } g.core g.slot else s
  | none => s

/-- A packet or check flit with a run's SEQ and another OPID (R334); a run that a give still holds back takes no action (R134). -/
def opidClash (s : State) (g seq opid : Nat) : Bool :=
  s.runs.any fun r => r.group == g && r.seq == seq && r.status.isNone && r.opid != opid && !runHeld s r

/-- A packet arrives (R332, R334). -/
def receivePacket (s : State) (p : Packet) : State :=
  if opidClash s p.group p.seq p.opid then orderMismatch (sendMsg s p.src (.mismatch p.group p.seq)) p.group p.seq
  else { s with packets := s.packets ++ [p] }

/-- A check flit arrives (R334). -/
def receiveCheck (s : State) (src g seq opid : Nat) : State :=
  if opidClash s g seq opid then orderMismatch (sendMsg s src (.mismatch g seq)) g seq else s

/-- Every running run sends a check flit to each peer it has named (R334). -/
def checkTick (s : State) : State :=
  (s.runs.filter (·.status.isNone)).foldl (fun s r => r.peers.foldl (fun s p =>
    sendMsg s (rankDevice s r.group p) (.check s.deviceId r.group r.seq r.opid)) s) s

/-- A step word of a run (R331, R332). -/
def collWord (s : State) (r : CollRun) (i : Nat) : EngineRead × State :=
  match s.launch? r.launch with
  | none => (.wait, s)
  | some l => launchRecord s l (r.id + 1024) r.core (word r.desc 0 + BitVec.ofNat 64 (8 * i)) 8

/-- The peers that a run's program names (R335). -/
def programPeers (s : State) (r : CollRun) : List Nat :=
  (List.range (cdf r.desc 4 16 16)).foldl (fun ps i =>
    match (collWord s r i).1 with
    | .val v =>
      let w := BitVec.ofNat 64 v
      let d := sdelta (w.extractLsb' 48 8)
      if fld w 60 4 == 0 || fld w 60 4 == 1 then sinsert ps (rankAt s r.group d)
      else if fld w 60 4 == 2 then sinsert (sinsert ps (rankAt s r.group d)) (rankAt s r.group (-d))
      else ps
    | _ => ps) r.peers

/-- `coll.abort` of a group (R335). -/
def abortGroup (s : State) (g : Nat) : State :=
  (s.runs.filter fun r => r.group == g && r.status.isNone).foldl (fun s r =>
    let s := (programPeers s r).foldl (fun s p => sendMsg s (rankDevice s g p) (.abort g r.seq)) s
    s.putRun (r.ended 1)) s

/-- An abort flit arrives (R335). -/
def abortRun (s : State) (g seq : Nat) : State :=
  { s with runs := s.runs.map fun r => if r.group == g && r.seq == seq && r.status.isNone then r.ended 1 else r }

/-- Accept a run (R333, R137): the group's SEQ is assigned; the lines of OUT become empty, but for those that another command
is still to fill (log 11). DESIGN CHOICE, log 79. -/
def acceptRun (s : State) (k : Nat) (d : BitVec 1024) : State :=
  let g := cdf d 4 0 6
  let core := k / 4
  let (id, s) := s.fresh
  let seq := groupSeq s g
  let out := (cdLines core d (cdOut d)).filter fun l => !s.emptyLines.contains l
  let r : CollRun := ⟨id, core / 64, core, k % 4, (s.ctx k).unit.launch, g, seq, cdf d 4 32 16, d, 0, 0, 0, 0, none, false, [], none, false, out, false, none⟩
  let s := noteTiles { s with runs := s.runs ++ [r] } core (k % 4) r.launch r.tiles
  setEmpty (setGroup s g 32 16 (seq + 1)) out

end Sys2Proof.Machine
end

