-- ==== Sys2Proof/Machine/Noise.lean ====
section
/-! DEFINITION. The WOAD generator and the noise of an element (R370, R371), shared by the matrix engine at fetch (R310) and
MORDANT at replay (R382), and the CRC of log entries (R373). -/
namespace Sys2Proof.Machine

/-- The four words of WOAD's state (R370). -/
structure Woad where
  (x0 x1 x2 x3 : BitVec 16)
deriving DecidableEq, Repr

/-- One round of WOAD with its constant (R370). -/
def Woad.round (w : Woad) (c : BitVec 16) : Woad :=
  let x0 := w.x0 + w.x1
  let x3 := (w.x3 ^^^ x0).rotateLeft 5
  let x2 := w.x2 + x3
  let x1 := (w.x1 ^^^ x2).rotateLeft 9
  ⟨x0 ^^^ c, x1, x2, x3⟩

/-- WOAD (R370). -/
def woad (seed : W32) (t : BitVec 12) (stream : Nat) (block : W32) : W64 :=
  let w : Woad := ⟨seed.extractLsb' 0 16, seed.extractLsb' 16 16,
    (BitVec.ofNat 4 stream ++ t) ^^^ block.extractLsb' 16 16, block.extractLsb' 0 16⟩
  let w := (((w.round 0x3C6E).round 0xA5D2).round 0x1B97).round 0xE048
  w.x3 ++ w.x2 ++ w.x1 ++ w.x0

/-- The magnitudes of table mode as 64 × Q (R310). -/
def noiseTable : List Nat := [5, 15, 26, 37, 50, 64, 84, 120]

/-- The noise of the element with linear index `l` (R371). -/
def eps (seed : W32) (t : BitVec 12) (l mode : Nat) (anti : Bool) : Num :=
  let bk := BitVec.ofNat 32 (l / 64 % 2 ^ 32)
  let bit (s : Nat) : Nat := if (woad seed t s bk).getLsbD (l % 64) then 1 else 0
  let neg := (bit 0 == 1) != anti
  if mode == 2 then .fin neg (noiseTable.getD (4 * bit 3 + 2 * bit 2 + bit 1) 0) (-6) else .fin neg 1 0

/-- One bit of the reflected CRC-32C (R373). -/
def crcBit (c : W32) : W32 := if c.getLsbD 0 then (c >>> 1) ^^^ 0x82F63B78 else c >>> 1

/-- CRC-32C of the low `n` bytes of a number, in ascending byte order, from a running value (R373). -/
def crcFrom (c : W32) (v : Nat) : Nat → W32
  | 0 => c
  | n + 1 =>
    let x := c ^^^ BitVec.ofNat 32 (v % 256)
    crcFrom (crcBit (crcBit (crcBit (crcBit (crcBit (crcBit (crcBit (crcBit x)))))))) (v / 256) n

/-- CRC-32C of the low `n` bytes of a number (R373). -/
def crc32c (v n : Nat) : W32 := ~~~(crcFrom 0xFFFFFFFF v n)

end Sys2Proof.Machine
end

