-- ==== Sys2Proof/Machine/LogUnit.lean ====
section
/-! DEFINITION. The pair log: entries and ring (R373, R374), its registers (R375 to R377), the tree that carries it (R378,
R379, R422), and replay by MORDANT (R380 to R386, R425). -/
namespace Sys2Proof.Machine

/-- LOGCTL (R375). -/
def logCtl (s : State) : W64 := s.mmioWord 0 0x500000
/-- LOGCFG (R375). -/
def logCfg (s : State) : W64 := s.mmioWord 0 0x500008
/-- LOGPOS (R375). -/
def logPos (s : State) : W64 := s.mmioWord 0 0x500028
/-- EN of LOGCTL (R375). -/
def logEn (s : State) : Bool := (logCtl s).getLsbD 63
/-- N, the ranks of the job (R375). -/
def logN (s : State) : Nat := fld (logCtl s) 16 16 + 1
/-- RANK (R375). -/
def logRank (s : State) : Nat := fld (logCtl s) 0 16
/-- ASID (R375). -/
def logAsid (s : State) : Nat := fld (logCtl s) 32 16
/-- GROUP (R375). -/
def logGroup (s : State) : Nat := fld (logCfg s) 38 6
/-- CURSOR (R375). -/
def logCursor (s : State) : Nat := fld (logPos s) 0 48
/-- STATE of LOGPOS (R375). -/
def logState (s : State) : Nat := fld (logPos s) 61 3
/-- LIMIT (R375). -/
def logLimit (s : State) : Nat := fld (s.mmioWord 0 0x500030) 0 48

/-- Set STATE of LOGPOS. DEDUCED, log 39. -/
def setLogState (s : State) (st : Nat) : State := s.setMmio 0 0x500028 (setFld (logPos s) 61 3 st)
/-- Set CURSOR. -/
def setCursor (s : State) (q : Nat) : State := s.setMmio 0 0x500028 (setFld (logPos s) 0 48 q)
/-- Clear EN of LOGCTL. -/
def clearLogEn (s : State) : State := s.setMmio 0 0x500000 (setFld (logCtl s) 63 1 0)
/-- Count a late entry (R378). -/
def countLate (s : State) : State :=
  let w := s.mmioWord 0 0x500038
  s.setMmio 0 0x500038 (setFld w 32 32 (fld w 32 32 + 1))

/-- The key of the ring slot of a sequence number (R374). -/
def ringKey (s : State) (q : Nat) : Nat :=
  let r := s.mmioWord 0 0x500018
  dramKey (ptrCore r) (fld r 0 30 + 32 * (q % 65536))

/-- A field of a log entry (R373). -/
def lfld (e : BitVec 256) (w lo n : Nat) : Nat := fld (word e w) lo n
/-- SEQ (R373). -/
def entrySeq (e : BitVec 256) : Nat := lfld e 0 0 48

/-- A log entry from its three data words, with its CRC (R373). -/
def sealEntry (w0 w1 w2 : Nat) : BitVec 256 :=
  let body := w0 + w1 <<< 64 + w2 <<< 128
  BitVec.ofNat 256 (body + (crc32c body 24).toNat <<< 192)

/-- The entry that a device posts (R374): V = 1, REL = 0, VOID = 0. -/
def postedEntry (seq n rank seed tg score : Nat) : BitVec 256 :=
  sealEntry (seq ||| (seq / n % 65536) <<< 48) (rank ||| tg <<< 16 ||| seed <<< 32) (score ||| 1 <<< 32)

/-- The VOID entry of a rank (R373, R378). -/
def voidEntry (seq n rank : Nat) : BitVec 256 :=
  sealEntry (seq ||| (seq / n % 65536) <<< 48) (rank ||| 0xFFFF <<< 16) (1 <<< 32 ||| 1 <<< 33)

/-- An entry with REL = 1 and its CRC computed again (R378). -/
def releaseEntry (e : BitVec 256) : BitVec 256 := sealEntry (word e 0).toNat (word e 1).toNat ((word e 2).toNat ||| 1 <<< 34)

/-- The entry in the slot of a sequence number. -/
def ringEntry (s : State) (q : Nat) : BitVec 256 := BitVec.ofNat 256 (performRead s (ringKey s q) 32)

/-- A slot is free for a sequence number (R374). -/
def slotFree (s : State) (q : Nat) : Bool :=
  let e := ringEntry s q
  lfld e 2 32 1 == 0 || entrySeq e == q || entrySeq e < logCursor s

/-- A slot holds a valid entry with this sequence number, its released copy has arrived (R379), or a committed append of it has yet
to take effect (R374). DEDUCED, log 38. -/
def logHeld (s : State) (q : Nat) : Bool :=
  let e := ringEntry s q
  (lfld e 2 32 1 == 1 && entrySeq e == q) || s.log.arrived.any (entrySeq · == q)
    || s.ctxs.any fun (_, c) => c.pend.any fun p => match p.kind with
        | .release _ (.append x _) => x == q
        | _ => false

/-- The slot of a sequence number is ready (R380). -/
def slotReady (s : State) (q : Nat) : Bool :=
  let e := ringEntry s q
  lfld e 2 32 1 == 1 && lfld e 2 34 1 == 1 && entrySeq e == q && lfld e 1 0 16 == q % logN s
    && lfld e 0 48 16 == q / logN s % 65536 && lfld e 3 0 32 == (crc32c (e.toNat % 2 ^ 192) 24).toNat

/-- Write a ring slot (R379). -/
def writeSlot (s : State) (e : BitVec 256) : State := externalWrite s (ringKey s (entrySeq e)) 32 e.toNat

/-- Released entries that wait at the ingress are written once their slots are free (R374, R379), while the log is enabled
(R378). DEDUCED, log 99. -/
def writeArrived (s : State) : State :=
  if !logEn s then s
  else s.log.arrived.foldl (fun s e =>
    if slotFree s (entrySeq e) then writeSlot s e else { s with log := { s.log with arrived := s.log.arrived ++ [e] } })
    { s with log := { s.log with arrived := [] } }

/-- A released entry reaches this device (R378, R379, R422): while the group is defined it goes on to the children, and it is
written unless LOGDROP names it or the log is off. The launch that appended it awaits it no more (R396). -/
def receiveReleased (s : State) (e : BitVec 256) : State :=
  let member := fld (s.group (logGroup s) 0) 63 1 == 1
  if !member && !logEn s then s
  else
    let s := { s with log := { s.log with
      down := if member then s.log.down ++ [e] else s.log.down, owners := s.log.owners.filter fun x => x.1 != entrySeq e } }
    let drop := s.mmioWord 0 0x500040
    if !logEn s then s
    else if drop.getLsbD 63 && fld drop 0 48 == entrySeq e then s.setMmio 0 0x500040 (setFld drop 63 1 0)
    else writeArrived { s with log := { s.log with arrived := s.log.arrived ++ [e] } }

/-- The entries that rank 0 holds of a round. -/
def heldOf (s : State) (r : Nat) : List (BitVec 256) := s.log.held.filter fun e => entrySeq e / logN s == r

/-- Rank 0 releases the next round (R378): VOID entries stand for those that it lacks. -/
def releaseRound (s : State) : State :=
  let r := s.log.released
  let n := logN s
  let es := (List.range n).map fun k =>
    let q := r * n + k
    releaseEntry (((heldOf s r).find? (entrySeq · == q)).getD (voidEntry q n k))
  writeArrived { s with log := { s.log with
    held := s.log.held.filter (fun e => entrySeq e / n != r), down := s.log.down ++ es, arrived := s.log.arrived ++ es
    released := r + 1, ticks := 0 } }

/-- Rank 0 holds every entry of the next round (R378). -/
def roundFull (s : State) : Bool :=
  (List.range (logN s)).all fun k => (heldOf s s.log.released).any (entrySeq · == s.log.released * logN s + k)

/-- Release full rounds in ascending order, at most `fuel` of them (R378). -/
def releaseFull (s : State) : Nat → State
  | 0 => s
  | fuel + 1 => if logEn s && logRank s == 0 && roundFull s then releaseFull (releaseRound s) fuel else s

/-- An entry on its way up the tree reaches this device, or is its own (R378): rank 0 releases a round as soon as it holds all N
entries of it. -/
def receiveUp (s : State) (e : BitVec 256) : State :=
  if fld (s.group (logGroup s) 0) 63 1 == 0 then s
  else if (groupRanks s (logGroup s)).2 != 0 then { s with log := { s.log with up := s.log.up ++ [e] } }
  else if !logEn s || entrySeq e / logN s < s.log.released then countLate s
  else if s.log.held.any (entrySeq · == entrySeq e) then s
  else
    let s := { s with log := { s.log with held := s.log.held ++ [e] } }
    releaseFull s s.log.held.length

/-- A committed `log.append` of a launch takes effect (R337, R338): the slot is written and the entry handed on. -/
def appendNow (s : State) (launch : Nat) (e : BitVec 256) : State :=
  let s := receiveUp (writeSlot s e) e
  if s.log.up.contains e then { s with log := { s.log with owners := tset s.log.owners (entrySeq e) launch } } else s

/-- An entry is queued at a port's egress. -/
def egressHolds (p : Port) (q : Nat) : Bool :=
  p.egress.any fun x => match x.1 with
    | .logUp e => entrySeq e == q
    | _ => false

/-- At each boundary a device sends its new entries up and the released ones down the tree of the group (R378); rank 0
counts the ticks of the round it waits for, and MORDANT those of its slot (R381). -/
def logTick (s : State) : State :=
  let s := { s with log := { s.log with
    ticks := if logRank s == 0 && logEn s && !(heldOf s s.log.released).isEmpty then s.log.ticks + 1 else s.log.ticks
    gapTicks := if logState s == 2 then s.log.gapTicks + 1 else s.log.gapTicks } }
  let g := logGroup s
  if fld (s.group g 0) 63 1 == 0 then s
  else
    let (n, rank) := groupRanks s g
    let ups := s.log.up
    let downs := s.log.down
    let s := { s with log := { s.log with up := [], down := [] } }
    let s := if rank == 0 then s else ups.foldl (fun s e => sendMsg s (rankDevice s g ((rank - 1) / 2)) (.logUp e)) s
    let kids := [2 * rank + 1, 2 * rank + 2].filter (· < n)
    let s := kids.foldl (fun s k => downs.foldl (fun s e => sendMsg s (rankDevice s g k) (.logDown e)) s) s
    writeArrived (releaseFull s 65536)

/-- KT ticks have passed: rank 0 releases the round with VOID entries (R378). -/
def voidTimeout (s : State) : State :=
  if logEn s && logRank s == 0 && !(heldOf s s.log.released).isEmpty && fld (logCfg s) 16 16 ≤ s.log.ticks then releaseRound s else s

/-- Tensor slot `n` (R377). -/
def tensorSlot (s : State) (n : Nat) : W64 := s.mmioWord 0 (0x501000 + 8 * n)

/-- Formats of an operand copy (R377). -/
def operandFmt (f : BitVec 4) : Bool := f.toNat ≤ 5

/-- Two descriptors have one rank and the same extents (R377). -/
def sameShape (d d' : BitVec 1024) : Bool := dRank d == dRank d' && (List.range (dRank d)).all fun i => dExt d i == dExt d' i

/-- The slots in use. -/
def slotsUsed (s : State) : List Nat := (List.range 256).filter fun n => (tensorSlot s n).getLsbD 63

/-- The conditions of R377 on the slots in use. -/
def tensorSlotsOk (s : State) : Bool :=
  let used := slotsUsed s
  let mt (n : Nat) : Nat := fld (tensorSlot s n) 0 12
  let ot (n : Nat) : Nat := fld (tensorSlot s n) 12 12
  used.all fun n =>
    let m := s.descriptor (mt n)
    let o := s.descriptor (ot n)
    let mode := fld (tensorSlot s n) 60 2
    (mode == 1 || mode == 2) && descValid (mt n) m && descValid (ot n) o && sameShape m o && dFmt m == 6 && operandFmt (dFmt o)
      && used.all fun k => k == n || (mt k != mt n && mt k != ot n && ot k != mt n && ot k != ot n)

/-- The conditions under which EN = 1 takes effect, with LOGCTL as it would be (R376). -/
def logMayStart (s : State) : Bool :=
  let ring := s.mmioWord 0 0x500018
  let g := s.group (logGroup s) 0
  let a := fp32 ((s.mmioWord 0 0x500010).extractLsb' 0 32)
  logState s == 0 && logRank s ≤ fld (logCtl s) 16 16 && !a.isNan && !a.isInf
    && spaceOf (fld ring 60 4) == some .pdv && !fieldBad .pdv ring && ring.toNat % 2 ^ 21 == 0 && fld ring 0 30 ≤ 0x2FE00000
    && logCursor s % logN s == 0 && g.getLsbD 63 && fld g 16 16 == fld (logCtl s) 16 16 && fld g 0 16 == logRank s
    && tensorSlotsOk s

/-- A write of LOGCTL with EN = 1 (R376). The other fields are stored first; a write while EN is already 1 changes nothing
(log 13). The round that rank 0 releases next never falls. DESIGN CHOICE, log 104. -/
def logStart (s : State) (v : W64) : State :=
  if logEn s then s
  else
    let t := s.setMmio 0 0x500000 (setFld (setFld (v &&& 0x8000FFFFFFFFFFFF#64) 63 1 0) 48 15 0)
    if logMayStart t then
      let t := t.setMmio 0 0x500000 (setFld (logCtl t) 63 1 1)
      { t with log := { t.log with released := max t.log.released (logCursor t / logN t), ticks := 0, gapTicks := 0 } }
    else t

/-- A write of EN = 0 (R376): waits and stalls end; a round that is being applied is finished first. -/
def logStop (s : State) : State :=
  let s := clearLogEn s
  if logState s == 1 then s else setLogState s 0

/-- Event value to the mailbox of the log (R384, R385). -/
def logEvent (s : State) (v : Nat) : State := mailboxPost s 0 (fld (logCfg s) 44 6) (BitVec.ofNat 64 v)

/-- MORDANT stops with a fault (R385): STATE 4, the event value, and a record without a launch that lists the tensors of
the slots in use as undefined. -/
def logFault (s : State) (cause : Nat) : State :=
  let s := setLogState s 4
  let s := logEvent s (3 <<< 56 ||| cause <<< 48 ||| logCursor s)
  let regions := (slotsUsed s).flatMap fun n =>
    [BitVec.ofNat 64 (2 <<< 61 ||| fld (tensorSlot s n) 0 12), BitVec.ofNat 64 (2 <<< 61 ||| fld (tensorSlot s n) 12 12)]
  (postRecord s { faultRec 3 4 0x17 cause with device := s.deviceId, regions := regions }).2

/-- Where a block scale stands (R92): on this device, in host memory, or on a device under PEER. -/
inductive ScaleAt where
  | mem (key : Nat)
  | host (addr : Nat)
  | peer (device off : Nat)
deriving DecidableEq, Repr

/-- What an element of a tensor slot resolves to at replay (R425). -/
inductive Target where
  | skip
  | bad (cause : Nat)
  /-- key of the master, of the operand's first byte with its bit, and the place of the block scale if there is one -/
  | at (master operand bit : Nat) (scale : Option ScaleAt)
deriving DecidableEq, Repr

/-- A place that MORDANT reads holds no uncorrectable error (R385). -/
def mordantReads (s : State) (key n : Nat) : Except Nat Nat := if (badLine? s key n).isSome then .error 3 else .ok key

/-- Translate a virtual address under LOGROOT (R425): a key or a fault's cause; PHYS is a failed translation (R20). -/
def mordantWalk (s : State) (va : Nat) (write : Bool) : Except Nat Nat :=
  match walkNow s (s.mmioWord 0 0x500020).toNat va write with
  | .page size frame _ => .ok (frame + va % size)
  | .fault _ => .error 4
  | .phys => .error 4
  | .bad _ => .error 3

/-- An element's pointer keeps the tag of its base and the alignment of an access of `n` bytes (R26, R29, R41). -/
def elementAligned (base p : W64) (n : Nat) : Bool := fld base 60 4 == fld p 60 4 && p.toNat % n == 0

/-- The key of a master element's pointer (R425): a vault of this device, none for one to skip, or a fault's cause. -/
def masterKey (s : State) (base p : W64) : Except Nat (Option Nat) :=
  if !elementAligned base p 4 then .error 1
  else match spaceOf (fld p 60 4) with
  | some .pdv =>
    if fieldBad .pdv p || 0x30000000 < fld p 0 30 + 4 then .error 1 else (mordantReads s (dramKey (ptrCore p) (fld p 0 30)) 4).map some
  | some .va =>
    if fieldBad .va p then .error 1
    else match mordantWalk s (fld p 0 48) true with
      | .ok key => if isDram key then (mordantReads s key 4).map some else .error 1
      | .error c => .error c
  | some .peer => if fld p 44 16 == s.deviceId then .error 1 else .ok none
  | _ => .error 1

/-- The key of `n` bytes at a scratchpad pointer, with a column as the own column; none where it names no scratchpad byte. -/
def scratchKey (s : State) (column : Nat) (p : W64) (n : Nat) : Option Nat :=
  match spaceOf (fld p 60 4) with
  | some .spl => if fieldBad .spl p || s.spSize column < fld p 0 22 + n then none else some (spKey column (fld p 22 2) (fld p 0 22))
  | some .spd =>
    if fieldBad .spd p || s.spSize (ptrCore p) < fld p 0 22 + n then none else some (spKey (ptrCore p) (fld p 22 2) (fld p 0 22))
  | _ => none

/-- The key of an operand element of `b` bits at a bit of its pointer, for a master in the vault of a column (R425). -/
def operandKey (s : State) (column : Nat) (base p : W64) (bit b : Nat) : Option Nat :=
  if elementAligned base p (max 1 (b / 8)) then scratchKey s column p ((bit + b + 7) / 8) else none

/-- Causes of a failed resolution (R385). -/
def resolveCause (t : Trap) : Nat := if t.cls == 0x05 then 2 else 1

/-- The owner number of MORDANT's reads of other devices. -/
def mordantOwner : Nat := 2 ^ 51

/-- The place of a block scale's pointer (R92), read for a master in the vault of a column, where a VA is translated under
LOGROOT; a scale that cannot be read is a memory error. DEDUCED, log 100. -/
def replayScale (s : State) (column : Nat) (p : W64) : Except Nat ScaleAt :=
  match spaceOf (fld p 60 4) with
  | some .pdv => if fieldBad .pdv p || 0x30000000 ≤ fld p 0 30 then .error 1 else at' (dramKey (ptrCore p) (fld p 0 30))
  | some .cdv => if fieldBad .cdv p || 0x30000000 ≤ fld p 0 30 then .error 1 else at' (dramKey column (fld p 0 30))
  | some .va =>
    if fieldBad .va p then .error 1
    else match mordantWalk s (fld p 0 48) false with
      | .ok key => at' key
      | .error c => .error c
  | some .host => if fieldBad .host p then .error 1 else if hostFails s (fld p 0 57) 1 then .error 3 else .ok (.host (fld p 0 57))
  | some .peer =>
    let d := fld p 44 16
    if d != s.deviceId && (s.route d).isNone then .error 1
    else if fetched s mordantOwner d (fld p 0 44) 1 == some none then .error 3
    else .ok (.peer d (fld p 0 44))
  | _ => match scratchKey s column p 1 with
    | some key => at' key
    | none => .error 1
where
  at' (key : Nat) : Except Nat ScaleAt := (mordantReads s key 1).map .mem

/-- The value of a block scale can be read now: a scratchpad tile is on the engine side and its line full (R133, R139), the answer
of another device is there. -/
def scaleReady (s : State) : ScaleAt → Bool
  | .mem key => !isSp key || (tileReady s (tileOf key) && !lineEmpty s key)
  | .host _ => true
  | .peer d off => (fetched s mordantOwner d off 1).isSome

/-- The value of a block scale. -/
def scaleValue (s : State) : ScaleAt → Nat
  | .mem key => performRead s key 1
  | .host a => memRead s.hostMem a 1
  | .peer d off => ((fetched s mordantOwner d off 1).bind id).getD 0

/-- Resolve an element of a slot's two tensors, and its block scale (R425, R92). -/
def replayTarget (s : State) (m o : BitVec 1024) (c : List Int) : Target :=
  match resolve s m c with
  | .outside => .bad 2
  | .fault t => .bad (resolveCause t)
  | .ptr base p _ =>
    match masterKey s base p with
    | .error n => .bad n
    | .ok none => .skip
    | .ok (some key) =>
      match resolve s o c with
      | .outside => .bad 2
      | .fault t => .bad (resolveCause t)
      | .ptr base q bit =>
        match operandKey s (dramCore key) base q bit (elemBits (dFmt o)), (blockScalePtr o c).map (replayScale s (dramCore key)) with
        | some k, none => .at key k bit none
        | some k, some (.ok x) => .at key k bit (some x)
        | some _, some (.error n) => .bad n
        | none, _ => .bad 1

/-- The coordinates of every element of a tensor, dimension 0 fastest. -/
def allCoords (d : BitVec 1024) : Nat → List (List Int)
  | 0 => [[]]
  | k + 1 => (List.range (dExt d k)).flatMap fun (i : Nat) => (allCoords d k).map fun c => c ++ [(i : Int)]

/-- N of the round that MORDANT applies, as it began (R376). -/
def roundN (s : State) : Nat := if logState s == 1 then s.log.begun else logN s

/-- The entries of the round that serve a tensor group, in ascending rank (R382). -/
def usedEntries (s : State) (tg : Nat) : List (BitVec 256) :=
  ((List.range (roundN s)).map fun k => ringEntry s (logCursor s + k)).filter fun e => lfld e 2 33 1 == 0 && lfld e 1 16 16 == tg

/-- One element's new master (R382). -/
def replayMaster (alpha : W32) (es : List (BitVec 256)) (slot : W64) (l : Nat) (w : W32) : W32 :=
  let acc := es.foldl (fun (acc : W32) e =>
    let x := eps ((word e 1).extractLsb' 32 32) (BitVec.ofNat 12 (fld slot 12 12)) l (fld slot 60 2) (slot.getLsbD 62)
    rnd ((fp32 acc).add ((fp32 ((word e 2).extractLsb' 0 32)).mul x))) 0
  rnd ((fp32 w).add ((fp32 alpha).mul (fp32 acc)).negate)

/-- The scaled value that an operand copy encodes (R382, R92). -/
def replayOperand (s : State) (o : BitVec 1024) (scale : Option ScaleAt) (w : W32) : Narrowed :=
  let x := (fp32 w).unscaleE8 (dTscale o)
  encodeElem (dFmt o) true (match scale with
    | none => x
    | some p => x.unscaleE8 (BitVec.ofNat 8 (scaleValue s p)))

/-- Apply the round to one element: master, operand and saturation (R382, R383). -/
def replayElem (s : State) (alpha : W32) (es : List (BitVec 256)) (slot : W64) (o m : BitVec 1024) (c : List Int) (mk ok bit : Nat)
    (scale : Option ScaleAt) : State :=
  let w := replayMaster alpha es slot (linearIndex m c) (BitVec.ofNat 32 (performRead s mk 4))
  let s := externalWrite s mk 4 w.toNat
  let n := replayOperand s o scale w
  let b := elemBits (dFmt o)
  let s := performBits s ok ((bit + b + 7) / 8) bit b n.code
  if n.saturated then
    let cnt := s.mmioWord 0 0x500038
    s.setMmio 0 0x500038 (setFld cnt 0 32 (fld cnt 0 32 + 1))
  else s

/-- What a round has to do: for each slot in ascending number, the elements that the device replays (R382, R425). -/
def roundWork (s : State) : List (W64 × List (BitVec 256) × List (List Int × Target)) :=
  (slotsUsed s).filterMap fun n =>
    let slot := tensorSlot s n
    let es := usedEntries s (fld slot 32 16)
    if es.isEmpty then none
    else
      let m := s.descriptor (fld slot 0 12)
      let o := s.descriptor (fld slot 12 12)
      some (slot, es, (allCoords m (dRank m)).map fun c => (c, replayTarget s m o c))

/-- The operand lines that a target of a slot writes (R383). -/
def targetLines (s : State) (slot : W64) : Target → List Nat
  | .at _ k bit _ => linesOf k ((bit + elemBits (dFmt (s.descriptor (fld slot 12 12))) + 7) / 8)
  | _ => []

/-- The operand lines that a round writes (R383). -/
def roundLines (s : State) : List Nat := (roundWork s).flatMap fun x => x.2.2.flatMap fun y => targetLines s x.1 y.2

/-- One element of the round that is applied, where it is replayed here (R382). -/
def replayOne (s : State) (slot : W64) (es : List (BitVec 256)) (y : List Int × Target) : State :=
  let alpha := (s.mmioWord 0 0x500010).extractLsb' 0 32
  match y.2 with
  | .at mk ok bit scale => replayElem s alpha es slot (s.descriptor (fld slot 12 12)) (s.descriptor (fld slot 0 12)) y.1 mk ok bit scale
  | _ => s

/-- An element of a round that faults: its slot, the entries, its coordinates and target, and whether it is replayed. -/
abbrev Chance : Type := W64 × List (BitVec 256) × (List Int × Target) × Bool

/-- The elements of a round that faults, each with a free choice of whether it is replayed (R385; log 37); an operand tile on
the thread side is not written (R383). -/
def roundChances (s : State) (work : List (W64 × List (BitVec 256) × List (List Int × Target))) : List Chance :=
  let all := work.flatMap fun x => x.2.2.map fun y => (x.1, x.2.1, y)
  ((List.range all.length).zip all).map fun (i, slot, es, y) =>
    (slot, es, y, (tilesOf (targetLines s slot y.2)).all (tileReady s) && (Sys2Proof.Config.freeByte (s.free + i)).getLsbD 0)

/-- The block scales that a round reads (R92). -/
def roundScales (work : List (W64 × List (BitVec 256) × List (List Int × Target))) : List ScaleAt :=
  work.flatMap fun x => x.2.2.filterMap fun y => match y.2 with
    | .at _ _ _ scale => scale
    | _ => none

/-- The virtual addresses that the resolution of an element translates (R425). -/
def replayWalks (s : State) (m o : BitVec 1024) (c : List Int) : List Nat :=
  let p := match resolve s m c with
    | .ptr _ p _ => [p]
    | _ => []
  (p ++ (blockScalePtr o c).toList).filterMap fun p => if spaceOf (fld p 60 4) == some .va then some (fld p 0 48) else none

/-- The cache tags after the reads of a round: its entries, the tables of its translations and its scales (R56, R67, R68). -/
def touchRound (s : State) (work : List (W64 × List (BitVec 256) × List (List Int × Target))) : State :=
  let root := (s.mmioWord 0 0x500020).toNat
  let entries := (List.range (roundN s)).map fun k => (ringKey s (logCursor s + k), 32)
  let tables := work.flatMap fun x => x.2.2.flatMap fun y =>
    (replayWalks s (s.descriptor (fld x.1 0 12)) (s.descriptor (fld x.1 12 12)) y.1).flatMap fun va =>
      (walkReads s.mem va root 0 4).map (·, 8)
  let scales := (roundScales work).filterMap fun x => match x with
    | .mem key => some (key, 1)
    | _ => none
  (entries ++ tables ++ scales).foldl (fun s x => touchRead s x.1 x.2) s

/-- A round that faults is left partly applied (R385): each element holds its old value or its new one, where `some'` allows new
ones. Operand lines that are not written whole stay empty, the others are full (R383). -/
def faultRound (s : State) (cause : Nat) (some' : Bool) : State :=
  let work := roundWork s
  let cs := (roundChances s work).map fun x => (x.1, x.2.1, x.2.2.1, x.2.2.2 && some')
  let lines (s : State) (cs : List Chance) : List Nat :=
    (cs.flatMap fun x => targetLines s x.1 x.2.2.1.2).filter fun l => tileReady s (l / 32)
  let t := cs.foldl (fun t x => if x.2.2.2 then replayOne t x.1 x.2.1 x.2.2.1 else t) (touchRound { s with free := s.free + cs.length } work)
  logFault (setEmpty (setFull t (lines s (cs.filter (·.2.2.2)))) (lines s (cs.filter fun x => !x.2.2.2))) cause

/-- The slot of a sequence number cannot be read (R385). -/
def slotBad (s : State) (q : Nat) : Bool := (badLine? s (ringKey s q) 32).isSome

/-- Ask for the block scales on other devices (R92). -/
def askScales (s : State) (scales : List ScaleAt) : State :=
  scales.foldl (fun s x => match x with
    | .peer d off => askFetch s mordantOwner d off 1
    | _ => s) s

/-- MORDANT applies a round (R381 to R383): all slots are ready, every operand tile is on the engine side and every block scale
can be read; a placement, view, memory or translation fault leaves the round partly applied (R385). -/
def applyRound (s : State) : State :=
  let work := roundWork s
  if (List.range (roundN s)).any fun k => slotBad s (logCursor s + k) then faultRound s 3 false
  else match (work.flatMap fun x => x.2.2.map (·.2)).findSome? (fun t => match t with
      | .bad c => some c
      | _ => none) with
  | some c => dropFetches (faultRound s c ((roundScales work).all (scaleReady s))) mordantOwner
  | none =>
    let lines := roundLines s
    if !(tilesOf lines).all (tileReady s) || !(roundScales work).all (scaleReady s) then askScales s (roundScales work)
    else
      let n := roundN s
      let s := setFull (work.foldl (fun s x => x.2.2.foldl (fun s y => replayOne s x.1 x.2.1 y) s) (touchRound s work)) lines
      let s := setLogState (setCursor s (logCursor s + n)) 0
      let s := engineSignal (dropFetches s mordantOwner) (fld (logCfg s) 56 8) (fld (logCfg s) 50 6)
      writeArrived s

/-- MORDANT's next move (R381): it waits at the first slot that is not ready, stops at one that cannot be read (R385), or
applies the round. -/
def mordantStep (s : State) : State :=
  let st := logState s
  if st == 1 then applyRound s
  else if !logEn s || 3 ≤ st || logLimit s < logCursor s + logN s then s
  else match ((List.range (logN s)).map (logCursor s + ·)).find? (fun q => slotBad s q || !slotReady s q) with
    | some q =>
      if slotBad s q then logFault s 3
      else if st == 2 && s.log.waitAt == q then s
      else setLogState { touchRead s (ringKey s q) 32 with log := { s.log with gapTicks := 0, waitAt := q } } 2
    | none => applyRound (setLogState { s with log := { s.log with begun := logN s } } 1)

/-- GAPT ticks pass at a slot that is not ready (R384). -/
def gapStep (s : State) : State :=
  if logState s == 2 && fld (logCfg s) 0 16 ≤ s.log.gapTicks && !slotReady s s.log.waitAt then
    logEvent (setLogState s 3) (2 <<< 56 ||| s.log.waitAt)
  else s

/-- A `log.resume` takes effect (R338, R384): the slot is read again. -/
def resumeNow (s : State) (q : Nat) : State :=
  if logState s != 3 || s.log.waitAt != q then s
  else if slotBad s q then logFault s 3
  else if slotReady s q then mordantStep { setLogState s 0 with log := { s.log with gapTicks := 0 } }
  else logEvent s (2 <<< 56 ||| q)

end Sys2Proof.Machine
end

