-- ==== Sys2Proof/Machine/Worklist.lean ====
section
/-! DEFINITION. The worklist: the bucket units, spilling and refilling (R359, R363), the view of a job (R360, R361), waves and
termination (R366, R367), the reduction tree and balancing between devices (R364, R365). -/
namespace Sys2Proof.Machine

/-- Pushes that a core's units have committed and that may not be popped yet (R339). -/
def pendingPushes (s : State) (core : Nat) : List Task :=
  (List.range 4).flatMap fun x => (s.ctx (core * 4 + x)).pend.filterMap fun p => match p.kind with
    | .release _ (.push j b t) => some ⟨j, b, t⟩
    | _ => none

/-- On-chip entries of all jobs (R359, R362). -/
def taskCount (s : State) (core : Nat) : Nat := (s.core core).tasks.length + (pendingPushes s core).length

/-- HIGH and LOW of WLCFG (R362). -/
def wlMarks (s : State) (core : Nat) : Nat × Nat := (fld (s.core core).wlCfg 16 10, fld (s.core core).wlCfg 0 10)

/-- The key of a core's spill region; none where BASE is 0 or no vault pointer (R362, R363). -/
def spillBase (s : State) (core : Nat) : Option Nat :=
  let p := (s.core core).wlSpill
  if p == 0 then none
  else match spaceOf (fld p 60 4) with
    | some .cdv => if fieldBad .cdv p then none else some (dramKey core (fld p 0 30))
    | some .pdv => if fieldBad .pdv p then none else some (dramKey (ptrCore p) (fld p 0 30))
    | _ => none

/-- The header of a bucket of a job slot (R363). -/
def bucketHeader (base slot bucket : Nat) : Nat := base + 16 * (257 * slot + bucket)

/-- The free list's header (R363). -/
def freeHeader (base : Nat) : Nat := base + 16 * 1028

/-- The spilled buckets of a job on a core, ascending (R363). -/
def spilledBuckets (s : State) (core job : Nat) : List Nat :=
  match spillBase s core, s.jobSlot job with
  | some base, some slot => (List.range 256).filter fun b => memRead s.mem (bucketHeader base slot b) 8 != 0
  | _, _ => []

/-- The key of a node by its stored pointer. -/
def nodeAt (s : State) (core : Nat) (p : Nat) : Option Nat :=
  match spillBase s core with
  | some base => nodeKey core (dramCore base) (BitVec.ofNat 64 p) 0
  | none => none

/-- The keys of a list of nodes, at most `fuel` of them. -/
def nodeKeys (s : State) (core p : Nat) : Nat → List Nat
  | 0 => []
  | fuel + 1 =>
    match nodeAt s core p with
    | none => []
    | some k => k :: nodeKeys s core (memRead s.mem k 8) fuel

/-- Tasks in a list of nodes, at most `fuel` nodes (R363). -/
def nodeTasks (s : State) (core p fuel : Nat) : Nat :=
  (nodeKeys s core p fuel).foldl (fun n k => n + memRead s.mem (k + 8) 8 % 16) 0

/-- An enqueue by the bucket unit's agent on a list at a header (R328, R363), with the tags of the lines it uses (R56). -/
def agentEnqueue (s : State) (core header : Nat) (node : W64) : Nat × State :=
  let tail := memRead s.mem (header + 8) 8
  let r := enqueue s core header node
  let used := header :: ((nodeAt s core node.toNat).toList ++ (nodeAt s core tail).toList)
  (r.1, if r.1 == 1 then touchRead r.2 header 16 else used.foldl (fun s k => touchExternal s k 8) r.2)

/-- A dequeue by the bucket unit's agent from the list at a header (R328, R363), with the tags of the lines it uses (R56). -/
def agentDequeue (s : State) (core header : Nat) : Nat × State :=
  let r := dequeue s core header
  (r.1, if r.1 ≤ 1 then touchRead r.2 header 16
    else touchExternal ((nodeAt s core r.1).toList.foldl (fun s k => touchRead s k 8) r.2) header 16)

/-- Buckets that a context of the core holds a task in (R360), saved contexts included. -/
def heldBuckets (s : State) (core job : Nat) : List Nat :=
  ((List.range 4).filterMap fun x =>
    let c := s.ctx (core * 4 + x)
    if c.unit.job == job then c.task.map (·.2) else none)
    ++ (s.savedCtxs.filter fun v => v.key / 4 == core && v.unit.job == job && v.bucket < 256).map (·.bucket)

/-- The local value of a job at a core (R360). -/
def localValue (s : State) (core job : Nat) : Nat :=
  let on := (((s.core core).tasks ++ pendingPushes s core).filter (·.job == job)).map (·.bucket)
  (on ++ spilledBuckets s core job ++ heldBuckets s core job).foldl min 256

/-- WLJOB of the slot that holds a job (R364). -/
def wlJobWord (s : State) (job : Nat) : W64 :=
  match s.jobSlot job with
  | some j => s.mmioWord 0 (0x400 + 8 * j)
  | none => 0

/-- EN of a job's WLJOB (R364). -/
def wlEn (s : State) (job : Nat) : Bool := (wlJobWord s job).getLsbD 63

/-- The view of a job at a core (R360). -/
def viewOf (s : State) (core job : Nat) : Nat :=
  let w := s.wlJob job
  let v := min (localValue s core job) w.dv
  if wlEn s job then min v w.xv else v

/-- DELTA of a core (R362). -/
def wlDeltaOf (s : State) (core : Nat) : Nat := fld (s.core core).wlDelta 0 8

/-- The lowest startable bucket of a job in a core's unit, with its oldest task (R359, R361). -/
def startable (s : State) (core job bound : Nat) : Option Task :=
  let ts := (s.core core).tasks.filter fun t => t.job == job && t.bucket ≤ bound
  let low := (ts.map (·.bucket)).foldl min 256
  ts.find? (·.bucket == low)

/-- The task that a `wl.pop` on a core takes, and the core whose unit holds it (R359). -/
def popChoice (s : State) (core job : Nat) : Option (Nat × Task) :=
  let bound := viewOf s core job + wlDeltaOf s core
  let die := core / 64
  let order := core :: ((List.range 64).map (die * 64 + ·)).filter (· != core)
  order.findSome? fun n => (startable s n job bound).map fun t => (n, t)

/-- Add to the counts of a job at a core (R366). -/
def addCounts (s : State) (core job pushes compl : Nat) : State :=
  let c := s.core core
  let old := (tget c.wlCounts job).getD (0, 0)
  s.setCore core { c with wlCounts := tset c.wlCounts job (old.1 + pushes, old.2 + compl) }

/-- A push is counted: it clears the mark of termination at its core (R366, R367). DEDUCED, log 40. -/
def countPush (s : State) (core job : Nat) : State :=
  let s := addCounts s core job 1 0
  let c := s.core core
  s.setCore core { c with wlDone := c.wlDone.filter (· != job) }

/-- An agent operation of a bucket unit fails (R363, R396): every launch of the job on the core is discarded, those whose units
there are saved (R400) among them. -/
def spillFault (s : State) (core job : Nat) : State :=
  let here := s.ctxs.filterMap fun (k, c) =>
    if k / 4 == core && c.status != .free && c.unit.job == job then some c.unit.launch else none
  let saved := (s.savedCtxs.filter fun v => v.key / 4 == core && v.unit.job == job).map (·.unit.launch)
  let ls := (here ++ saved).eraseDups
  ls.foldl (fun s l => discardLaunch s l { faultRec 3 3 0x16 1 with core := core }) s

/-- Spill one node's worth of tasks (R363); none where nothing can be spilled. The answer says whether the agent's operations
succeeded. -/
def spillNode (s : State) (core : Nat) : Option (State × Bool) :=
  let c := s.core core
  let top := (c.tasks.map (·.bucket)).foldl max 0
  match c.tasks.find? (·.bucket == top), spillBase s core with
  | some t, some base =>
    match s.jobSlot t.job with
    | none => none
    | some slot =>
      let mine := c.tasks.filter fun x => x.job == t.job && x.bucket == top
      let n := min 14 mine.length
      let out := mine.drop (mine.length - n)
      match agentDequeue s core (freeHeader base) with
      | (0, _) => none
      | (1, s) => some (spillFault s core t.job, false)
      | (p, s) =>
        match nodeAt s core p with
        | none => some (spillFault s core t.job, false)
        | some k =>
          let s := externalWrite s (k + 8) 8 n
          let s := (out.zip (List.range n)).foldl (fun s (x, i) => externalWrite s (k + 16 + 8 * i) 8 x.word.toNat) s
          let (r, s) := agentEnqueue s core (bucketHeader base slot top) (BitVec.ofNat 64 p)
          let c := s.core core
          let s := s.setCore core { c with
            tasks := c.tasks.filter (fun x => !(x.job == t.job && x.bucket == top)) ++ mine.take (mine.length - n) }
          some (if r == 1 then (spillFault s core t.job, false) else (s, true))
  | _, _ => none

/-- Spill until COUNT is at most HIGH − 14 or an agent operation fails (R363). -/
def spillDown (s : State) (core : Nat) : Nat → State
  | 0 => s
  | fuel + 1 =>
    if taskCount s core + 14 ≤ (wlMarks s core).1 then s
    else match spillNode s core with
      | some (s, true) => spillDown s core fuel
      | some (s, false) => s
      | none => s

/-- After a push: spill where COUNT is above HIGH (R363); every node takes a task of the 512 at least. -/
def spill (s : State) (core : Nat) : State := if (wlMarks s core).1 < taskCount s core then spillDown s core 512 else s

/-- Tasks in a node (R363). -/
def nodeCount (s : State) (key : Nat) : Nat := min 14 (memRead s.mem (key + 8) 8 % 16)

/-- The 512 entries of the unit have room for the tasks of the first node of a list (R359). -/
def nodeFits (s : State) (core header : Nat) : Bool :=
  match nodeAt s core (memRead s.mem header 8) with
  | some k => taskCount s core + nodeCount s k ≤ 512
  | none => true

/-- Bring the first node of a spilled bucket back, where its tasks fit (R363); the answer says whether the agent's operations
succeeded. DEDUCED, log 42. -/
def refillNode (s : State) (core job bucket : Nat) : Option (State × Bool) :=
  match spillBase s core, s.jobSlot job with
  | some base, some slot =>
    let header := bucketHeader base slot bucket
    match (if nodeFits s core header then agentDequeue s core header else (0, s)) with
    | (0, _) => none
    | (1, s) => some (spillFault s core job, false)
    | (p, s) =>
      match nodeAt s core p with
      | none => some (spillFault s core job, false)
      | some k =>
        let ts : List Task := (List.range (nodeCount s k)).map fun i => ⟨job, bucket, BitVec.ofNat 64 (memRead s.mem (k + 16 + 8 * i) 8)⟩
        let (r, s) := agentEnqueue (touchRead s k 128) core (freeHeader base) (BitVec.ofNat 64 p)
        let c := s.core core
        let s := s.setCore core { c with tasks := c.tasks ++ ts }
        some (if r == 1 then (spillFault s core job, false) else (s, true))
  | _, _ => none

/-- The jobs of the job slots. -/
def slotJobs (s : State) : List Nat :=
  (List.range 4).filterMap fun j => if s.levelState (jobEntry j) == 0 then none else some (fld (s.level (jobEntry j) 0) 0 16)

/-- The job and bucket that refills next, if one does (R363). -/
def refillNext (s : State) (core : Nat) : Option (Nat × Nat) :=
  let low (job : Nat) : Option Nat := (spilledBuckets s core job).head?
  let onChip (job : Nat) : Nat := (((s.core core).tasks.filter (·.job == job)).map (·.bucket)).foldl min 256
  match (slotJobs s).findSome? fun j => match low j with
      | some b => if b < onChip j then some (j, b) else none
      | none => none with
  | some r => some r
  | none =>
    if taskCount s core < (wlMarks s core).2 then
      ((slotJobs s).filterMap fun j => (low j).map fun b => (j, b)).foldl
        (fun acc x => match acc with
          | none => some x
          | some y => if x.2 < y.2 then some x else some y) none
    else none

/-- Refill as long as a condition of R363 holds and the node fits. DEDUCED, log 42. -/
def refill (s : State) (core : Nat) : Nat → State
  | 0 => s
  | fuel + 1 =>
    match refillNext s core with
    | none => s
    | some (j, b) => match refillNode s core j b with
      | some (s, true) => refill s core fuel
      | some (s, false) => s
      | none => s

/-- A push may be popped from now on (R339); the unit spills and refills as R363 says. -/
def pushNow (s : State) (core job bucket : Nat) (task : W64) : State :=
  let c := s.core core
  refill (spill (s.setCore core { c with tasks := c.tasks ++ [⟨job, bucket, task⟩] }) core) core 512

/-- A shipped task enters the die-0 core with the fewest entries, and is acknowledged; where every unit is full it waits
at the ingress (R365). -/
def takeShipment (s : State) (job bucket : Nat) (task : W64) (src : Nat) : State :=
  let best := (List.range 64).foldl (fun b n => if taskCount s n < taskCount s b then n else b) 0
  let w := s.wlJob job
  if 512 ≤ taskCount s best then s.setWlJob job { w with shipments := w.shipments ++ [(bucket, task, src)] }
  else
    sendMsg (pushNow (countPush s best job) best job bucket task) src (.wlAck job)

/-- Shipments at the ingress enter as space frees (R365). -/
def retryShipments (s : State) : State :=
  s.wlJobs.foldl (fun s (j, w) =>
    w.shipments.foldl (fun s (b, t, src) => takeShipment s j b t src) (s.setWlJob j { s.wlJob j with shipments := [] })) s

/-- A pop takes a task from a core's unit for a context (R339, R359). -/
def takeTask (s : State) (k core job bucket : Nat) (task : W64) : State :=
  let c := s.core core
  let s := s.setCore core { c with tasks := c.tasks.erase ⟨job, bucket, task⟩ }
  let s := s.setCtx k { s.ctx k with task := some (task, bucket) }
  retryShipments (refill s core 512)

/-- A held task is complete (R366). -/
def doneNow (s : State) (core job : Nat) : State := addCounts s core job 0 1

/-- The sums of PUSHES and COMPL of a job over this device (R366). -/
def jobCounts (s : State) (job : Nat) : Nat × Nat :=
  s.cores.foldl (fun a (_, c) => let x := (tget c.wlCounts job).getD (0, 0); (a.1 + x.1, a.2 + x.2)) (0, 0)

/-- Mark a job done at every core, or clear its marks (R367). -/
def markDone (s : State) (job : Nat) (done : Bool) : State :=
  (List.range 256).foldl (fun s n =>
    let c := s.core n
    if c.wlDone.contains job == done then s
    else s.setCore n { c with wlDone := if done then c.wlDone ++ [job] else c.wlDone.filter (· != job) }) s

/-- A wave of a job (R366, R367). -/
def wave (s : State) (job : Nat) (p c : Nat) : State :=
  let w := s.wlJob job
  let last := w.lastWave
  let s := s.setWlJob job { w with lastWave := some (p, c) }
  if p == c && 0 < p && last == some (p, c) then markDone s job true
  else match last with
    | some (p', _) => if p' != p then markDone s job false else s
    | none => s

/-- The jobs that a worklist serves. -/
def wlJobsOf (s : State) : List Nat :=
  (s.cores.flatMap (fun (_, c) => c.wlCounts.map (·.1)) ++ s.wlJobs.map (·.1)).eraseDups

/-- The sampling of local values and, for jobs of this device alone, the wave (R360, R366). -/
def sample (s : State) : State :=
  (wlJobsOf s).foldl (fun s j =>
    let w := s.wlJob j
    let low := (List.range 256).foldl (fun m n => min m (localValue s n j)) 256
    let s := s.setWlJob j { w with dv := w.next, next := low }
    if wlEn s j then s else let (p, c) := jobCounts s j; wave s j p c) s

/-- Has a clk that is a multiple of 64 been reached since the worklists were last sampled (R360)? -/
def sampleDue (s : State) : Bool := s.sampled < s.clk / 64

/-- The sample of the latest such clk (R360; one where several have passed, log 2). -/
def takeSample (s : State) : State := sample { s with sampled := s.clk / 64 }

/-- The group of a job's WLJOB (R364). -/
def wlGroup (s : State) (job : Nat) : Nat := fld (wlJobWord s job) 0 6

/-- A tick of the reduction tree for a job (R364, R366): its sums are whole, and make a wave, where every child has sent whole
sums since the last such tick, so that each core is sampled anew. DEDUCED, log 98. -/
def treeTick (s : State) (job : Nat) : State :=
  if !wlEn s job then s
  else
    let g := wlGroup s job
    let (n, rank) := groupRanks s g
    let w := s.wlJob job
    let (p, c) := jobCounts s job
    let all := w.children.foldl (fun (a : Nat × Nat × Nat) (_, x) => (min a.1 x.1, a.2.1 + x.2.1, a.2.2 + x.2.2)) (w.dv, p, c)
    let kids := [2 * rank + 1, 2 * rank + 2].filter (· < n)
    let whole := kids.all w.fresh.contains
    let s := if whole && !w.fresh.isEmpty then s.setWlJob job { w with fresh := [] } else s
    let down (s : State) (x : Nat × Nat × Nat × Bool) : State :=
      kids.foldl (fun s k => sendMsg s (rankDevice s g k) (.wlDown job x.1 x.2.1 x.2.2.1 x.2.2.2)) s
    if rank == 0 then
      let s := down s (all.1, all.2.1, all.2.2, whole)
      let s := s.setWlJob job { s.wlJob job with xv := all.1 }
      if whole then wave s job all.2.1 all.2.2 else s
    else
      let s := sendMsg s (rankDevice s g ((rank - 1) / 2)) (.wlUp rank job all.1 all.2.1 all.2.2 whole)
      match w.down with
      | some x => (down s x).setWlJob job { (down s x).wlJob job with down := none }
      | none => s

/-- A child's minimum and sums arrive (R364); sums that hold a new sample of every rank below count as fresh, and stand until a
wave has used them (R366). -/
def receiveUpWl (s : State) (src job m p c : Nat) (whole : Bool) : State :=
  let w := s.wlJob job
  let sums := if whole || !w.fresh.contains src then (p, c) else ((tget w.children src).map (·.2)).getD (p, c)
  s.setWlJob job { w with children := tset w.children src (m, sums), fresh := if whole then sinsert w.fresh src else w.fresh }

/-- The combined result arrives from the parent (R364): XV, and a wave where its sums are whole (R366). -/
def receiveDownWl (s : State) (job m p c : Nat) (whole : Bool) : State :=
  let w := s.wlJob job
  let s := s.setWlJob job { w with xv := m, down := some (m, p, c, whole) }
  if whole then wave s job p c else s

/-- IB of a job (R365). -/
def inBound (s : State) (job : Nat) : Nat :=
  (List.range 256).foldl (fun a n =>
    let bound := viewOf s n job + wlDeltaOf s n
    let on := ((s.core n).tasks.filter fun t => t.job == job && t.bucket ≤ bound).length
    let sp := match spillBase s n, s.jobSlot job with
      | some base, some slot => ((spilledBuckets s n job).filter (· ≤ bound)).foldl
          (fun a b => a + nodeTasks s n (memRead s.mem (bucketHeader base slot b) 8) 65536) 0
      | _, _ => 0
    a + on + sp) 0

/-- The tags after the count of IB has read the lists of the spilled buckets of a core (R56, R365). -/
def touchInBound (s : State) (core job : Nat) : State :=
  let bound := viewOf s core job + wlDeltaOf s core
  match spillBase s core, s.jobSlot job with
  | some base, some slot => ((spilledBuckets s core job).filter (· ≤ bound)).foldl (fun s b =>
      let h := bucketHeader base slot b
      (h :: nodeKeys s core (memRead s.mem h 8) 65536).foldl (fun s k => touchRead s k 16) s) s
  | _, _ => s

/-- The lowest bucket of a job that a core holds a task in, on chip or spilled (R365). -/
def lowestTask (s : State) (core job : Nat) : Option Nat :=
  match startable s core job 255, (spilledBuckets s core job).head? with
  | some t, some b => some (min t.bucket b)
  | some t, none => some t.bucket
  | none, b => b

/-- Take the oldest task of a bucket of a job from a core; a spilled one is brought back first (R363, R365), and where it does
not fit, the lowest task on chip goes in its place. DESIGN CHOICE, log 41. -/
def takeLowest (s : State) (core job bucket : Nat) : Option Task × State :=
  let s := if (s.core core).tasks.any fun t => t.job == job && t.bucket == bucket then s
    else match refillNode s core job bucket with
      | some (s, _) => s
      | none => s
  let c := s.core core
  match startable s core job 255 with
  | some t => (some t, refill (s.setCore core { c with tasks := c.tasks.erase t }) core 512)
  | none => (none, s)

/-- Take a task of the lowest bucket of a job on this device, lowest core first (R365). DESIGN CHOICE, log 41. -/
def shipOne (s : State) (job : Nat) : Option Task × State :=
  let best := (List.range 256).foldl (fun (b : Option (Nat × Nat)) n =>
    match lowestTask s n job, b with
    | some t, some (m, u) => some (if t < u then (n, t) else (m, u))
    | some t, none => some (n, t)
    | none, b => b) none
  match best with
  | some (n, b) => takeLowest s n job b
  | none => (none, s)

/-- Ship `n` tasks of a job to a device (R365). -/
def ship (s : State) (job device : Nat) : Nat → State
  | 0 => s
  | n + 1 =>
    match shipOne s job with
    | (none, s) => s
    | (some t, s) =>
      let w := s.wlJob job
      let s := s.setWlJob job { w with acks := w.acks + 1 }
      ship (sendMsg s device (.wlShip s.deviceId job t.bucket t.word)) job device n

/-- A tick of balancing for a job (R365). -/
def balanceTick (s : State) (job : Nat) : State :=
  if !wlEn s job then s
  else
    let g := wlGroup s job
    let (n, rank) := groupRanks s g
    let ib := inBound s job
    let s := (List.range 256).foldl (touchInBound · · job) s
    let w := s.wlJob job
    let next := if rank + 1 < n then [rank + 1] else []
    let prev := if rank == 0 then [] else [rank - 1]
    let s := (next ++ prev).foldl (fun s r => sendMsg s (rankDevice s g r) (.wlIb rank job ib)) s
    let qual := (next ++ prev).filterMap fun r => match tget w.ibs r with
      | some x => if x + 64 < ib then some (r, x) else none
      | none => none
    match qual with
    | [] => s
    | x :: rest =>
      let best := rest.foldl (fun a y => if y.2 < a.2 then y else a) x
      ship s job (rankDevice s g best.1) (min 32 ((ib - best.2) / 2))

/-- A neighbour's IB arrives (R365). -/
def receiveIb (s : State) (src job ib : Nat) : State :=
  let w := s.wlJob job
  s.setWlJob job { w with ibs := tset w.ibs src ib }

/-- The acknowledgement of a shipped task counts as a completion, at core 0 (R365, R366). DESIGN CHOICE, log 41. -/
def shipmentAck (s : State) (job : Nat) : State :=
  let w := s.wlJob job
  if w.acks == 0 then s else addCounts (s.setWlJob job { w with acks := w.acks - 1 }) 0 job 0 1

end Sys2Proof.Machine
end

