-- ==== Sys2Proof/Machine/Scheduler.lean ====
section
/-! DEFINITION. The scheduler of a die: submission and validation of launch records (R155 to R157, R163, R166), placement
(R158, R162, R172, R346 to R348, R351, R353 to R355), stage 0 and the start of a unit (R159, R161, R164, R176), its
retire and its stop (R164, R167, R174, R175), handler launches of mailboxes (R171) and rebalancing (R352). -/
namespace Sys2Proof.Machine

/-- A register of a launch queue (R155): 0 LQCTL, 2 LQROOT. -/
def lqWord (s : State) (die q w : Nat) : W64 := s.mmioWord die (0xA000 + 32 * q + 8 * w)

/-- Raise a 64-bit counter of a die's window by one (R411). -/
def bump (s : State) (die off : Nat) : State := s.setMmio die off (s.mmioWord die off + 1)

/-- ASPERM of a queue's units (R155). -/
def queuePerm (ctl : W64) : W64 := BitVec.ofNat 64 (fld ctl 24 4 <<< 1)

/-- The owner number of the scheduler's reads of other devices for a launch. -/
def schedOwner (launch : Nat) : Nat := 2 ^ 50 + launch

/-- A pointer of a record passes the issue checks and its alignment (R156). -/
def pointerOk (s : State) (w : Who) (p : W64) (align : Nat) : Bool :=
  p.toNat % align == 0 && match checkAddr s w p p 1 false with
    | .ok _ => true
    | .error t => t.cause == 6

/-- Plain field conditions of a record (R157); reserved fields are ignored (R4). -/
def recordFields (l : Launch) : Bool :=
  let w := l.word
  let gx := fld (w 2) 0 16
  let gy := fld (w 2) 16 16
  let gz := fld (w 2) 32 16
  let len := fld (w 1) 0 32
  let nin := fld (w 10) 24 8
  len % 4 == 0 && 4 ≤ len && len ≤ 65536 && fld (w 1) 32 16 % 4 == 0 && fld (w 1) 32 16 < len
    && 1 ≤ gx && 1 ≤ gy && 1 ≤ gz && (l.pipe || fld (w 3) 13 3 == 0) && fld (w 3) 0 4 ≤ 12
    && 1 ≤ l.units && l.units ≤ gx * gy * gz && (!l.det || l.units == gx * gy * gz) && l.graphN ≤ 1024
    && (l.pipe || w 8 == 0) && nin ≤ 8
    && (if w 9 == 0 then fld (w 10) 16 8 == 0 && fld (w 10) 0 16 == 0 else 1 ≤ fld (w 10) 16 8)
    && (List.range nin).all (fun i => fld (w (12 + i)) 0 12 == 0)

/-- The record's pointers (R156, R157): CODE is VA, aligned to 256; the others pass the issue checks. DEDUCED, log 45. -/
def recordPointers (s : State) (l : Launch) (w : Who) : Bool :=
  spaceOf (fld (l.word 0) 60 4) == some .va && pointerOk s w (l.word 0) 256
    && (!l.pipe || pointerOk s w (l.word 8) 1) && (l.word 9 == 0 || pointerOk s w (l.word 9) 64) && pointerOk s w (l.word 11) 1

/-- A word of the stage table (R163). -/
def Launch.stageWord (l : Launch) (i : Nat) : W64 := Machine.word l.stageTab i
/-- Word 0 of stage `n` (R163). -/
def Launch.stage (l : Launch) (n : Nat) : W64 := l.stageWord (4 * n)
/-- BASE of queue `m` (R163). -/
def Launch.queueBase (l : Launch) (m : Nat) : W64 := l.stageWord (32 + 2 * m)
/-- DEPTH of queue `m` (R163). -/
def Launch.queueDepth (l : Launch) (m : Nat) : Nat := fld (l.stageWord (33 + 2 * m)) 0 8
/-- INQ of a stage (R163). -/
def Launch.inq (l : Launch) (n : Nat) : Nat := fld (l.stage n) 32 4
/-- OUTQ of a stage (R163). -/
def Launch.outq (l : Launch) (n : Nat) : Nat := fld (l.stage n) 36 4
/-- MINC of a stage (R163). -/
def Launch.minc (l : Launch) (n : Nat) : Nat := fld (l.stage n) 16 8
/-- MAXC of a stage (R163). -/
def Launch.maxc (l : Launch) (n : Nat) : Nat := fld (l.stage n) 24 8

/-- The stage table keeps the rules of R163 and R351. -/
def stageTableOk (l : Launch) (w : Who) : Bool :=
  let n := l.stages
  let queueOk (m : Nat) : Bool :=
    let b := l.queueBase m
    m < 8 && spaceOf (fld b 60 4) == some .spd && !fieldBad .spd b && b.toNat % 4096 == 0 && 1 ≤ l.queueDepth m && l.queueDepth m ≤ 64
  w.asperm.getLsbD 1
    && (List.range n).all (fun i =>
        1 ≤ l.maxc i && l.maxc i ≤ 64 && 1 ≤ l.minc i && l.minc i ≤ l.maxc i
          && fld (l.stage i) 0 16 % 4 == 0 && fld (l.stage i) 0 16 < fld (l.word 1) 0 32
          && (if i == 0 then l.inq i == 15 else l.inq i == l.outq (i - 1))
          && (if i + 1 == n then l.outq i == 15 else queueOk (l.outq i)))
    && ((List.range n).map l.minc).foldl (· + ·) 0 ≤ 64

/-- The entry at REMAP of a logical core (R172). -/
def remap (s : State) (i : Nat) : W64 := s.mmioWord 0 (0x8000 + 8 * i)

/-- A DET launch finds its cores (R172). -/
def detOk (s : State) (l : Launch) : Bool :=
  let cores := (List.range l.units).map fun u => fld (remap s u) 0 8
  l.units ≤ 256 && (List.range l.units).all (fun u => (remap s u).getLsbD 15) && cores.all fun c => cores.count c ≤ 4

/-- The level values that earlier records fixed (R157), the job's slot (R166) and the LAUNCHID (R156). -/
def levelsOk (s : State) (l : Launch) : Bool :=
  let graphBound := l.graphN != 0 && s.levelState (graphEntry l.graph) != 0
  let phaseBound := l.phaseN != 0 && s.levelState (phaseEntry l.phase) != 0
  (!graphBound || (s.levelTarget (graphEntry l.graph) == l.graphN
      && (graphFirst s l.graph).all fun x => x.phase == l.phase && x.phaseN == l.phaseN))
    && (!phaseBound || s.levelTarget (phaseEntry l.phase) == l.phaseN)
    && (match s.jobSlot l.job with
        | some j => s.levelState (jobEntry j) < 3
        | none => (List.range 4).any fun j => s.levelState (jobEntry j) == 0)

/-- An invalid record (R156): its entry becomes INVALID if it is FREE, else LQBAD counts it. -/
def invalidRecord (s : State) (l : Launch) : State :=
  if s.levelState l.lid == 0 then
    ({ s with levelJobs := tset s.levelJobs l.lid l.job }.setLevelState l.lid 6).setLevelCounts l.lid 0 0
  else bump s l.die 0x710

/-- The level entries of a valid record (R166). DEDUCED, log 46. -/
def enterLevels (s : State) (l : Launch) : State :=
  let s := ({ s with levelJobs := tset s.levelJobs l.lid l.job }.setLevelState l.lid 1).setLevelCounts l.lid (l.units * l.stages) 0
  let start (s : State) (e target : Nat) : State :=
    if s.levelState e != 0 then s
    else
      let s := (s.setLevelState e 2).setLevelCounts e target 0
      if e < 1296 then { s with levelJobs := tset s.levelJobs e l.job } else s
  let s := if l.graphN != 0 then start s (graphEntry l.graph) l.graphN else s
  let s := if l.phaseN != 0 then start s (phaseEntry l.phase) l.phaseN else s
  match s.jobSlot l.job with
  | some _ => s
  | none => match (List.range 4).find? fun j => s.levelState (jobEntry j) == 0 with
    | some j =>
      let s := s.setMmio 0 (0x300000 + 16 * jobEntry j) (BitVec.ofNat 64 l.job)
      start s (jobEntry j) 0
    | none => s

/-- Every record of the launch's predecessors that was validated before it has ended (R165). -/
def predsDone (s : State) (l : Launch) : Bool :=
  l.preds.all fun p => (s.launches.takeWhile (·.id != l.id)).all fun x => x.lid != p || x.done

/-- Read for the scheduler at a checked place (R156, R161). DEDUCED, log 43. -/
def schedRead (s : State) (w : Who) (owner asid root : Nat) (p : W64) (n : Nat) : EngineRead × State :=
  match checkAddr s w p p n false with
  | .error t => (.trap t, s)
  | .ok (_, place) => engineRead s owner w.core asid root place n

/-- A read for the scheduler that has met an uncorrectable error: no launch has met it, so a record without a launch tells of it
(R397). -/
def schedError (s : State) (r : EngineRead) : State :=
  match r with
  | .dead f => if f.cls == 0x10 then lineError s (f.addr.toNat / 128) else s
  | _ => s

/-- Read `count` units of `n` bytes from a pointer one after another, each translated for itself (R156). -/
def schedReads (s : State) (w : Who) (owner asid root : Nat) (p : W64) (n : Nat) : Nat → EngineRead × State
  | 0 => (.val 0, s)
  | count + 1 => match schedReads s w owner asid root p n count with
    | (.val v, s) => match schedRead s w owner asid root (p + BitVec.ofNat 64 (n * count)) n with
      | (.val x, s) => (.val (v + x <<< (8 * n * count)), s)
      | r => r
    | r => r

/-- The stage table of a record (R156, R163): its pointer needs no alignment, so that it is read in words or in bytes. -/
def readTable (s : State) (l : Launch) (w : Who) : EngineRead × State :=
  let p := l.word 8
  let n := if p.toNat % 8 == 0 then 8 else 1
  schedReads s w (schedOwner l.id) l.asid l.root.toNat p n (384 / n)

/-- A record waits no more for its stage table. -/
def dropValidating (s : State) (l : Launch) : State :=
  dropFetches { s with validating := s.validating.filter (·.id != l.id) } (schedOwner l.id)

/-- A launch stands in its ready list (R165, R346). -/
def released (s : State) (l : Launch) : Bool := !l.done && predsDone s l

/-- A pipeline's cores at release (R351): MINC of each stage, from the cores of the die that no stage holds. -/
def assignCores (s : State) (l : Launch) : Option (List (List Nat)) :=
  let taken := s.launches.flatMap fun x => x.cores.flatten
  let free := ((List.range 64).map (l.die * 64 + ·)).filter fun c => !taken.contains c
  let need := (List.range l.stages).map l.minc
  if free.length < need.foldl (· + ·) 0 then none
  else some ((need.foldl (fun (a : List (List Nat) × List Nat) n => (a.1 ++ [a.2.take n], a.2.drop n)) ([], free)).1)

/-- Pipelines that are released have their cores assigned, in the order of their validation (R351). -/
def assignPipes (s : State) : State :=
  s.launches.foldl (fun s l =>
    if l.pipe && l.cores.isEmpty && released s l then match assignCores s l with
      | some cs => s.putLaunch { l with cores := cs }
      | none => s
    else s) s

/-- Enter a valid record (R165, R166, R172); a launch of a graph or phase that a cancel has ended is cancelled at once, so
that none of its units starts (R167; log 12). -/
def enterLaunch (s : State) (l : Launch) : State :=
  let s := dropValidating s l
  let bad := inCancelled s l || l.preds.any fun p => 4 ≤ s.levelState p
  let l := { l with
    placed := List.replicate l.stages 0, started := List.replicate l.stages 0
    slots := (List.range 8).map fun m => List.replicate (if l.pipe then l.queueDepth m else 0) PipeSlot.free
    ring := List.replicate 8 0, balanced := s.clk / 1024, map := if l.det then (List.range l.units).map fun u => fld (remap s u) 0 8 else [] }
  let s := { enterLevels s l with launches := s.launches ++ [l] }
  if bad then endLaunch s l.id 4 1024 else assignPipes s

/-- Validate a record and enter it (R156, R165); a record whose stage table is on its way from another device waits for it. -/
def validate (s : State) (l : Launch) : State :=
  let w : Who := ⟨l.die * 64, l.asperm, l.priv⟩
  let ctl := lqWord s l.die l.queue 0
  let invalid (s : State) : State := invalidRecord (dropValidating s l) l
  if s.levelState l.lid != 0 || !recordFields l || !recordPointers s l w || (l.priv && !ctl.getLsbD 62) || fld ctl 16 3 < l.prio
      || !levelsOk s l || (l.det && (l.die != 0 || !detOk s l)) then invalid s
  else if !l.pipe then enterLaunch s l
  else match readTable s l w with
    | (.val v, s) =>
      let l := { l with stageTab := BitVec.ofNat 3072 v }
      if stageTableOk l w then enterLaunch s l else invalid s
    | (.wait, s) => if s.validating.any (·.id == l.id) then s else { s with validating := s.validating ++ [l] }
    | (r, s) => invalid (schedError s r)

/-- The record at a pointer (R156): VA, CDV or PDV, aligned to 256. -/
def readLaunch (s : State) (die q : Nat) (ptr : W64) : Option Nat × State :=
  let ctl := lqWord s die q 0
  let w : Who := ⟨die * 64, queuePerm ctl, false⟩
  match spaceOf (fld ptr 60 4) with
  | some .va | some .cdv | some .pdv =>
    match schedRead s w (schedOwner 0) (fld ctl 0 16) (lqWord s die q 2).toNat ptr 256 with
    | (.val v, s) => (some v, s)
    | (r, s) => (none, schedError s r)
  | _ => (none, s)

/-- Submit the record at a pointer through a queue (R156), with a mailbox's value if there is one (R171). -/
def submit (s : State) (die q : Nat) (ptr : W64) (mailbox : Option Nat) (value : W64) : State :=
  let ctl := lqWord s die q 0
  if !ctl.getLsbD 63 then bump s die 0x708
  else match readLaunch s die q ptr with
    | (none, s) => bump s die 0x710
    | (some v, s) =>
      let (id, s) := s.fresh
      validate s ⟨id, die, q, fld ctl 0 16, queuePerm ctl, lqWord s die q 2, BitVec.ofNat 2048 v, 0, ptr, mailbox, value, [], [], [], [], 0, [], [], 0, false⟩

/-- A mailbox starts its handler launch (R171); a handler record that cannot be read, or that is invalid, consumes the value, and so
does a queue with EN = 0, which drops the record and raises LQDROP. DESIGN CHOICE, log 92. -/
def startHandler (s : State) (die n : Nat) : State :=
  let key := die * 64 + n
  match (tget s.mailboxes key).getD [] with
  | [] => s
  | v :: rest =>
    if (s.launches ++ s.validating).any fun l => l.mailbox == some key && !l.done then s
    else
      let q := fld (s.mmioWord die (0xC000 + 32 * n + 16)) 0 4
      let ptr := s.mmioWord die (0xC000 + 32 * n + 8)
      let free := match (readLaunch s die q ptr).1 with
        | some r => s.levelState (bits r (64 * 5) 10) == 0
        | none => true
      if free then submit { s with mailboxes := tset s.mailboxes key rest } die q ptr (some key) v else s

/-- HOLD of PWRSTAT (R357). -/
def powerHold (s : State) : Bool := (s.mmioWord 0 0x308).getLsbD 16

/-- OVL of a record (R157). -/
def Launch.ovl (l : Launch) : Nat := fld (l.word 4) 32 32

/-- SPLIT that the units placed on a core ask for (R61): the column's, or that of a conversion still to come. -/
def wantedSplit (s : State) (core : Nat) : Nat :=
  match (placedOn s core).findSome? fun k => match unitLaunch s k with
      | some l => if (s.ctx k).status == .reserved && fld (l.word 3) 0 4 != s.split core then some (fld (l.word 3) 0 4) else none
      | none => none with
  | some x => x
  | none => s.split core

/-- The tiles that a record declares as inputs of a unit on a core (R157, R162). -/
def declaredInputs (l : Launch) (core : Nat) : List Nat :=
  (List.range (fld (l.word 10) 24 8)).map fun i => tileOf (spKey core (fld (l.word (12 + i)) 22 2) (fld (l.word (12 + i)) 0 22))

/-- The SPLIT that a waiting `sys.flush` on the core asks for (R341). -/
def flushSplit (s : State) (core : Nat) : Option Nat := (placedOn s core).findSome? fun k => match (s.ctx k).wait with
  | some (.block (.maintenance sp)) => sp
  | _ => none

/-- A `sys.flush` of the SPLIT waits on the core: nothing is placed there (R341), while what was placed before still starts and
ends, so that its context becomes free. DEDUCED, log 16. -/
def flushWaits (s : State) (core : Nat) : Bool := (flushSplit s core).isSome

/-- The launches whose units hold declared inputs of a core: placed, or saved by a pre-emption and not yet retired (R162). -/
def inputHolders (s : State) (core : Nat) : List Launch :=
  ((placedOn s core).filterMap (unitLaunch s)) ++ (s.savedCtxs.filter (·.key / 4 == core)).filterMap fun v => s.launch? v.unit.launch

/-- The conditions of R347 on a core but for core, pipeline and power: SPLIT, the images that run, declared inputs. -/
def coreTakes (s : State) (l : Launch) (core : Nat) : Bool :=
  let ks := placedOn s core
  (ks.isEmpty || wantedSplit s core == fld (l.word 3) 0 4)
    && ks.all (fun k => (s.ctx k).status == .reserved || match unitLaunch s k with
        | some x => x.id == l.id || (x.ovl != 0 && x.ovl == l.ovl)
        | none => false)
    && (declaredInputs l core).all (fun t => (inputHolders s core).all fun x => !(declaredInputs x core).contains t)
    && !flushWaits s core

/-- A column holds a unit of the other side (R354). -/
def otherSide (s : State) (core cls : Nat) : Bool := (placedOn s core).any fun k => classOfUnit s k / 2 != cls / 2

/-- The first core in the order of R354. -/
def bestCore (s : State) (cls : Nat) : List Nat → Option Nat
  | [] => none
  | c :: rest =>
    some (rest.foldl (fun b x =>
      let lb := columnLoad s b
      let lx := columnLoad s x
      let ob := otherSide s b cls
      let ox := otherSide s x cls
      if lx < lb || (lx == lb && ox && !ob) || (lx == lb && ox == ob && x < b) then x else b) c)

/-- The free contexts of a core. -/
def freeContexts (s : State) (core : Nat) : List Nat := ((List.range 4).map (core * 4 + ·)).filter fun k => (s.ctx k).status == .free

/-- The core on which the next unit of a stage is placed (R347, R354, R355). -/
def placeCore (s : State) (l : Launch) (stage : Nat) : Option Nat :=
  let u := l.placed.getD stage 0
  let cls := fld (l.word 3) 4 2
  let cores := if l.det then (l.map[u]?).toList.filter fun c => !l.pipe || (l.cores.getD stage []).contains c
    else if l.pipe then l.cores.getD stage []
    else (List.range 64).map (l.die * 64 + ·)
  let ok := cores.filter fun c => !(freeContexts s c).isEmpty && coreTakes s l c
  if l.det then bestCore s cls ok
  else
    let under := ok.filter fun c => columnLoad s c + weight cls ≤ thresh s c
    if !under.isEmpty then bestCore s cls under
    else if fld (s.mmioWord 0 0x300) 16 3 ≤ l.prio then bestCore s cls ok
    else none

/-- A unit that the scheduler would place next: its context, launch and stage (R346, R347). -/
structure Placing where
  (ctx : Nat) (launch : Launch) (stage : Nat)
deriving DecidableEq, Repr

/-- The next unit of a launch (R347, R351). -/
def placeNext (s : State) (l : Launch) : Option Placing :=
  if !released s l || (l.pipe && l.cores.isEmpty) then none
  else (List.range l.stages).findSome? fun st =>
    if l.units ≤ l.placed.getD st 0 then none
    else (placeCore s l st).bind fun c => (freeContexts s c).head?.map fun k => ⟨k, l, st⟩

/-- What the scheduler of a die places next: launches in descending priority, then validation order (R346). -/
def placeChoice (s : State) (die : Nat) : Option Placing :=
  if powerHold s then none
  else (List.range 8).findSome? fun i =>
    (s.launches.filter fun l => (l.die == die) && l.prio == 7 - i).findSome? (placeNext s)

/-- An entry of the schedule serves a unit's stage (R320, R322). -/
def entServes (e : BitVec 512) (stage unit : Nat) : Bool :=
  ent e 5 48 8 == stage && (ent e 6 0 32 == 0xFFFFFFFF || ent e 6 0 32 == unit)

/-- Why the scheduler's read of a stage stops: a trap at an entry, a discarding fault, or a wait. -/
inductive StageStop where
  | trap (t : Trap) (i : Nat)
  | dead (r : FaultRec)
  | wait
deriving DecidableEq, Repr

/-- Read the entries of a stage of a unit's schedule, in order, for the scheduler (R161, R322). -/
def readStage (s : State) (l : Launch) (owner core stage unit : Nat) : Nat → Nat → Except StageStop (List (Nat × BitVec 512)) × State
  | _, 0 => (.ok [], s)
  | i, fuel + 1 =>
    match launchRecord s l owner core (l.word 9 + BitVec.ofNat 64 (64 * i)) 64 with
    | (.trap t, s) => (.error (.trap t i), s)
    | (.dead r, s) => (.error (.dead r), s)
    | (.wait, s) => (.error .wait, s)
    | (.val v, s) =>
      let e := BitVec.ofNat 512 v
      if stage < ent e 5 48 8 then (.ok [], s)
      else match readStage s l owner core stage unit (i + 1) fuel with
        | (.ok es, s) => (.ok (if entServes e stage unit then (i, e) :: es else es), s)
        | r => r

/-- The column has the SPLIT of a launch: a conversion that its placement asked for is over (R61). -/
def splitReady (s : State) (l : Launch) (core : Nat) : Bool := s.split core == fld (l.word 3) 0 4

/-- Read and start stage 0 of a placed unit, once the column has the unit's SPLIT (R61, R161): the destination tiles are
given, the entries accepted. -/
def startStage0 (s : State) (k : Nat) : State :=
  match unitLaunch s k with
  | none => s
  | some l =>
    let c := s.ctx k
    let core := k / 4
    let owner := schedOwner l.id
    if !splitReady s l core then s
    else match readStage s l owner core 0 c.unit.index 0 (fld (l.word 10) 0 16) with
    | (.error .wait, s) => s
    | (.error (.dead r), s) => commandError s l.id core (k % 4) r
    | (.error (.trap t i), s) =>
      let (seq, s) := postRecord s { faultRec 2 1 t.cls t.cause with
        launch := some l.id, addr := t.addr.getD 0, core := core, ctx := k % 4, entry := BitVec.ofNat 64 i }
      { s with decisions := s.decisions ++ [⟨seq, none, some k, none⟩] }
    | (.ok es, s) =>
      if !stageFits s (core / 8) es.length then s
      else
        let tiles := tilesOf (es.flatMap fun x => (entLines core x.2).map (·.1))
        let s := tiles.foldl giveTile (dropFetches s owner)
        let first := s.nextId
        let s := acceptStage s core (k % 4) l.id c.unit.index es true
        { s with stageZero := s.stageZero.map fun z =>
            if z.ctx == k then { z with unread := false, waiting := (List.range es.length).map (first + ·) } else z }

/-- Place a unit (R347, R348): its context is reserved and its stage-0 copies start (R161). -/
def place (s : State) (p : Placing) : State :=
  let l := p.launch
  let u := l.placed.getD p.stage 0
  let l := { l with placed := l.placed.set p.stage (u + 1) }
  let k := p.ctx
  let s := s.putLaunch l
  let unit : UnitInfo := ⟨l.id, u, p.stage, none, none, l.prio, l.priv, l.job, if l.det then u else 0⟩
  let s := s.setCtx k { Ctx.reset with status := .reserved, unit := unit }
  let staged := 1 ≤ fld (l.word 10) 16 8
  let s := { s with stageZero := s.stageZero ++ [⟨k, staged, [], [], false⟩] }
  if staged then startStage0 s k else s

/-- Does an unfinished command name a tile (R135)? A stopped one has given up its tiles (R147). -/
def commandNames (s : State) (tile : Nat) : Bool :=
  (s.copies.any fun c => c.tiles.contains tile || (copySources s c).contains tile)
    || (s.batches.any fun b => b.opnd == tile || b.res == tile)
    || (s.rreads.any fun r => tileOf r.dst == tile)
    || (s.runs.any fun r => !r.stop && r.tiles.contains tile)
    || (s.savedCalls.any fun v => (v.call :: v.kept).any fun c => !c.stop && c.tiles.contains tile)
    || s.engines.any fun (_, x) => x.queue.any fun c => c.tiles.contains tile

/-- MORDANT is applying a round that writes the tile (R174, R383). -/
def mordantWrites (s : State) (tile : Nat) : Bool :=
  logState s == 1 && (tilesOf (roundLines s)).contains tile

/-- A tile may be taken now (R135, R174). -/
def mayTake (s : State) (tile : Nat) : Bool := !s.engineTiles.contains tile || (!commandNames s tile && !mordantWrites s tile)

/-- The overlay image of a launch is not loaded yet on a core (R176). -/
def needsLoad (s : State) (l : Launch) (core : Nat) : Bool :=
  let c := s.core core
  if l.ovl != 0 then c.ovlTag != l.ovl else c.ovlLaunch != some l.id

/-- The bytes of a code image as words. -/
def codeWords (v n : Nat) : List W32 := (List.range n).map fun i => BitVec.ofNat 32 (v >>> (32 * i))

/-- The oldest occupied slot of a pipeline queue (R164). DEDUCED, log 44. -/
def oldestSlot (q : List PipeSlot) : Option Nat :=
  (((List.range q.length).filterMap fun i => match q.getD i .free with
    | .occupied o => some (o, i)
    | _ => none).foldl (fun (b : Option (Nat × Nat)) x => match b with
      | none => some x
      | some y => if x.1 < y.1 then some x else b) none).map (·.2)

/-- The next free slot in ring order from a slot on (R164). -/
def nextFree (q : List PipeSlot) (first : Nat) : Option Nat :=
  ((List.range q.length).map fun i => (first + i) % q.length).find? fun i => q.getD i (.occupied 0) == .free

/-- The input and output slots that a unit of a stage takes at its start; none where it must wait (R164). -/
def pipeSlots (l : Launch) (stage : Nat) : Option (Option Nat × Option Nat) :=
  let inSlot := if stage == 0 then some none else (oldestSlot (l.slots.getD (l.inq stage) [])).map some
  let outSlot := if stage + 1 == l.stages then some none
    else (nextFree (l.slots.getD (l.outq stage) []) (l.ring.getD (l.outq stage) 0)).map some
  match inSlot, outSlot with
  | some a, some b => some (a, b)
  | _, _ => none

/-- The pointer of a pipeline slot (R163). -/
def slotPtr (l : Launch) (q i : Nat) : W64 := l.queueBase q + BitVec.ofNat 64 (4096 * i)

/-- A placed unit waits for nothing but its image (R161, R164, R347, R357); a core that has moved to another stage starts only
that stage's units (R352). DESIGN CHOICE, log 108. -/
def startReady (s : State) (k : Nat) (l : Launch) (z : StageZero) : Bool :=
  let c := s.ctx k
  let core := k / 4
  c.status == .reserved && !l.done && !z.unread && !z.dead && z.waiting.isEmpty && !powerHold s
    && splitReady s l core && (declaredInputs l core).all (mayTake s)
    && (!l.pipe || ((l.cores.getD c.unit.stage []).contains core && c.unit.index == l.started.getD c.unit.stage 0 && (pipeSlots l c.unit.stage).isSome))

/-- A placed unit may start: its image is resident, too (R176). -/
def mayStart (s : State) (k : Nat) (l : Launch) (z : StageZero) : Bool := startReady s k l z && !needsLoad s l (k / 4)

/-- Read a code image (R176): every word, translated, or the first failure. -/
def readCode (s : State) (l : Launch) (core : Nat) : Nat → Nat → Except FaultRec (List W32) × State
  | _, 0 => (.ok [], s)
  | i, fuel + 1 =>
    match engineTranslate s core l.asid l.root.toNat (fld (l.word 0 + BitVec.ofNat 64 (4 * i)) 0 48) false with
    | .error (.trap t) => (.error { faultRec 3 0 t.cls t.cause with addr := t.addr.getD 0 }, s)
    | .error (.dead r) => (.error { r with src := 0 }, s)
    | .ok (key, s) =>
      match engineBytes s key 4 with
      | (.val v, s) => match readCode s l core (i + 1) fuel with
        | (.ok ws, s) => (.ok (BitVec.ofNat 32 v :: ws), s)
        | r => r
      | (.dead r, s) => (.error { r with src := 0 }, s)
      | (_, s) => (.ok [], s)

/-- Load the image of a unit that is ready to start into the overlay store (R176): its words, while the store keeps the others; a
failure discards the launch. DESIGN CHOICE, log 109. -/
def loadOverlay (s : State) (k : Nat) : State :=
  match unitLaunch s k, s.stageZero.find? (·.ctx == k) with
  | some l, some z =>
    let core := k / 4
    let others := (placedOn s core).any fun j => (s.ctx j).status != .reserved && (s.ctx j).unit.launch != l.id
    if !startReady s k l z || others || !needsLoad s l core then s
    else
      let n := fld (l.word 1) 0 32 / 4
      match readCode s l core 0 n with
      | (.ok ws, s) =>
        let c := s.core core
        s.setCore core { c with ovlTag := l.ovl, ovlCode := l.word 0, ovlWords := ws ++ c.ovlWords.drop n, ovlLaunch := some l.id }
      | (.error r, s) =>
        let s := s.setCore core { s.core core with ovlTag := 0, ovlLaunch := none }
        commandError s l.id core (k % 4) r
  | _, _ => s

/-- The registers with which a unit starts (R159). -/
def startCtx (l : Launch) (unit : UnitInfo) (sems : List Nat) (given : List Nat) : Ctx :=
  let u := unit.index
  let gx := max 1 (fld (l.word 2) 0 16)
  let gy := max 1 (fld (l.word 2) 16 16)
  let place := u % gx + (u / gx % gy) <<< 16 + (u / (gx * gy)) <<< 32
  let entry := if l.pipe then fld (l.stage unit.stage) 0 16 else fld (l.word 1) 32 16
  let g4 := match unit.inSlot with
    | some i => slotPtr l (l.inq unit.stage) i
    | none => 0
  let g5 := match unit.outSlot with
    | some i => slotPtr l (l.outq unit.stage) i
    | none => 0
  let set (g : Vector GReg 32) (n : Nat) (v : W64) : Vector GReg 32 := vset g n ⟨v, none⟩
  { Ctx.reset with
    status := .running, unit := unit, pc := l.word 0 + BitVec.ofNat 64 entry
    g := set (set (set (set (set Ctx.reset.g 1 (BitVec.ofNat 64 u)) 2 (BitVec.ofNat 64 place)) 3 l.value) 4 g4) 5 g5
    k := (List.range 16).foldl (fun v n => vset v n (BitVec.ofNat 32 (sems.count n))) Ctx.reset.k
    mpc := l.word 11, asid := BitVec.ofNat 64 l.asid, asperm := l.asperm, ptroot := l.root
    pclass := BitVec.ofNat 64 (fld (l.word 3) 4 2), given := given }

/-- A unit starts (R159 to R161, R164, R166): an acquire at sys. -/
def startUnit (s : State) (k : Nat) : State :=
  match unitLaunch s k, s.stageZero.find? (·.ctx == k) with
  | some l, some z =>
    if z.unread && !(s.decisions.any (ownDecision s k)) then startStage0 s k
    else if !mayStart s k l z then s
    else
      let c := s.ctx k
      let core := k / 4
      let st := c.unit.stage
      let (i, o) := if l.pipe then (pipeSlots l st).getD (none, none) else (none, none)
      let mark (q : List (List PipeSlot)) (m : Nat) (i : Option Nat) : List (List PipeSlot) := match i with
        | some i => q.set m ((q.getD m []).set i .reserved)
        | none => q
      let l := { l with
        started := l.started.set st (l.started.getD st 0 + 1)
        slots := if l.pipe then mark (mark l.slots (l.inq st) i) (l.outq st) o else l.slots
        ring := match o with
          | some n => l.ring.set (l.outq st) (n + 1)
          | none => l.ring }
      let ins := declaredInputs l core
      let s := ins.foldl takeTile (s.putLaunch l)
      let s := s.setCtx k (startCtx l { c.unit with inSlot := i, outSlot := o } z.sems (seraseAll c.given ins))
      let s := { s with stageZero := s.stageZero.filter (·.ctx != k) }
      let s := if s.levelState l.lid == 1 then s.setLevelState l.lid 2 else s
      chooseCtx (acquireL1 s core l.asid 3) core
  | _, _ => s

/-- Does the unit of a context have an unfinished engine command, a run's signal that is still to be sent included (R174, R358)? -/
def unitCommands (s : State) (core ctx launch : Nat) : Bool :=
  (s.copies.any fun c => c.core == core && c.ctx == ctx && c.launch == launch)
    || (s.batches.any fun b => b.core == core && b.ctx == ctx && b.launch == launch)
    || (s.rreads.any fun r => r.core == core && r.ctx == ctx && r.launch == launch)
    || (s.runs.any fun r => r.core == core && r.ctx == ctx && r.launch == launch)
    || (s.staggers.any fun g => g.core == core && g.ctx == ctx && g.launch == launch)
    || (s.engines.any fun (_, x) => x.queue.any fun c => c.core == core && c.ctx == ctx && c.launch == launch)
    || s.savedCalls.any fun v => (v.call :: v.kept).any fun c => !c.stop && c.core == core && c.ctx == ctx && c.launch == launch

/-- A context becomes free. -/
def freeCtx (s : State) (k : Nat) : State :=
  let c := s.core (k / 4)
  let s := s.setCore (k / 4) { c with dir := c.dir.filter fun (_, e) => e.ctx != k % 4 }
  dropFetches { s.setCtx k .reset with walks := s.walks.filter (·.ctx != k) } k

/-- The pipeline slots at the end of a retire (R164). -/
def retireSlots (l : Launch) (u : UnitInfo) : Launch :=
  let slots := match u.inSlot with
    | some i => l.slots.set (l.inq u.stage) ((l.slots.getD (l.inq u.stage) []).set i .free)
    | none => l.slots
  match u.outSlot with
  | some i => { l with slots := slots.set (l.outq u.stage) ((slots.getD (l.outq u.stage) []).set i (.occupied l.order)), order := l.order + 1 }
  | none => { l with slots := slots }

/-- DONE of a launch rises by one at a retire; at TARGET the launch is COMPLETE (R166). -/
def countRetire (s : State) (l : Launch) : State :=
  if l.done then s
  else
    let d := (s.levelDone l.lid + 1) % 2 ^ 32
    let s := s.setLevelCounts l.lid (s.levelTarget l.lid) d
    if d == s.levelTarget l.lid then assignPipes (endLaunch s l.id 3 1024) else s

/-- Steps 3 and 4 of a retire and its end (R174, R175, R270, R339): once the unit's commands are over its tiles go to the thread
side, and once its accesses have performed its context is free. -/
def retireUnit (s : State) (k : Nat) : State :=
  let c := s.ctx k
  let core := k / 4
  if c.status != .retiring || unitCommands s core (k % 4) c.unit.launch || !c.given.all (mayTake s) then s
  else
    let s := (c.given.foldl takeTile s).setCtx k { c with given := [] }
    if !c.pend.isEmpty then s else
    let s := dropAll s core (k % 4)
    let s := if c.task.isSome then doneNow s core c.unit.job else s
    let s := freeCtx s k
    match s.launch? c.unit.launch with
    | some l =>
      let l := if l.pipe then retireSlots l c.unit else l
      countRetire (s.putLaunch l) l
    | none => s

/-- A stopped unit leaves its context (R167): its accesses have performed or failed, its results have arrived. -/
def leaveUnit (s : State) (k : Nat) : State :=
  let c := s.ctx k
  if c.status != .stopping || !c.pend.isEmpty || !c.results.isEmpty || !c.given.all (mayTake s) then s
  else freeCtx (c.given.foldl takeTile s) k

/-- The rebalancing of a pipeline's cores (R352): once for each multiple of 1,024 clk, at most one move. DESIGN CHOICE, log 108. -/
def rebalance (s : State) (launch : Nat) : State :=
  match s.launch? launch with
  | none => s
  | some l =>
    if l.done || !l.pipe || l.cores.isEmpty || s.clk / 1024 ≤ l.balanced then s
    else
      let l := { l with balanced := s.clk / 1024 }
      let same := s.putLaunch l
      let occupied (q : Nat) : Nat := ((l.slots.getD q []).filter fun x => match x with
        | .occupied _ => true
        | _ => false).length
      let want (n : Nat) : Nat := if n == 0 then l.units - l.started.getD 0 0 else occupied (l.inq n)
      let blocked (n : Nat) : Bool := n + 1 != l.stages && !((l.slots.getD (l.outq n) []).contains .free)
      let has (n : Nat) : Nat := (l.cores.getD n []).length
      let stages := List.range l.stages
      let pick := (stages.filter fun n => has n < l.maxc n && !blocked n && 0 < want n).foldl
        (fun (b : Option Nat) n => match b with
          | none => some n
          | some m => if want m < want n then some n else b) none
      match pick with
      | none => same
      | some r =>
        let taken := s.launches.flatMap fun x => x.cores.flatten
        let give (cores : List (List Nat)) (c : Nat) : List (List Nat) := cores.set r (cores.getD r [] ++ [c])
        match ((List.range 64).map (l.die * 64 + ·)).find? fun c => !taken.contains c with
        | some c => s.putLaunch { l with cores := give l.cores c }
        | none =>
          let donor := (stages.filter fun n => l.minc n < has n && want n + 2 ≤ want r).foldl
            (fun (b : Option Nat) n => match b with
              | none => some n
              | some m => if want n ≤ want m then some n else b) none
          match donor with
          | none => same
          | some d =>
            let top := (l.cores.getD d []).foldl max 0
            s.putLaunch { l with cores := give (l.cores.set d ((l.cores.getD d []).filter (· != top))) top }

/-- Privileged code frees an ended level entry (R166). -/
def freeEntry (s : State) (i : Nat) : State :=
  let st := s.levelState i
  if 3 ≤ st && st ≤ 6 then { s with cancelled := s.cancelled.erase i }.setLevelState i 0 else s

/-- Privileged code ends a running job (R166). -/
def endJob (s : State) (slot : Nat) : State :=
  if slot < 4 && s.levelState (jobEntry slot) == 2 then s.setLevelState (jobEntry slot) 3 else s

end Sys2Proof.Machine
end

