-- ==== Sys2Proof/Machine/Device.lean ====
section
/-! DEFINITION. Device-wide services: bring-up (R73, R74, R414, R415), the conversion of a SPLIT (R61, R62) and cache
maintenance (R72, R341 to R343), the slew governor and heat (R357, R416), time and the exchange tick (R77, R78, R413),
table and microprogram writes (R34, R35, R305), and memory and parity errors (R388, R397). -/
namespace Sys2Proof.Machine

/-- Set a field of DEV_STATUS. -/
def setDev (s : State) (lo n v : Nat) : State := s.setMmio 0 0 (setFld (devStatus s) lo n v)

/-- Two columns of one die are grid neighbours (R73). -/
def gridNeighbours (a b : Nat) : Bool :=
  a / 64 == b / 64 && ((a % 8 == b % 8 && (a / 8 + 1 == b / 8 || b / 8 + 1 == a / 8)) || (a / 8 == b / 8 && (a + 1 == b || b + 1 == a)))

/-- Every retired bus has a neighbour that is not retired and hosts one detour (R73). -/
def detoursOk (ds : List (Nat × Nat)) : Bool :=
  ds.all fun (c, n) => c < 256 && gridNeighbours c n && !(ds.map (·.1)).contains n
    && (ds.map (·.1)).count c == 1 && (ds.map (·.2)).count n == 1

/-- COLCAP of a column after self-test (R74). -/
def colcap (ds : List (Nat × Nat)) (core : Nat) : Nat :=
  (match ds.find? (·.1 == core) with
    | some d => (d.2 % 64) <<< 10 ||| 1 <<< 9
    | none => 0)
  ||| match ds.find? (·.2 == core) with
    | some d => 1 <<< 8 ||| (d.1 % 64) <<< 2
    | none => 0

/-- The step at which a failure is found (R414, R415). -/
def failStep (code : Nat) : Nat :=
  match code with
  | 1 => 1
  | 2 => 2
  | 3 => 3
  | 4 => 3
  | 5 => 4
  | _ => 5

/-- FAILCODE of what self-test finds: 1 where the image's signature does not verify or its version is below the rollback counter
(R412, R414), else its own, or 5 where a detour is not allowed (R73, R415). DEDUCED, log 57. -/
def failCode (s : State) (r : SelfTest) : Nat :=
  if !r.verified || r.version < s.rollback then 1 else if r.failcode == 0 && !detoursOk r.detours then 5 else min r.failcode 6

/-- The bring-up steps (R414): done once, after power-up. UMBER then has loaded the handler store of every core (R390). -/
def bringUp (s : State) (r : SelfTest) : State :=
  if s.devReady || (devStatus s).getLsbD 1 then s
  else
    let code := failCode s r
    let step := if code == 0 then 6 else failStep code
    let s := setDev s 2 1 (if r.attest && code != 1 then 1 else 0)
    let s := if code == 1 then s else { s with firmware := r.image }
    let s := if step < 5 then s
      else (r.detours.flatMap fun d => [d.1, d.2]).foldl (fun s c =>
        s.setMmio (c / 64) (0x2000 + 8 * (c % 64)) (BitVec.ofNat 64 (colcap r.detours c))) s
    let s := setDev s 8 4 step
    if code != 0 then setDev (setDev s 12 4 code) 1 1 1
    else
      let s := if r.handler.isEmpty then s
        else (List.range 256).foldl (fun s n => s.setCore n { s.core n with handlerStore := r.handler }) s
      setDev { s with mem := [], emptyLines := [], engineTiles := [] } 0 1 1

/-- The SPLIT to which a column is to be converted next: what a flush asks for, once every other context of the core is free, or
a placed unit once every running unit of the core has left (R61, R341). DEDUCED, log 16. A saved unit holds nothing back. DESIGN
CHOICE, log 94. -/
def splitRequest (s : State) (core : Nat) : Option Nat :=
  let busy (k : Nat) : Bool := (s.ctx k).status != .free && (s.ctx k).status != .reserved
  match flushSplit s core with
  | some n => if (placedOn s core).length ≤ 1 then some n else none
  | none => if (placedOn s core).any busy || wantedSplit s core == s.split core then none else some (wantedSplit s core)

/-- Does a pointer that a unit of `core` gave name column `col`'s scratchpad (R8, R11)? -/
def namesScratch (core col : Nat) (p : W64) : Bool :=
  match spaceOf (fld p 60 4) with
  | some .spl => core == col
  | some .spd => ptrCore p == col
  | _ => false

/-- Is an accepted copy a transfer out of a column's scratchpad? One through a view may read any column once it runs. -/
def copyOutOf (col : Nat) (c : CopyCmd) : Bool :=
  if entView c.entry then c.state == .running else namesScratch c.core col (BitVec.ofNat 64 (ent c.entry 0 0 64))

/-- A place in a column's scratchpad. -/
def Place.inColumn (core : Nat) : Place → Bool
  | .mem key => isSp key && spCore key == core
  | _ => false

/-- Every scratchpad access of a column, and every accepted copy-engine transfer into or out of its scratchpad, has
performed (R62), the commands of the other engines included. DEDUCED, log 48. -/
def columnQuiet (s : State) (core : Nat) : Bool :=
  let inCol (t : Nat) : Bool := (Place.mem (t * 4096)).inColumn core
  s.ctxs.all (fun (_, c) => (accessesOf c.pend).all fun (_, a) => !a.pieces.any (·.place.inColumn core))
    && s.copies.all (fun c => !c.tiles.any inCol && !copyOutOf core c && !(c.crec.map (·.inColumn core)).getD false)
    && s.batches.all (fun b => !inCol b.opnd && !inCol b.res)
    && s.rreads.all (fun r => !inCol (tileOf r.dst) && !r.waiting.any (·.2.inColumn core))
    && s.runs.all (fun r => r.stop || !r.tiles.any inCol)
    && (s.savedCalls.all fun v => (v.call :: v.kept).all fun c => c.stop || !c.tiles.any inCol)
    && s.engines.all fun (_, x) => x.queue.all fun c => c.stop || !c.tiles.any inCol

/-- The keys of the bytes of a column's scratchpad that lie in ways `lo` to `hi - 1` from the top of the scratchpad. -/
def inWays (core lo hi key : Nat) : Bool := isSp key && spCore key == core && lo * 2 ^ 18 ≤ spOff key && spOff key < hi * 2 ^ 18

/-- Drop L2 lines of a column's sets beyond a number of ways, the least recent first, modified ones written back (R62, R65, R67).
DESIGN CHOICE, log 47. -/
def shrinkL2 (s : State) (core ways : Nat) : State :=
  let mine := s.l2.filter (·.column == core)
  let keep := mine.foldl (fun (acc : List L2Line) l =>
    if (acc.filter fun x => x.slice == l.slice && x.line / 4 % 2048 == l.line / 4 % 2048).length < ways then acc ++ [l] else acc) []
  let back := mine.filter fun l => l.dirty && isLpddr (l.line * 128) && !keep.contains l
  back.foldl (fun s l => llcDirty s l.line) { s with l2 := keep ++ s.l2.filter (·.column != core) }

/-- Wake the monitors that a conversion wakes (R265). -/
def conversionWakes (s : State) (core : Nat) : State :=
  let hit (line : Nat) : Bool :=
    let key := line * 128
    (isSp key && spCore key == core) || (isDram key && dramCore key == core)
      || (isLpddr key && s.l2.any fun l => l.column == core && l.line == line)
  let lines := s.ctxs.filterMap fun (_, c) => c.monitor.map (·.line)
  (lines.filter hit).foldl (fun s l => wakeMonitors s l 2) s

/-- The conversion of a column's SPLIT (R62): the ways that change their role lose their contents, and every tile of the
column stands on the thread side with every line full (R132). -/
def convertSplit (s : State) (core new : Nat) : State :=
  if splitRequest s core != some new || !columnQuiet s core || new == s.split core || 12 < new then s
  else
    let old := s.split core
    let s := conversionWakes s core
    let lo := 12 - max old new
    let hi := 12 - min old new
    let out (key : Nat) : Bool := inWays core lo hi key
    let s := if new < old then shrinkL2 s core new else s
    { s with
      mem := s.mem.filter fun c => !out c.1
      emptyLines := s.emptyLines.filter fun l => !(Place.mem (l * 128)).inColumn core
      engineTiles := s.engineTiles.filter fun t => !(Place.mem (t * 4096)).inColumn core
      splits := if new == 0 then terase s.splits core else tset s.splits core new }

/-- The modified lines of a column's L2 slices reach their home slices of the LLC (R67, R341). -/
def writeBackL2 (s : State) (core : Nat) : State :=
  (s.l2.filter fun l => l.column == core && l.dirty && isLpddr (l.line * 128)).foldl (fun s l => llcDirty s l.line) s

/-- The L2 slices of a column are written back and invalidated (R341). -/
def flushL2 (s : State) (core : Nat) : State :=
  let s := writeBackL2 s core
  let gone := (s.l2.filter (·.column == core)).map (·.line)
  gone.foldl evictLine { s with l2 := s.l2.filter (·.column != core) }

/-- The dirty lines of a column's L2 slices are written back (R341). -/
def cleanL2 (s : State) (core : Nat) : State :=
  let s := writeBackL2 s core
  { s with l2 := s.l2.map fun l => if l.column == core then { l with dirty := false } else l }

/-- A `sys.flush` that has passed its checks (R341). -/
def flushNow (s : State) (k kind : Nat) : State :=
  let core := k / 4
  match kind with
  | 1 => flushL2 s core
  | 2 => cleanL2 s core
  | 3 => l1Invalidate s core (s.ctx k).asid.toNat 0 (2 ^ 48)
  | _ => s

/-- A committed store to a descriptor or a sharding entry that has not performed yet (R35). -/
def tableStore (a : Access) : Bool :=
  opWrites a.op && a.pieces.any fun p => match p.place with
    | .mmio _ off => isTable off
    | _ => false

/-- A read of another device that a copy through a view has sent is still to perform (R35). -/
def viewFetch (s : State) (f : Fetch) : Bool :=
  f.answer.isNone && s.copies.any fun c => c.id + 1024 == f.owner && c.view.isSome

/-- Table changes are in force and every access resolved before has performed (R35, R342). DEDUCED, log 56. -/
def tablesSettled (s : State) : Bool :=
  s.tableWrites.isEmpty && !s.fetches.any (viewFetch s)
    && s.ctxs.all fun (_, c) => (accessesOf c.pend).all fun (_, a) => a.foot.isNone && !tableStore a

/-- The first and last virtual address that an invalidation names (R343). -/
def tinvRange (first pages : Nat) : Nat × Nat :=
  if pages == 0 then (0, 2 ^ 48 - 1)
  else
    let b := bits first 0 48 / 65536 * 65536
    (b, b + pages * 65536 - 1)

/-- The ranges of virtual addresses that an invalidation reaches: its own, and every page that overlaps it under a translation
that stands in a cache, whatever its size (R72, R343). -/
def tinvRanges (s : State) (asid first pages : Nat) : List (Nat × Nat) :=
  let (lo, hi) := tinvRange first pages
  (lo, hi) :: s.tlb.filterMap fun t =>
    if t.asid == asid && t.page * t.size ≤ hi && lo < (t.page + 1) * t.size then some (t.page * t.size, (t.page + 1) * t.size - 1) else none

/-- A place of `n` bytes translated for a page of an invalidation (R72). -/
def inTinv (ranges : List (Nat × Nat)) (n : Nat) (p : Place) : Bool :=
  match p with
  | .va va _ | .bound va _ => ranges.any fun (lo, hi) => lo < va + n && va ≤ hi
  | _ => false

/-- No request translated for the pages of an invalidation is still to perform (R72); suspended copies hold nothing back
(R403). -/
def tinvQuiet (s : State) (asid first pages : Nat) : Bool :=
  let mine (launch : Nat) : Bool := ((s.launch? launch).map (·.asid)) == some asid
  let ranges := tinvRanges s asid first pages
  let suspended (c : CopyCmd) : Bool := match c.state with
    | .suspended _ => true
    | _ => false
  s.ctxs.all (fun (_, c) => (accessesOf c.pend).all fun (_, a) => a.asid != asid || !a.pieces.any fun p => inTinv ranges p.bytes p.place)
    && s.rreads.all (fun r => !mine r.launch || !r.waiting.any fun x => inTinv ranges 128 x.2)
    && s.copies.all fun c => suspended c || !mine c.launch || !(c.crec.map (inTinv ranges 64)).getD false

/-- A translation invalidation (R72, R343): it takes the entries and the L1 lines of every page that overlaps its range. -/
def tinvNow (s : State) (asid first pages : Nat) : State :=
  let (lo, hi) := tinvRange first pages
  let ranges := tinvRanges s asid first pages
  (List.range 256).foldl (fun s n => if (s.core n).l1.isEmpty then s
      else ranges.foldl (fun s r => l1Invalidate s n asid r.1 r.2) s)
    (tlbInvalidate s asid lo hi (pages == 0))

/-- GOV (R357). -/
def gov (s : State) : Nat := fld (s.mmioWord 0 0x308) 32 4

/-- Set GOV and HOLD. -/
def setGov (s : State) (g : Nat) (hold : Bool) : State :=
  let w := s.mmioWord 0 0x308
  s.setMmio 0 0x308 (setFld (setFld w 32 4 g) 16 1 (if hold then 1 else 0))

/-- An interval of the slew governor (R357): `iest` is the estimate, `rise` says that the next interval would rise too
far. An estimate beyond the slew limit does not occur. Heat lowers GOV as well (R416). DEDUCED, log 51. -/
def slew (s : State) (iest : Nat) (rise : Bool) : State :=
  let w := s.mmioWord 0 0x308
  let old := fld w 0 16
  let limit := 10 * fld (s.mmioWord 0 0x300) 0 8
  if 65535 < iest || old + limit < iest || iest + limit < old then s
  else
    let s := s.setMmio 0 0x308 (setFld w 0 16 iest)
    if rise then setGov s (gov s - 1) true
    else if s.tripped.isEmpty then setGov s (min 15 (gov s + 1)) false
    else setGov s (gov s - 1) false

/-- TLIM and TTRIP (R416). -/
def tlim (s : State) : Nat := fld (s.mmioWord 0 0x320) 0 8
/-- See `tlim`. -/
def ttrip (s : State) : Nat := fld (s.mmioWord 0 0x320) 8 8

/-- TEMP of a die (R416). -/
def tempOf (s : State) (die : Nat) : Nat := fld (s.mmioWord 0 0x328) (8 * die) 8

/-- The dies for which the governor lowers GOV (R416): each at TTRIP or above, and each that was and is not below TLIM since. A die
at TTRIP is one of them also where TLIM is above TTRIP. DEDUCED, log 51. -/
def reheat (s : State) : State :=
  { s with tripped := (List.range 4).filter fun d => ttrip s ≤ tempOf s d || (s.tripped.contains d && tlim s ≤ tempOf s d) }

/-- TEMP of a die changes (R416). -/
def setTemp (s : State) (die temp : Nat) : State := reheat (s.setMmio 0 0x328 (setFld (s.mmioWord 0 0x328) (8 * die) 8 temp))

/-- A die at TLIM or above (R416): the cap of SHAPE and THERM follow from TEMP. -/
def heatLimit (s : State) (die temp : Nat) : State := if die < 4 && temp < 256 && tlim s ≤ temp then setTemp s die temp else s

/-- A die at TTRIP or above (R416): GOV comes down by one in each interval of the governor from now on (`slew`). -/
def heatTrip (s : State) (die temp : Nat) : State := if die < 4 && temp < 256 && ttrip s ≤ temp then setTemp s die temp else s

/-- A die below TLIM again (R416). -/
def heatRecover (s : State) (die temp : Nat) : State := if die < 4 && temp < tlim s then setTemp s die temp else s

/-- Heat has stopped issue on a die (R416). -/
def heatStops (s : State) (die : Nat) : Bool := s.tripped.contains die && gov s == 0

/-- Every message at an egress may leave. -/
def releaseEgress (s : State) : State :=
  s.ports.foldl (fun s (p, q) =>
    drainPort s p { q with egress := q.egress.map fun e => (e.1, true, e.2.2) }) s

/-- The boundary of an exchange tick (R77, R78): time is at the next multiple of 2,000 ns, if it was not past one already; with
DET = 1 the egresses release their flits; and the collective engines, the log and the worklists send what they send at a
boundary (R334, R365, R366, R378). DESIGN CHOICE, log 50. -/
def tick (s : State) : State :=
  let next := (tickNow s + 1) * 2000 - s.timeNs
  let s := if s.ticked < tickNow s then s else passClk s (s.timeClk + (6 * next + 4) / 5 - s.clk)
  let jobs := (slotJobs s).filter (wlEn s)
  let s := { s with ticked := tickNow s
                    agenda := (.collCheckTick :: .logTickSend :: (jobs.map Instr.wlTreeTick ++ jobs.map Instr.wlBalanceTick)).map Turn.event ++ s.agenda }
  if s.det then releaseEgress s else s

/-- A write of TICKCTL (R77): DET is set only while LOCK is 1; once it is 0 flits leave at once. -/
def writeDet (s : State) (v : W32) : State :=
  let w := s.mmioWord 0 0x200
  if v.getLsbD 0 then if s.tickLock then s.setMmio 0 0x200 (setFld w 0 1 1) else s
  else releaseEgress (s.setMmio 0 0x200 (setFld w 0 1 0))

/-- A sync message with the time in ns (R413): local time follows it, and its offset from local time decides LOCK.
DESIGN CHOICE, log 50. -/
def sync (s : State) (time : Nat) : State :=
  let offset := (time - localTime s) + (localTime s - time)
  let n := if offset ≤ 100 then min (s.syncs + 1) 16 else 0
  let s := { s with syncs := n, timeClk := s.clk, timeNs := time }
  let w := s.mmioWord 0 0x200
  if 500 < offset then s.setMmio 0 0x200 (setFld w 1 1 0)
  else if n == 16 then s.setMmio 0 0x200 (setFld w 1 1 1)
  else s

/-- A write of a descriptor or sharding entry comes into force on all four dies (R34, R35). DESIGN CHOICE, log 86. -/
def applyTable (s : State) (off n : Nat) (v : W64) : State :=
  { s with tableWrites := s.tableWrites.erase (off, n, v) }.mmioPut 0 off n v

/-- The engine whose store or directory an offset names, and the engines of a broadcast window (R305): the engine's number
in its die and the offset in that engine's own window. -/
def mprogTargets (off : Nat) : List (Nat × Nat) :=
  if 0x1000000 ≤ off && off < 0x1400000 then [((off - 0x1000000) / 0x8000, off)]
  else if 0x1800000 ≤ off && off < 0x1840000 then [((off - 0x1800000) / 0x800, off)]
  else if 0x1C00000 ≤ off && off < 0x1C08000 then (List.range 128).map fun i => (i, 0x1000000 + 0x8000 * i + (off - 0x1C00000))
  else if 0x1C80000 ≤ off && off < 0x1C80800 then (List.range 128).map fun i => (i, 0x1800000 + 0x800 * i + (off - 0x1C80000))
  else []

/-- A write of `n` bytes of a store or directory word (R305): at once on an idle engine, else once it is idle. -/
def writeMprog (s : State) (die off n : Nat) (v : W64) : State :=
  (mprogTargets off).foldl (fun s (i, o) =>
    let e := die * 128 + i
    let x := s.engine e
    if x.queue.isEmpty && x.writes.isEmpty then s.mmioPut die o n v
    else s.setEngine e { x with writes := x.writes ++ [(o, n, v)] }) s

/-- An uncorrectable memory error (R388, R397): the line holds undefined contents, and a later read meets the error again; a
launch that met it is discarded, else a record without a launch tells of it. DEDUCED, log 58. -/
def memError (s : State) (pa : Nat) (launch : Option Nat) : State :=
  if !populated pa then s
  else
    let line := lineOf pa
    let addr := BitVec.ofNat 64 (line * 128)
    let s := { scrambleLine s line with badLines := sinsert s.badLines line }
    match launch with
    | some l => discardLaunch s l { faultRec 3 6 0x10 1 with addr := addr }
    | none => lineError s line

/-- A parity error of internal state (R388) discards a launch. -/
def parityError (s : State) (launch : Nat) : State := discardLaunch s launch (faultRec 3 0 0x15 2)

end Sys2Proof.Machine
end

