-- ==== Sys2Proof/Machine/Csr.lean ====
section
/-! DEFINITION. The control and status registers (R197): reading and writing each by its number (R23, R24, R60, R70, R87,
R153, R301, R312, R315, R345, R353, R362, R389, R415). -/
namespace Sys2Proof.Machine

/-- CTXID (R153). -/
def ctxId (s : State) (k : Nat) : W64 :=
  BitVec.ofNat 64 ((s.ctx k).unit.lcore <<< 18 ||| (k / 256) <<< 16 ||| (k / 4 % 64) <<< 10 ||| (k / 4) <<< 2 ||| k % 4)

/-- MFMT0 or MFMT1 and the other registers of an engine of the core. -/
def ownEngine (s : State) (k e : Nat) : Engine := s.engine (k / 4 * 2 + e)

/-- MSTAT (R315). -/
def mstat (x : Engine) : W64 :=
  BitVec.ofNat 64 (x.satcnt.toNat <<< 32 ||| (x.queue.length % 16) <<< 1 ||| if x.drained then 1 else 0)

/-- WLSTAT as a unit reads it (R362). -/
def wlStat (s : State) (k : Nat) : W64 :=
  let core := k / 4
  let job := (s.ctx k).unit.job
  BitVec.ofNat 64 ((if (s.core core).wlDone.contains job then 1 <<< 25 else 0) ||| viewOf s core job <<< 16 ||| taskCount s core)

/-- A register as it stood before the bundle (R345); none for a number that no table assigns (R197). -/
def csrRead (s : State) (k n : Nat) : Option W64 :=
  let c := s.ctx k
  match n with
  | 0x000 => some (ctxId s k)
  | 0x001 => some c.asid
  | 0x002 => some c.asperm
  | 0x003 => some c.ptroot
  | 0x004 => some (BitVec.ofNat 64 (s.split (k / 4)))
  | 0x005 => some c.pclass
  | 0x006 => some (c.fpflags.setWidth 64)
  | 0x040 => some (ownEngine s k 0).mfmt
  | 0x041 => some (ownEngine s k 1).mfmt
  | 0x042 => some (ownEngine s k 0).pert
  | 0x043 => some (ownEngine s k 1).pert
  | 0x044 => some ((ownEngine s k 0).sigma.setWidth 64)
  | 0x045 => some ((ownEngine s k 1).sigma.setWidth 64)
  | 0x046 => some (mstat (ownEngine s k 0))
  | 0x047 => some (mstat (ownEngine s k 1))
  | 0x060 => some (s.core (k / 4)).wlDelta
  | 0x061 => some (s.core (k / 4)).wlCfg
  | 0x062 => some (s.core (k / 4)).wlSpill
  | 0x063 => some (wlStat s k)
  | 0x070 => some c.faultInfo
  | 0x071 => some c.faultAddr
  | 0x072 => some c.trapPc
  | 0x0F0 => some (devStatusRead s)
  | _ => none

/-- How a register may be written (R197). -/
inductive CsrAccess where
  | rw
  | privileged
  | illegal
deriving DecidableEq, Repr

/-- The write column of R197. -/
def csrAccess (n : Nat) : CsrAccess :=
  match n with
  | 0x001 => .privileged
  | 0x002 => .privileged
  | 0x003 => .privileged
  | 0x005 => .rw
  | 0x006 => .rw
  | 0x060 => .rw
  | 0x061 => .rw
  | 0x062 => .privileged
  | 0x072 => .privileged
  | _ => .illegal

/-- The check of a WLCFG value (R362). -/
def wlCfgOk (v : W64) : Bool := fld v 0 10 + 14 ≤ fld v 16 10 && fld v 16 10 ≤ 512

/-- The checks of a write at issue (R197, R362). -/
def csrCheck (s : State) (k n : Nat) (v : W64) : Except Stop Unit :=
  match csrAccess n with
  | .illegal => .error illegalCsr
  | .privileged => need (who s k).priv privTrap
  | .rw => need (n != 0x061 || wlCfgOk v) illegalCsr

/-- The write of a register at the end of the bundle (R345); FPFLAGS clears the bits written as 1. DEDUCED, log 64. -/
def csrWrite (s : State) (k n : Nat) (v : W64) : State :=
  let c := s.ctx k
  let x := s.core (k / 4)
  match n with
  | 0x001 => s.setCtx k { c with asid := v &&& 0xFFFF#64 }
  | 0x002 => s.setCtx k { c with asperm := v &&& 0x1E#64 }
  | 0x003 => s.setCtx k { c with ptroot := v &&& 0x0000FFFFFFFFF000#64 }
  | 0x005 => s.setCtx k { c with pclass := v &&& 3#64 }
  | 0x006 => s.setCtx k { c with fpflags := c.fpflags &&& ~~~(v.extractLsb' 0 5) }
  | 0x060 => s.setCore (k / 4) { x with wlDelta := v &&& 0xFF#64 }
  | 0x061 => refill (spill (s.setCore (k / 4) { x with wlCfg := v &&& 0x3FF03FF#64 }) (k / 4)) (k / 4) 512
  | 0x062 => s.setCore (k / 4) { x with wlSpill := v }
  | 0x072 => s.setCtx k { c with trapPc := v }
  | _ => s

end Sys2Proof.Machine
end

