-- ==== Sys2Proof/Machine/Fabric.lean ====
section
/-! DEFINITION. The Finzor ports: receiving flits, replay, locking and attestation (R406 to R412), and the discards of class
LINK (R396). Credits and virtual channels (R407) bound what a port buffers and change no result. -/
namespace Sys2Proof.Machine

/-- Raise a saturating 16-bit counter of FPORT (R410). -/
def countPort (s : State) (p lo : Nat) : State := setPortBits s p lo 16 (min 0xFFFF (fld (s.fport p) lo 16 + 1))

/-- Does a device lie behind a port? -/
def behind (s : State) (p device : Nat) : Bool := device != s.deviceId && s.route device == some p

/-- Discard a launch under class LINK (R396). -/
def linkDiscard (s : State) (launch : Nat) : State := discardLaunch s launch { faultRec 3 5 0x11 1 with }

/-- The device to which an access has sent a request that is not answered. -/
def sentTo (a : Access) : Option Nat :=
  match a.pieces with
  | p :: _ => match p.place with
    | .peer d _ => if a.sent then some d else none
    | _ => none
  | [] => none

/-- The launches with an access that waits for a port (R396). -/
def linkAccesses (s : State) (p : Nat) : List Nat :=
  s.ctxs.filterMap fun x =>
    if (accessesOf x.2.pend).any fun y => (sentTo y.2).any (behind s p) then some x.2.unit.launch else none

/-- The launch for which an owner reads another device: a unit's, an engine command's, or that of a stage-0 read. -/
def ownerLaunch (s : State) (owner : Nat) : Option Nat :=
  if owner < 1024 then some (s.ctx owner).unit.launch
  else match s.copies.find? (·.id + 1024 == owner) with
    | some c => some c.launch
    | none => match s.rreads.find? (·.id + 1024 == owner) with
      | some r => some r.launch
      | none => match s.runs.find? (·.id + 1024 == owner) with
        | some r => some r.launch
        | none => (s.launches.find? (schedOwner ·.id == owner)).map (·.id)

/-- The launches that wait for a read or a record write by an engine or before commit. -/
def linkFetches (s : State) (p : Nat) : List Nat :=
  s.fetches.filterMap fun f => if f.answer.isNone && behind s p f.device then ownerLaunch s f.owner else none

/-- The launches of batches with an element on its way (R324). -/
def linkBatches (s : State) (p : Nat) : List Nat :=
  s.batches.filterMap fun b => if b.waiting.any fun w => behind s p w.2.1 then some b.launch else none

/-- The rank from which the step of a run awaits a packet (R332). -/
def awaitedRank (s : State) (r : CollRun) : Option Nat :=
  match (collWord s r r.step).1 with
  | .val v =>
    let w := BitVec.ofNat 64 v
    let d := sdelta (w.extractLsb' 48 8)
    if fld w 60 4 == 1 then some (rankAt s r.group d) else if fld w 60 4 == 2 then some (rankAt s r.group (-d)) else none
  | _ => none

/-- The launches of runs with a packet queued at a port or awaited from it. -/
def linkRuns (s : State) (p : Nat) : List Nat :=
  let queued (r : CollRun) : Bool := (s.port p).egress.any fun e => match e.1 with
    | .packet _ g q _ _ _ => g == r.group && q == r.seq
    | _ => false
  s.runs.filterMap fun r =>
    if r.status.isNone && (queued r || (awaitedRank s r).any fun k => behind s p (rankDevice s r.group k)) then some r.launch else none

/-- The log entries of this device that are queued at a port, or whose released copy is awaited from it (R396): the copy comes
through the port of the parent in the tree (R378). DEDUCED, log 54. -/
def linkEntries (s : State) (p : Nat) : Tbl Nat :=
  let g := logGroup s
  let parent := rankDevice s g (((groupRanks s g).2 - 1) / 2)
  s.log.owners.filter fun (q, _) => egressHolds (s.port p) q || (fld (s.group g 0) 63 1 == 1 && behind s p parent)

/-- The launches of log entries queued at a port or awaited from it. -/
def linkLogs (s : State) (p : Nat) : List Nat := (linkEntries s p).map (·.2)

/-- The launches with a message queued at a port or awaited from it (R396). -/
def linkLaunches (s : State) (p : Nat) : List Nat :=
  linkAccesses s p ++ linkFetches s p ++ linkBatches s p ++ linkRuns s p ++ linkLogs s p

/-- A read of another device that is awaited from a port. -/
def linkAwaits (s : State) (p : Nat) (f : Fetch) : Bool := f.answer.isNone && behind s p f.device

/-- The accesses that wait for an answer from a port fail (R396): none of them performs any more. -/
def dropAwaited (s : State) (p : Nat) : State :=
  let lost (x : Pend) : Bool := match x.kind with
    | .access a => (sentTo a).any (behind s p)
    | _ => false
  { s with ctxs := s.ctxs.map fun x => (x.1, { x.2 with pend := x.2.pend.filter fun e => !lost e }) }

/-- Every message that a locked port holds or owes is lost (R409, R396): the launches that wait for one are discarded, and a read
for no launch has failed. -/
def linkLost (s : State) (p : Nat) : State :=
  let ls := (linkLaunches s p).eraseDups
  let entries := linkEntries s p
  let s := s.setPort p { s.port p with egress := [], kept := [] }
  let s := { s with
    fetches := s.fetches.map fun f => if linkAwaits s p f then { f with answer := some none } else f
    log := { s.log with owners := s.log.owners.filter fun x => !entries.contains x } }
  dropAwaited (ls.foldl linkDiscard s) p

/-- A port locks (R409). DEDUCED, log 52. -/
def lockPort (s : State) (p : Nat) : State := linkLost (setPortBits s p 0 2 2) p

/-- A locked port for which something waits (R409). -/
def lostPort (s : State) : Option Nat :=
  (List.range 32).find? fun p => (s.fport p).getLsbD 1
    && (!(linkLaunches s p).isEmpty || s.fetches.any (linkAwaits s p))

/-- A message reaches this device (R409): it acts at once, or as an event of its own. DESIGN CHOICE, log 20. -/
def deliverMsg (s : State) (m : Msg) : State :=
  match m with
  | .peerResp id ok data => deliverAnswer s id ok data
  | .packet src g q op tag data => receivePacket s ⟨src, g, q, op, tag, data⟩
  | .check src g q op => receiveCheck s src g q op
  | .mismatch g q => orderMismatch s g q
  | .wlUp src job m p c whole => receiveUpWl s src job m p c whole
  | .wlDown job m p c whole => receiveDownWl s job m p c whole
  | .wlIb src job ib => receiveIb s src job ib
  | m => s.later (turnOf m).toList

/-- A port takes every message but those of IEEE 1588, which only the port that TIMECFG names takes (R413). -/
def portTakes (s : State) (p : Nat) (m : Msg) : Bool :=
  match m with
  | .ptp _ => fld (s.mmioWord 0 0x210) 0 5 == p
  | _ => true

/-- A PEER request that comes through a port enters the package at the die of the port (R423): eight ports to a die. DESIGN
CHOICE, log 28. -/
def entersAt (p : Nat) : Msg → Msg
  | .peerReq r => .peerReq { r with die := p / 8 }
  | m => m

/-- Deliver a flit's messages and expect the next (R409). The session ends before FSEQ wraps (R408, log 110). -/
def acceptFlit (s : State) (p : Nat) (f : Flit) : State :=
  let s := s.setPort p { s.port p with expect := f.fseq + 1, failed := none }
  ((f.msgs.filter (portTakes s p)).map (entersAt p)).foldl deliverMsg (if 2 ^ 64 ≤ f.fseq + 1 then setPortBits s p 0 1 0 else s)

/-- A flit passes its check: its tag is right under the session key (R408), and no role in MAP is invalid (R406). -/
def flitOk (s : State) (p : Nat) (f : Flit) : Bool := f.tag == tagOf (s.port p).key f && mapOk f.map

/-- A flit arrives (R409): the first failure of an FSEQ sends a replay request that names it, and everything is dropped until the
replay comes; a second failure of that FSEQ locks the port. A message is delivered at most once. -/
def receiveFlit (s : State) (p : Nat) (f : Flit) : State :=
  if 32 ≤ p || !s.portUp p then s
  else
    let q := s.port p
    if f.fseq != q.expect then s
    else match q.failed with
      | some _ => if !f.replay then s else if flitOk s p f then acceptFlit s p f else lockPort s p
      | none =>
        if flitOk s p f then acceptFlit s p f
        else countPort (s.setPort p { q with failed := some f.fseq, asked := q.asked ++ [f.fseq] }) p 16

/-- A flit leaves again as a replay (R409): REPLAY is 1, and TAG covers it (R408). -/
def replayFlit (key : BitVec 256) (f : Flit) : Flit := tagFlit key { f with replay := true }

/-- A replay request arrives (R409): the flits from an FSEQ on leave again, marked as replays, without regard to the tick. -/
def replay (s : State) (p fseq : Nat) : State :=
  if 32 ≤ p || !s.portUp p then s
  else
    let q := s.port p
    countPort (s.setPort p { q with kept := q.kept.map fun f => if fseq ≤ f.fseq then replayFlit q.key f else f }) p 32

/-- Signatures that the identity key gives (R412). DEDUCED, log 55. -/
def keySignatures : Nat := 32768

/-- The report that this end sends for a port (R412), its contents signed with the next signature of the identity key. -/
def reportOf (s : State) (p : Nat) : Report :=
  let nonce := Config.peerNonce s.signatures
  let kem := Config.kemValue s.signatures
  { image := s.firmware, device := s.deviceId, port := p, nonce := nonce, kem := kem
    signature := Config.lmsSign s.signatures (wordBytes 32 s.firmware.toNat ++ wordBytes 2 s.deviceId ++ wordBytes 1 p ++ nonce ++ kem) }

/-- A port starts a session (R408, R412): this end sends its report, which uses one signature; the shared secret becomes the session
key; FSEQ is 0, and what waits at the egress leaves. DESIGN CHOICE, log 110. -/
def openPort (s : State) (p : Nat) : State :=
  let q := { s.port p with sent := 0, expect := 0, failed := none, asked := [], kept := [], key := Config.sharedSecret s.signatures
                           report := some (reportOf s p) }
  let s := { s with signatures := s.signatures + 1 }
  let s := if keySignatures ≤ s.signatures then setDev s 2 1 0 else s
  drainPort (setPortBits s p 0 2 1) p q

/-- Attestation of a port whose link partner has come up (R412). -/
def attestPort (s : State) (p : Nat) : State :=
  if p < 32 && s.devReady && (devStatus s).getLsbD 2 && !s.portUp p && !(s.fport p).getLsbD 1 then openPort s p else s

/-- REATT (R412): a locked port is attested again. -/
def reattestPort (s : State) (p : Nat) : State :=
  if p < 32 && s.devReady && (devStatus s).getLsbD 2 && (s.fport p).getLsbD 1 then openPort s p else s

end Sys2Proof.Machine
end

