-- ==== Sys2Proof/Machine/FaultRing.lean ====
section
/-! DEFINITION. The fault ring and the decisions of system software (R391, R393 to R395). -/
namespace Sys2Proof.Machine

/-- HEAD and TAIL of FRPTR (R394). -/
def frPtr (s : State) : Nat × Nat := let w := s.mmioWord 0 0x608; (fld w 0 6, fld w 32 6)

/-- The first four words of a record (R394). -/
def recordHead (r : FaultRec) : Nat :=
  (r.seq <<< 32 ||| r.kind <<< 28 ||| r.src <<< 24 ||| r.cls <<< 16 ||| r.cause <<< 12 ||| r.slot <<< 9 ||| (if r.launch.isNone then 1 <<< 8 else 0))
    ||| r.addr.toNat <<< 64
    ||| (r.job <<< 48 ||| (if r.host then 1 <<< 42 else 0) ||| r.launchId <<< 32 ||| (if r.host then 0 else r.device) <<< 16 ||| r.core <<< 8 ||| r.ctx <<< 6) <<< 128
    ||| r.pc.toNat <<< 192

/-- The eight words of a record, with its first three regions (R394). -/
def recordWords (r : FaultRec) : Nat :=
  recordHead r ||| r.entry.toNat <<< 256 ||| (r.regions.getD 0 0).toNat <<< 320 ||| (r.regions.getD 1 0).toNat <<< 384
    ||| (r.regions.getD 2 0).toNat <<< 448

/-- Write the next record if the ring has room (R394): the record, HEAD, then the event value. Regions beyond the third
follow in records of KIND 4. -/
def writeFault (s : State) : State :=
  match s.faultQueue with
  | [] => s
  | r :: rest =>
    let (head, tail) := frPtr s
    if (head + 1) % 64 == tail then s
    else
      let more := r.regions.drop 3
      let s := { s with faultQueue := (if more.isEmpty then [] else [{ r with kind := 4, regions := more }]) ++ rest }
      let key := (s.mmioWord 0 0x600).toNat + 64 * head
      let s := if populated key then externalWrite s key 64 (recordWords r) else s
      let s := s.setMmio 0 0x608 (setFld (s.mmioWord 0 0x608) 0 6 ((head + 1) % 64))
      let m := s.mmioWord 0 0x610
      if m.getLsbD 6 then mailboxPost s 0 (fld m 0 6) (BitVec.ofNat 64 (4 <<< 56 ||| r.seq)) else s

/-- A decision is over. -/
def dropDecision (s : State) (seq : Nat) : State := { s with decisions := s.decisions.filter (·.seq != seq) }

/-- Cancel the launch of a unit, or the unit alone where it has no record. -/
def cancelUnit (s : State) (k : Nat) : State :=
  match s.launch? (s.ctx k).unit.launch with
  | some l => cancelLaunch s l.id
  | none => stopUnit s k

/-- The address of the unit's bundle after the one at TRAP_PC (R391). -/
def afterTrap (s : State) (k : Nat) : W64 :=
  let c := s.ctx k
  (bundleEnd (s.setCtx k { c with handling := false }) k c.trapPc 8).getD c.trapPc

/-- The handler has its decision and resumes the unit at an address by `trap.ret` (R391): at once, or, where the handler store
holds code, once that code has run from its first word. DESIGN CHOICE, log 8. -/
def handlerReturn (s : State) (k : Nat) (a : W64) : State :=
  if (s.core (k / 4)).handlerStore.isEmpty then trapReturn s k a
  else
    let c := s.ctx k
    let s := match c.record with
      | some seq => dropDecision s seq
      | none => s
    chooseCtx (s.setCtx k { c with trapPc := a, pc := 0, handling := true, wait := none }) (k / 4)

/-- The decision for a unit whose handler waits (R391). -/
def decideUnit (s : State) (k action : Nat) (v : W64) : State :=
  let c := s.ctx k
  if c.status != .handler || c.handling then s
  else match action with
    | 0 => handlerReturn s k c.trapPc
    | 1 => if fld c.faultInfo 8 8 == 1 then cancelUnit s k else handlerReturn s k (afterTrap s k)
    | 2 => cancelUnit s k
    | _ => handlerReturn s k v

/-- The decision for a suspended copy (R393): other actions are ignored. -/
def decideCopy (s : State) (seq id action : Nat) : State :=
  match s.copy? id with
  | none => dropDecision s seq
  | some cmd =>
    if action == 0 then dropDecision (s.putCopy { cmd with state := .running }) seq
    else if action == 2 then cancelLaunch (dropDecision s seq) cmd.launch
    else s

/-- The decision for a placed unit whose schedule could not be read (R161, R393). -/
def decideStage0 (s : State) (seq k action : Nat) : State :=
  if action == 0 then startUnit (dropDecision s seq) k
  else if action == 2 then cancelUnit (dropDecision s seq) k
  else s

/-- Carry out a decision (R391, R393); one for a saved unit waits for its restore (R395). -/
def applyDecision (s : State) (d : Decision) : State :=
  match d.action with
  | none => s
  | some (a, v) =>
    match d.copy, d.ctx with
    | some id, _ => decideCopy s d.seq id a
    | none, some k =>
      if s.savedCtxs.any fun x => x.key == k && x.record == some d.seq then s
      else if (s.ctx k).status == .reserved then decideStage0 s d.seq k a
      else if (s.ctx k).record == some d.seq then decideUnit s k a v
      else s
    | none, none => dropDecision s d.seq

/-- FRESUME word 1 (R395). -/
def resumeVa (s : State) : W64 := s.mmioWord 0 0x620

/-- A write of FRESUME (R395): it acts on the record with this SEQ that waits and has been written. DEDUCED, log 60. -/
def resume (s : State) (seq action : Nat) : State :=
  match s.decisions.find? (·.seq == seq) with
  | none => s
  | some d =>
    if s.faultQueue.any (·.seq == seq) then s
    else
      let d := { d with action := some (action, resumeVa s) }
      applyDecision { s with decisions := s.decisions.map fun x => if x.seq == seq then d else x } d

end Sys2Proof.Machine
end

