-- ==== Sys2Proof/Machine/Matrix.lean ====
section
/-! DEFINITION. The matrix engines (R294 to R316): tile parameters and their checks, acceptance of a call, its start, and what
each micro-operation does to latches, stationary B, accumulators and scratchpad. -/
namespace Sys2Proof.Machine

/-- COLS + 1 of a tile parameter (R297). -/
def tCols (p : W64) : Nat := fld p 52 8 + 1
/-- ROWS + 1 of a tile parameter (R297). -/
def tRows (p : W64) : Nat := fld p 45 7 + 1
/-- BSP of a tile parameter (R297). -/
def tBsp (p : W64) : Bool := fld p 44 1 == 1
/-- TS of a tile parameter (R297). -/
def tTs (p : W64) : BitVec 8 := BitVec.ofNat 8 (fld p 36 8)
/-- FMT of a tile parameter (R297). -/
def tFmt (p : W64) : BitVec 4 := BitVec.ofNat 4 (fld p 32 4)
/-- Offset in its vault of row `r` of a tile (R297). -/
def tRow (p : W64) (r : Nat) : Nat := fld p 0 22 + 128 * fld p 24 8 * r
/-- Bytes that a row of a tile takes. -/
def tRowBytes (p : W64) : Nat := (tCols p * elemBits (tFmt p) + 7) / 8

/-- The parameter at a number. -/
def MatCall.p (c : MatCall) (n : Nat) : W64 := vget c.params n 0

/-- The conditions of PARAM on a tile, of an operand at most `maxCols` wide (R314). -/
def tileOk (s : State) (core : Nat) (params : Vector W64 8) (n maxCols : Nat) : Bool :=
  let p := vget params n 0
  fld p 60 4 == 0 && fld p 24 8 != 0 && fld p 0 7 == 0 && tRow p (tRows p - 1) + tRowBytes p ≤ s.spSize core
    && tCols p ≤ maxCols && (!tBsp p || (n != 7 && fld (vget params (n + 1) 0) 24 40 == 0))

/-- The lines of a tile's rows. -/
def tileLinesOf (core : Nat) (p : W64) : List Nat :=
  (List.range (tRows p)).foldl (fun ls r => sinsertAll ls (linesOf (spKey core (fld p 22 2) (tRow p r)) (tRowBytes p))) []

/-- Key of the block scale of a row or column `m` at position `k` (R297). -/
def scaleKey (core : Nat) (q : W64) (m k : Nat) : Nat := spKey core (fld q 22 2) (fld q 0 22) + 8 * m + k / 32

/-- The numbers set in a mask of `n` bits. -/
def maskBits (v n : Nat) : List Nat := (List.range n).filter v.testBit

/-- The micro-word at a place of a call's routine; none beyond its length (R307). -/
def routineWord (s : State) (e routine word : Nat) : Option W64 :=
  let d := s.mdir e routine
  if word < fld d 12 13 then some (s.mprog e (fld d 0 12 + word)) else none

/-- The parameters that a routine's LDA, LDB and LDACC words name: number, whether B, and the word (R135). -/
def routineSources (s : State) (e routine : Nat) : List (Nat × Bool) :=
  (List.range (fld (s.mdir e routine) 12 13)).filterMap fun i =>
    match (routineWord s e routine i).bind (decodeMicro e) with
    | some (.muLdb _ m) => some (m.pa.toNat, true)
    | some (.muLda _ m) => some (m.pa.toNat, false)
    | some (.muLdacc _ m) => some (m.pa.toNat, false)
    | _ => none

/-- The tiles that a call names as sources, block scales included (R135). -/
def sourceTiles (s : State) (core e routine : Nat) (params : Vector W64 8) : List Nat :=
  (routineSources s e routine).foldl (fun ts (n, isB) =>
    let p := vget params n 0
    let ts := sinsertAll ts (tilesOf (tileLinesOf core p))
    if !tBsp p then ts
    else
      let q := vget params (n + 1) 0
      sinsertAll ts (tilesOf (linesOf (scaleKey core q 0 0) (8 * if isB then tCols p else tRows p)))) []

/-- A K19 element from its stored FP32 pattern. -/
def k19 (w : W32) : Num := fp32 w

/-- A free K19 pattern: contents left undefined (R294; log 7). -/
def freeK19 (n i : Nat) : W32 :=
  let b (j : Nat) : Nat := (Sys2Proof.Config.freeByte (n + 3 * i + j)).toNat
  k19Word (decodeFloat fmtK19 ((b 0 + 256 * b 1 + 65536 * b 2) % 2 ^ 19))

/-- Stationary B at a logical position and column (R294); none for an absent position (R311). -/
def bElem (x : Engine) (k n : Nat) : Option Num :=
  if !x.bRows.contains k then none
  else match x.bJunk with
    | some j => some (k19 (freeK19 j (128 * k + n)))
    | none => some (k19 ((tget x.b (128 * k + n)).getD 0))

/-- A latch's element; none for an absent position. -/
def laElem (l : Latch) (r k : Nat) : Option Num :=
  if !l.kept.contains k then none
  else match l.junk with
    | some j => some (k19 (freeK19 j (65536 + 256 * r + k)))
    | none => some (k19 ((tget l.elems (256 * r + k)).getD 0))

/-- Two rising tables in one; the first wins. -/
def tmerge {α : Type} : Nat → Tbl α → Tbl α → Tbl α
  | 0, a, _ => a
  | _ + 1, [], b => b
  | _ + 1, a, [] => a
  | n + 1, (i, x) :: a, (j, y) :: b =>
    if i < j then (i, x) :: tmerge n a ((j, y) :: b)
    else if j < i then (j, y) :: tmerge n ((i, x) :: a) b
    else (i, x) :: tmerge n a b

/-- Replace the elements of rows below `m` and columns below `n` of a tile. -/
def setRegion (old : Tbl W32) (m n : Nat) (f : Nat → Nat → W32) : Tbl W32 :=
  let rest := old.filter fun (k, _) => !(k / 128 < m && k % 128 < n)
  let new := (List.range m).flatMap fun i => (List.range n).filterMap fun j =>
    let w := f i j
    if w == 0 then none else some (128 * i + j, w)
  tmerge (rest.length + new.length + 1) new rest

/-- Read an element of a tile (R297, R38). -/
def tileElem (s : State) (core : Nat) (p : W64) (r c : Nat) : Nat :=
  let b := elemBits (tFmt p)
  let key := spKey core (fld p 22 2) (tRow p r) + c * b / 8
  bits (performRead s key ((c * b % 8 + b + 7) / 8)) (c * b % 8) b

/-- The block scale of a tile's row or column `m` at position `k` (R92, R297). -/
def tileScale (s : State) (core : Nat) (params : Vector W64 8) (n m k : Nat) : BitVec 8 :=
  if tBsp (vget params n 0) then BitVec.ofNat 8 (performRead s (scaleKey core (vget params (n + 1) 0) m k) 1) else 0x7F

/-- Why a micro-operation cannot go on: a fault of R314, or a wait for a tile or a line (R133, R139). -/
inductive MicroStop where
  | fault (cause : Nat)
  | wait
deriving DecidableEq, Repr

/-- Lines are ready for an engine's operand fetch (R133, R139). -/
def linesReady (s : State) (ls : List Nat) : Bool := ls.all fun l => tileReady s (l / 32) && !s.emptyLines.contains l

/-- The lines of the block scales that a tile of `rows` rows or columns uses. -/
def scaleLines (core : Nat) (params : Vector W64 8) (n rows : Nat) : List Nat :=
  if tBsp (vget params n 0) then linesOf (scaleKey core (vget params (n + 1) 0) 0 0) (8 * rows) else []

/-- Mask positions of a call: every position of a dense pass, the kept ones of a sparse pass (R308, R309). -/
def keptOf (c : MatCall) (sparse : Bool) : List Nat :=
  if sparse then maskBits ((c.mask.getD 0).toNat) 256 else List.range 128

/-- LDB (R309, R310). -/
def doLdb (s : State) (e : Nat) (c : MatCall) (m : Micro) : Except MicroStop Engine :=
  let n := m.pa.toNat
  let p := c.p n
  let sparse := m.x == 1
  let kept := keptOf c sparse
  let vault := fld p 22 2
  let x := s.engine e
  if !tileOk s c.core c.params n 128 || vault / 2 != e % 2 then .error (.fault 9)
  else if (tFmt p).toNat != fld c.mfmt 4 4 then .error (.fault 0xA)
  else if sparse && (c.mask.isNone || kept.length < tRows p) then .error (.fault 0xC)
  else if !linesReady s (tileLinesOf c.core p ++ scaleLines c.core c.params n (tCols p)) then .error .wait
  else
    let stream := c.p m.pb.toNat
    let mode := fld c.pert 0 2
    let rows := (List.range (tRows p)).zip kept
    let elem (r k col : Nat) : W32 :=
      let v := fetchK19 (tFmt p) (tTs p) (tileScale s c.core c.params n col k) (tileElem s c.core p r col)
      if mode == 0 || v.isNan then k19Word v
      else
        let l := (fld stream 0 40 + k * fld stream 40 24 + col) % 2 ^ 40
        let noise := (fp32 c.sigma).mul (eps (c.pert.extractLsb' 32 32) (c.pert.extractLsb' 20 12) l mode (c.pert.getLsbD 3))
        let sum := v.add noise
        k19Word (if sum.isZero then .fin false 0 0 else sum)
    let tbl := rows.flatMap fun (r, k) => (List.range (tCols p)).filterMap fun col =>
      let w := elem r k col
      if w == 0 then none else some (128 * k + col, w)
    .ok { x with b := tbl, bRows := kept, bJunk := none, bCols := tCols p }

/-- LDA (R309). -/
def doLda (s : State) (e : Nat) (c : MatCall) (m : Micro) : Except MicroStop Engine :=
  let n := m.pa.toNat
  let p := c.p n
  let sparse := m.x == 1
  let x := s.engine e
  if !tileOk s c.core c.params n (if sparse then 256 else 128) then .error (.fault 9)
  else if (tFmt p).toNat != fld c.mfmt 0 4 then .error (.fault 0xA)
  else if sparse && c.mask.isNone then .error (.fault 0xC)
  else if !linesReady s (tileLinesOf c.core p ++ scaleLines c.core c.params n (tRows p)) then .error .wait
  else
    let kept := keptOf c sparse
    let tbl := (List.range (tRows p)).flatMap fun r => (kept.filter (· < tCols p)).filterMap fun k =>
      let w := k19Word (fetchK19 (tFmt p) (tTs p) (tileScale s c.core c.params n r k) (tileElem s c.core p r k))
      if w == 0 then none else some (256 * r + k, w)
    .ok { x with latches := vset x.latches m.la.toNat ⟨tRows p, kept, tbl, none⟩ }

/-- Is a format pair wide: BF16 or FP16 on either side (R95)? -/
def widePair (mfmt : W64) : Bool := fld mfmt 0 4 == 4 || fld mfmt 4 4 == 4 || fld mfmt 0 4 == 5 || fld mfmt 4 4 == 5

/-- MAC (R311): a position that the latch or stationary B does not hold gives a zero product. DEDUCED, log 33. -/
def doMac (s : State) (e : Nat) (c : MatCall) (m : Micro) : Except MicroStop Engine :=
  let x := s.engine e
  let a := m.acc.toNat
  if !c.accw.testBit a then .error (.fault 0xB)
  else
    let l := vget x.latches m.la.toNat ⟨0, [], [], none⟩
    let (g, w) := groupOf (widePair c.mfmt)
    let t := vget x.acc a ⟨true, []⟩
    let one (i j : Nat) : W32 :=
      (List.range (256 / g)).foldl (fun acc q =>
        let ps := (List.range g).map fun k => match laElem l i (q * g + k), bElem x (q * g + k) j with
          | some u, some v => (u, v)
          | _, _ => (.fin false 0 0, .fin false 0 0)
        (dotGroup acc ps w).1) (if m.x == 1 then 0 else (tget t.elems (128 * i + j)).getD 0)
    .ok { x with acc := vset x.acc a { t with elems := setRegion t.elems l.rows x.bCols one } }

/-- LDACC (R307). -/
def doLdacc (s : State) (e : Nat) (c : MatCall) (m : Micro) : Except MicroStop Engine :=
  let n := m.pa.toNat
  let p := c.p n
  let x := s.engine e
  let a := m.acc.toNat
  if !c.accw.testBit a then .error (.fault 0xB)
  else if !tileOk s c.core c.params n 128 then .error (.fault 9)
  else if tFmt p != 6 && tFmt p != 4 then .error (.fault 0xA)
  else if !linesReady s (tileLinesOf c.core p) then .error .wait
  else
    let t := vget x.acc a ⟨true, []⟩
    let one (i j : Nat) : W32 :=
      let v := (decodeElem (tFmt p) (tileElem s c.core p i j)).scaleE8 (tTs p)
      if v.isNan then fp32NaN else (roundFp32 v).1
    .ok { x with acc := vset x.acc a { t with elems := setRegion t.elems (tRows p) (tCols p) one } }

/-- ACCADD (R307). -/
def doAccadd (s : State) (e : Nat) (c : MatCall) (m : Micro) : Except MicroStop Engine :=
  let x := s.engine e
  let a := m.acc.toNat
  if !c.accw.testBit a then .error (.fault 0xB)
  else
    let t := vget x.acc a ⟨true, []⟩
    let u := vget x.acc (m.imm.toNat % 8) ⟨true, []⟩
    let keys := tmerge (t.elems.length + u.elems.length + 1) t.elems u.elems
    let sum := keys.filterMap fun (k, _) =>
      let w := (fpAdd ((tget t.elems k).getD 0) ((tget u.elems k).getD 0)).1
      if w == 0 then none else some (k, w)
    .ok { x with acc := vset x.acc a { t with elems := sum } }

/-- ZACC (R307). -/
def doZacc (s : State) (e : Nat) (c : MatCall) (m : Micro) : Except MicroStop Engine :=
  let x := s.engine e
  let a := m.acc.toNat
  if !c.accw.testBit a then .error (.fault 0xB)
  else .ok { x with acc := vset x.acc a { vget x.acc a ⟨true, []⟩ with elems := [] } }

/-- Formats that STACC encodes (R313). -/
def staccFmt (f : BitVec 4) : Bool := f.toNat ≤ 7 || f == 9

/-- STACC (R313): the state with the tile written and its lines full. -/
def doStacc (s : State) (e : Nat) (c : MatCall) (m : Micro) : Except MicroStop State :=
  let n := m.pa.toNat
  let p := c.p n
  let x := s.engine e
  let t := vget x.acc m.acc.toNat ⟨true, []⟩
  if !c.parw.testBit n then .error (.fault 0xB)
  else if !tileOk s c.core c.params n 128 then .error (.fault 9)
  else if !staccFmt (tFmt p) then .error (.fault 0xA)
  else
    let lines := tileLinesOf c.core p
    if !(tilesOf lines).all (tileReady s) then .error .wait
    else
      let b := elemBits (tFmt p)
      let enc (i j : Nat) : Narrowed :=
        encodeElem (tFmt p) (m.x == 1) ((fp32 ((tget t.elems (128 * i + j)).getD 0)).unscaleE8 (tTs p))
      let s := (List.range (tRows p)).foldl (fun s i =>
        let v := (List.range (tCols p)).foldr (fun j acc => (enc i j).code + acc <<< b) 0
        performBits s (spKey c.core (fld p 22 2) (tRow p i)) (tRowBytes p) 0 (tCols p * b) v) s
      let sat := (List.range (tRows p)).foldl (fun n i =>
        (List.range (tCols p)).foldl (fun n j => if (enc i j).saturated then n + 1 else n) n) 0
      .ok (setFull (s.setEngine e { x with satcnt := x.satcnt + BitVec.ofNat 32 sat }) lines)

/-- The running call of an engine. -/
def State.running (s : State) (e : Nat) : Option MatCall :=
  match (s.engine e).queue with
  | c :: _ => if c.started then some c else none
  | [] => none

/-- Replace the call at the head of an engine's queue. -/
def setHead (x : Engine) (c : MatCall) : Engine := { x with queue := c :: x.queue.tail }

/-- The call at the head leaves; the slot whose phase it recorded may be in its reset state now (R267). -/
def dropHead (s : State) (e : Nat) (c : MatCall) : State :=
  let x := s.engine e
  (s.setEngine e { x with queue := x.queue.tail }).releasePhase c.core c.ph

/-- A running call stops (R147, R316): its lines, tiles and accumulators are given up, latches and stationary B are
undefined. -/
def stopHead (s : State) (e : Nat) (c : MatCall) : State :=
  let s := dropHead s e c
  let x := junkEngine (accFull (s.engine e) c.accw) s.free
  let s := abandon (s.setEngine e x) c.lines c.tiles
  flushWrites { s with free := s.free + 3 * 131072 } e

/-- The next micro-word of a call is an interrupt point (R316). -/
def atInterrupt (s : State) (e : Nat) (c : MatCall) : Bool := (routineWord s e c.routine c.word).any (·.getLsbD 63)

/-- A fault of an engine after acceptance discards the issuing launch, whose record lists the tiles with lines that the call
had not completed, and stops the call at once (R147, R314, R396). -/
def engineFault (s : State) (e : Nat) (c : MatCall) (cause : Nat) : State :=
  let s := discardLaunch s c.launch { faultRec 3 2 0x0A cause with
    core := c.core, ctx := c.ctx % 4, pc := BitVec.ofNat 64 (c.routine ||| (e % 2) <<< 8 ||| c.word <<< 16) }
  stopHead s e c

/-- Run one micro-operation on the running call of an engine: stop at an interrupt point (R316), fault, wait, or have the
effect `f`, which sees the number of the next word. -/
def microStep (s : State) (e : Nat) (m : Micro) (f : MatCall → Except MicroStop (State × MatCall)) : State :=
  match s.running e with
  | none => s
  | some c =>
    if c.stop && m.ip == 1 then stopHead s e c
    else match f { c with word := c.word + 1 } with
      | .error (.fault cause) => engineFault s e c cause
      | .error .wait => s
      | .ok (s, c) => s.setEngine e (setHead (s.engine e) c)

/-- A micro-operation that changes the engine alone. -/
def microEngine (s : State) (e : Nat) (m : Micro) (f : State → Nat → MatCall → Micro → Except MicroStop Engine) : State :=
  microStep s e m fun c => match f s e c m with
    | .ok x => .ok (s.setEngine e x, c)
    | .error t => .error t

/-- END (R300): the lines still empty and the declared accumulators become full, and the call has finished; before an END that
is an interrupt point, one that is to stop gives up what it names (R147, R316). -/
def microEnd (s : State) (e : Nat) (m : Micro) : State :=
  match s.running e with
  | none => s
  | some c =>
    if c.stop && m.ip == 1 then stopHead s e c
    else
      let s := setFull (dropHead s e c) c.lines
      flushWrites (s.setEngine e (accFull (s.engine e) c.accw)) e

/-- Set the declared accumulator tiles of an engine empty (R143). -/
def accEmpty (x : Engine) (accw : Nat) : Engine :=
  { x with acc := (maskBits accw 8).foldl (fun a i => vset a i { vget a i ⟨true, []⟩ with full := false }) x.acc }

/-- The launch of the call that a pre-emption of the engine has saved (R402). -/
def savedLaunch (s : State) (e : Nat) : Option Nat := (s.savedCalls.find? (·.engine == e)).map (·.call.launch)

/-- An accepted call starts (R300): earlier commands have finished, its phase has completed, and the gives of its tiles have
taken effect (R134). While a call is saved the commands of other launches run, in their order (R402). A tile that an earlier
call has set full meanwhile is empty again (R143, R289). DEDUCED, log 97. -/
def callStart (s : State) (e : Nat) : State :=
  let x := s.engine e
  match x.queue.find? fun c => some c.launch != savedLaunch s e with
  | some c =>
    if (s.running e).isNone && (c.ph == 63 || phaseDone (s.phaser c.core c.ph).phase c.phase) && !c.tiles.any (giveWaits s) then
      s.setEngine e (accEmpty { x with shape := 0, queue := { c with started := true } :: x.queue.erase c } c.accw)
    else s
  | none => s

/-- The conditions at issue of `mat.call` that no register read makes (R299 steps 2 and 3): ACCW and PW, or a trap. -/
def callDecl (s : State) (e routine : Nat) : Except Nat (Nat × Nat) :=
  if fld (s.mdir e routine) 25 1 == 0 then .error 2
  else match (routineWord s e routine 0).bind (decodeMicro e) with
    | some (.muDecl _ m) => .ok (m.imm.toNat % 256, m.imm.toNat / 256 % 256)
    | _ => .error 8

/-- Does a 64-bit mask of a mask word keep more than 32 positions (R308)? -/
def maskBad (v : Nat) : Bool := (List.range 4).any fun i => 32 < (maskBits (bits v (64 * i) 64) 64).length

/-- The lines that the declared parameters of a call describe (R299). -/
def declLines (core : Nat) (params : Vector W64 8) (parw : Nat) : List Nat :=
  (maskBits parw 8).foldl (fun ls n => sinsertAll ls (tileLinesOf core (vget params n 0))) []

/-- Accept a call (R299): the snapshot, the phase, the empty lines and accumulators. -/
def acceptCall (s : State) (k e routine ph accw parw : Nat) (mask : Option (BitVec 256)) : State :=
  let c := s.ctx k
  let x := s.engine e
  let core := k / 4
  let (id, s) := s.fresh
  let lines := declLines core c.p parw
  let call : MatCall := {
    id := id, core := core, ctx := k % 4, launch := c.unit.launch, params := c.p, pert := x.pert, sigma := x.sigma, mfmt := x.mfmt
    mask := mask, routine := routine, ph := ph, phase := if ph < 48 then (s.phaser core ph).phase else 0, started := false, word := 0
    n0 := 0, n1 := 0, accw := accw, parw := parw, lines := lines
    tiles := sinsertAll (sourceTiles s core e routine c.p) (tilesOf lines), stop := false }
  let s := s.setEngine e { accEmpty x accw with queue := x.queue ++ [call], drained := false }
  setEmpty (noteTiles s core (k % 4) c.unit.launch call.tiles) lines

/-- MEPRE REQ (R402): the running call stops at an interrupt point and is saved, with the queued calls of its launch. The
save area takes its words. -/
def saveArea (c : MatCall) : Nat × Nat :=
  let ps := (List.range 8).foldr (fun i acc => (c.p i).toNat + acc <<< 64) 0
  let ctl := c.pert.toNat ||| c.sigma.toNat <<< 64 ||| c.mfmt.toNat <<< 128 ||| c.word <<< 192 ||| c.n0 <<< 256 ||| c.n1 <<< 320
    ||| (c.ph ||| c.phase <<< 32) <<< 384 ||| c.accw <<< 448
  (ps ||| ctl <<< 512, (c.mask.getD 0).toNat)

/-- The bytes of an accumulator tile in a save area (R402). -/
def accBytes (t : AccTile) : Nat := t.elems.foldl (fun a (k, w) => a + w.toNat <<< (32 * k)) 0

end Sys2Proof.Machine
end

