-- ==== Sys2Proof/Machine/Preempt.lean ====
section
/-! DEFINITION. Pre-emption (R399): saving a context into its image and restoring it (R52, R400, R401), and saving an
engine's running call with its launch's queued calls (R402). -/
namespace Sys2Proof.Machine

/-- PRECTL of a context (R399). -/
def prectl (s : State) (k : Nat) : W64 := s.mmioWord (k / 256) (prectlOff k)

/-- SAVE: the physical address of a save area (R399). -/
def saveBase (w : W64) : Nat := fld w 8 40 <<< 8

/-- PRECTL.REQ (R399): ignored unless STATE is 0 and the context holds a unit that is neither retiring nor stopped. -/
def requestSave (s : State) (k : Nat) : State :=
  let st := (s.ctx k).status
  if preState s k != 0 || st == .free || st == .retiring || st == .stopping || !populated (saveBase (prectl s k)) then s else setPreState s k 1

/-- A bundle of the context commits when it issues next (R269, R392). -/
def Ctx.commits (c : Ctx) : Bool := match c.wait with
  | some (.block b) => b.kept
  | _ => false

/-- The context stops at its bundle boundary (R400 step 1); a bundle that firmware performs is finished first (R399). -/
def stopForSave (s : State) (k : Nat) : State :=
  let c := s.ctx k
  if preState s k != 1 || (s.bundle.map (·.ctx)) == some k || c.commits then s
  else match c.status with
    | .running | .handler =>
      leaveCore { s.setCtx k { c with status := .saving, wait := none } with walks := s.walks.filter (·.ctx != k) } k
    | .free | .stopping | .retiring => setPreState s k 0
    | _ => s

/-- Put a number into an image at an offset. -/
def putAt (v off : Nat) : Nat := v <<< (8 * off)

/-- A list of values of `n` bytes each as one number. -/
def packList (n : Nat) (l : List Nat) : Nat := l.foldr (fun v a => v + a <<< (8 * n)) 0

/-- A list of bits as one number. -/
def packBools (l : List Bool) : Nat := l.foldr (fun b a => (if b then 1 else 0) + 2 * a) 0

/-- A loop level in the image (R401). -/
def loopWords (l : Loop) : Nat := packList 8 [l.start.toNat, l.endAt.toNat, l.count.toNat]

/-- The image of a context (R401) as a number of 0x3000 bytes. -/
def image (c : Ctx) : Nat :=
  packList 256 (c.q.toList.map fun e => e.val.toNat)
    + putAt (packList 256 (c.h.toList.map fun r => r.val.toNat)) 0x1000
    + putAt (packList 64 (c.w.toList.map BitVec.toNat)) 0x2000
    + putAt (packList 8 (c.g.toList.map fun r => r.val.toNat)) 0x2400
    + putAt (packList 8 (c.p.toList.map BitVec.toNat)) 0x2500
    + putAt (packList 4 (c.k.toList.map BitVec.toNat)) 0x2540
    + putAt (packList 8 (c.c.toList.map BitVec.toNat)) 0x2580
    + putAt (packList 8 [c.pc.toNat, c.mpc.toNat,
        packBools (c.q.toList.map fun e => e.pend.isNone) + packBools (c.q.toList.map (·.isVec)) <<< 16
          + packBools (c.h.toList.map fun r => r.pend.isNone) <<< 32,
        packBools (c.g.toList.map fun r => r.pend.isNone)]) 0x2600
    + putAt (loopWords c.lp0) 0x2620 + putAt (loopWords c.lp1) 0x2638
    + putAt (packList 8 [packBools [c.lp0.active, c.lp1.active, c.monitor.isSome, c.task.isSome, c.record.isSome],
        (((c.task.map fun t => t.1).getD 0) : W64).toNat, c.stageCtr, c.fpflags.toNat, c.pclass.toNat, c.trapPc.toNat, c.faultInfo.toNat,
        c.faultAddr.toNat, c.asid.toNat, c.asperm.toNat, c.ptroot.toNat]) 0x2650
    + putAt (packList 8 (c.bank.toList.map fun r => r.val.toNat)) 0x26B0
    + putAt (packList 128 (c.shadow.toList.map BitVec.toNat)) 0x2800

/-- Every pending result of a context has arrived, or its launch has ended (R400 step 2), and its accesses have performed
(R52). -/
def saveSettled (s : State) (k : Nat) : Bool :=
  let c := s.ctx k
  let full := c.q.toList.all (fun e => e.pend.isNone) && c.g.toList.all (fun r => r.pend.isNone) && c.h.toList.all (fun r => r.pend.isNone)
    && c.bank.toList.all fun r => r.pend.isNone
  c.pend.isEmpty && c.results.isEmpty && (full || (s.launch? c.unit.launch).all (·.done))

/-- Memberships of a context number become those of another (R400). DEDUCED, log 59. -/
def moveMembers (s : State) (core x y : Nat) : State :=
  (memberships s core x).foldl (fun s (n, i) =>
    s.setPhaser n i ((s.phaser n i).update core x fun m => { m with ctx := y })) s

/-- The commands of a context number become those of another (R400). -/
def moveCommands (s : State) (core x y : Nat) : State :=
  let ren (c k : Nat) : Nat := if c == core && k == x then y else k
  let call (c : MatCall) : MatCall := { c with ctx := ren c.core c.ctx }
  { s with
    copies := s.copies.map fun c => { c with ctx := ren c.core c.ctx }
    batches := s.batches.map fun c => { c with ctx := ren c.core c.ctx }
    rreads := s.rreads.map fun c => { c with ctx := ren c.core c.ctx }
    runs := s.runs.map fun c => { c with ctx := ren c.core c.ctx }
    staggers := s.staggers.map fun c => { c with ctx := ren c.core c.ctx }
    engines := s.engines.map fun (e, x) => (e, { x with queue := x.queue.map call })
    savedCalls := s.savedCalls.map fun v => { v with call := call v.call, kept := v.kept.map call } }

/-- The image is written, the context is free and STATE is 2 (R400 steps 3 and 4). -/
def finishSave (s : State) (k : Nat) : State :=
  let c := s.ctx k
  if preState s k != 1 || c.status != .saving || !saveSettled s k then s
  else
    let s := externalWrite s (saveBase (prectl s k)) 0x3000 (image c)
    let s := moveCommands (moveMembers s (k / 4) (k % 4) (savedMember k)) (k / 4) (k % 4) (savedMember k)
    let bucket := (c.task.map fun t => t.2).getD 256
    let s := { s with savedCtxs := s.savedCtxs ++ [⟨k, c.unit, c.given, c.kHeld, [], c.bundleNo, c.record, bucket⟩] }
    setPreState (freeCtx s k) k 2

/-- Bytes `off` to `off + n - 1` of an image. -/
def imgAt (v off n : Nat) : Nat := bits v (8 * off) (8 * n)

/-- A loop level from an image. -/
def loopAt (v off : Nat) (active : Bool) : Loop :=
  ⟨active, BitVec.ofNat 64 (imgAt v off 8), BitVec.ofNat 64 (imgAt v (off + 8) 8), BitVec.ofNat 64 (imgAt v (off + 16) 8)⟩

/-- An empty register of an image waits for a producer that is gone. -/
def pendOf (full : Bool) : Option Nat := if full then none else some 0

/-- The fields of a view register: its reserved bits read 0 (R4, R43). -/
def viewFields (v : BitVec 512) : BitVec 512 := v &&& ~~~(0xFFFFFFFFFF008000 : BitVec 512)

/-- The context that an image holds (R400, R401), with the semaphores' increments since the save (R323); reserved bits are
ignored (R4). -/
def fromImage (v : Nat) (x : SavedCtx) : Ctx :=
  let w64 (off : Nat) : W64 := BitVec.ofNat 64 (imgAt v off 8)
  let flag (off i : Nat) : Bool := (imgAt v off 8).testBit i
  let qv (i : Nat) : Nat := imgAt v (256 * i) 256
  { Ctx.reset with
    status := if flag 0x2650 4 then .handler else .running
    unit := x.unit, given := x.given, kHeld := x.kHeld, bundleNo := x.bundleNo, record := x.record
    q := Vector.ofFn fun i : Fin 16 => ⟨flag 0x2610 (16 + i), BitVec.ofNat 2048 (qv i), pendOf (flag 0x2610 i)⟩
    h := Vector.ofFn fun i : Fin 16 => ⟨BitVec.ofNat 2048 (imgAt v (0x1000 + 256 * i) 256), pendOf (flag 0x2610 (32 + i))⟩
    w := Vector.ofFn fun i : Fin 16 => viewFields (BitVec.ofNat 512 (imgAt v (0x2000 + 64 * i) 64))
    g := Vector.ofFn fun i : Fin 32 => ⟨w64 (0x2400 + 8 * i), pendOf (flag 0x2618 i)⟩
    p := Vector.ofFn fun i : Fin 8 => w64 (0x2500 + 8 * i)
    k := Vector.ofFn fun i : Fin 16 => BitVec.ofNat 32 (min (imgAt v (0x2540 + 4 * i) 4 + x.bumps.count i.val) (2 ^ 32 - 1))
    c := Vector.ofFn fun i : Fin 8 => w64 (0x2580 + 8 * i)
    pc := w64 0x2600, mpc := w64 0x2608
    lp0 := loopAt v 0x2620 (flag 0x2650 0), lp1 := loopAt v 0x2638 (flag 0x2650 1)
    monitor := if flag 0x2650 2 then some ⟨0, 0, none, some 4, w64 0x2600⟩ else none
    task := if flag 0x2650 3 then some (w64 0x2658, x.bucket) else none
    stageCtr := imgAt v 0x2660 8, fpflags := BitVec.ofNat 5 (imgAt v 0x2668 8), pclass := w64 0x2670 &&& 3#64
    trapPc := w64 0x2678, faultInfo := w64 0x2680 &&& 0x70FF0F#64, faultAddr := w64 0x2688, asid := w64 0x2690 &&& 0xFFFF#64
    asperm := w64 0x2698 &&& 0x1E#64, ptroot := w64 0x26A0 &&& 0x0000FFFFFFFFF000#64
    bank := Vector.ofFn fun i : Fin 32 => ⟨w64 (0x26B0 + 8 * i), none⟩
    shadow := Vector.ofFn fun i : Fin 16 => BitVec.ofNat 1024 (imgAt v (0x2800 + 128 * i) 128) }

/-- The open writable views of a context. -/
def writableViews (c : Ctx) : List Nat := (List.range 16).filter fun i => vOpen (vget c.w i 0) && vWr (vget c.w i 0)

/-- A free entry of a core's live-view directory (R48). -/
def freeEntryOf (s : State) (core : Nat) : Option Nat := (List.range 64).find? fun i => (tget (s.core core).dir i).isNone

/-- Allocate a directory entry for a view, with an empty window (R48, R50). -/
def allocEntry (s : State) (core ctx view : Nat) : State :=
  match freeEntryOf s core with
  | some i =>
    let c := s.core core
    s.setCore core { c with dir := tset c.dir i ⟨ctx, view, none⟩ }
  | none => s

/-- Reload the image into the free context (R400, R52); a full directory makes the restore wait, with STATE 3, until its
entries free themselves (R51), the unit counting in LOAD by its power class (R354). The overlay store is left as it is, and the
column keeps the SPLIT that it has, whatever the unit ran under. DESIGN CHOICE, log 94. -/
def restoreNow (s : State) (k : Nat) : State :=
  match s.savedCtxs.find? (·.key == k) with
  | none => s
  | some x =>
    let core := k / 4
    let (v, s) := externalRead s (saveBase (prectl s k)) 0x3000
    let c := fromImage v x
    let decided := !(s.decisions.any fun d => x.record == some d.seq)
    let c := { c with handling := c.status == .handler && decided && !(s.core core).handlerStore.isEmpty }
    let views := writableViews c
    if 64 < (s.core core).dir.length + views.length then
      setPreState (s.setCtx k { Ctx.reset with status := .saving, unit := x.unit, pclass := c.pclass }) k 3
    else
      let s := { s with savedCtxs := s.savedCtxs.filter (·.key != k) }
      let s := moveCommands (moveMembers s core (savedMember k) (k % 4)) core (savedMember k) (k % 4)
      let s := setPreState (s.setCtx k c) k 0
      let s := views.foldl (fun s v => allocEntry s core (k % 4) v) s
      let s := match x.record with
        | some seq => match s.decisions.find? (·.seq == seq) with
          | some d => applyDecision s d
          | none => s
        | none => s
      chooseCtx s core

/-- PRECTL.RESTORE (R399), or the wait of a restore for the directory (R51, R52). -/
def restoreContext (s : State) (k : Nat) : State :=
  if (preState s k == 2 && (s.ctx k).status == .free) || preState s k == 3 then restoreNow s k else s

/-- MEPRE of an engine (R399). -/
def mepre (s : State) (e : Nat) : W64 := s.mmioWord (e / 128) (mepreOff e)

/-- MEPRE.REQ (R399, R402): a running call is to be saved. -/
def requestCallSave (s : State) (e : Nat) : State :=
  if mepreState s e != 0 || (s.running e).isNone || !populated (saveBase (mepre s e)) then s else setMepreState s e 1

/-- The accumulator tiles that a call declares, ascending. -/
def callTiles (c : MatCall) : List Nat := maskBits c.accw 8

/-- Write the save area of a call and its kept calls (R402). -/
def writeCalls (s : State) (e base : Nat) (c : MatCall) (kept : List MatCall) : State :=
  let s := externalWrite s base 128 (saveArea c).1
  let s := externalWrite s (base + 0x80) 32 (saveArea c).2
  let s := ((List.range kept.length).zip kept).foldl (fun s (i, x) => externalWrite s (base + 0x100 + 128 * i) 128 (saveArea x).1) s
  ((List.range 8).zip (callTiles c)).foldl (fun s (i, n) =>
    externalWrite s (base + 0x500 + 65536 * i) 65536 (accBytes (vget (s.engine e).acc n ⟨true, []⟩))) s

/-- Save the running call at an interrupt point, with the queued calls of its launch (R402). -/
def saveCalls (s : State) (e : Nat) : State :=
  match s.running e with
  | none => if mepreState s e == 1 then setMepreState s e 0 else s
  | some c =>
    if mepreState s e != 1 || !atInterrupt s e c || c.stop then s
    else
      let x := s.engine e
      let kept := x.queue.tail.filter (·.launch == c.launch)
      let s := writeCalls s e (saveBase (mepre s e)) c kept
      let x := junkEngine { x with queue := x.queue.tail.filter (·.launch != c.launch) } s.free
      let s := { s.setEngine e x with
        free := s.free + 3 * 131072, savedCalls := s.savedCalls ++ [⟨e, c, kept⟩] }
      flushWrites (setMepreState s e 2) e

/-- A saved call with the fields that 128 bytes of the save area hold (R402). -/
def callFrom (v : Nat) (c : MatCall) : MatCall :=
  let w (i : Nat) : W64 := BitVec.ofNat 64 (bits v (64 * i) 64)
  { c with
    params := Vector.ofFn fun i : Fin 8 => w i
    pert := w 8, sigma := (w 9).extractLsb' 0 32, mfmt := w 10, word := (w 11).toNat, n0 := (w 12).toNat, n1 := (w 13).toNat
    ph := fld (w 14) 0 32, phase := fld (w 14) 32 32, accw := (w 15).toNat }

/-- An accumulator tile from its bytes. -/
def accFrom (v : Nat) (full : Bool) : AccTile :=
  ⟨full, (List.range 16384).filterMap fun i => let w := BitVec.ofNat 32 (bits v (32 * i) 32); if w == 0 then none else some (i, w)⟩

/-- Read several places of `n` bytes one after another (R56). -/
def externalReads (s : State) (n : Nat) : List Nat → List Nat × State
  | [] => ([], s)
  | p :: ps =>
    let (v, s) := externalRead s p n
    let (vs, s) := externalReads s n ps
    (v :: vs, s)

/-- Put the saved call and the kept calls back at the head of the queue, once no call runs there (R402), but for those that
have been stopped (R147); latches and stationary B are undefined (R316). DEDUCED, log 62. -/
def restoreCalls (s : State) (e : Nat) : State :=
  match s.savedCalls.find? (·.engine == e) with
  | none => s
  | some v =>
    if (mepreState s e != 2 && mepreState s e != 3) || (s.running e).isSome then
      (if mepreState s e == 2 then setMepreState s e 3 else s)
    else
      let base := saveBase (mepre s e)
      let (head, s) := externalRead s base 128
      let (mask, s) := externalRead s (base + 0x80) 32
      let (areas, s) := externalReads s 128 ((List.range v.kept.length).map fun i => base + 0x100 + 128 * i)
      let c := callFrom head v.call
      let c := { c with mask := v.call.mask.map fun _ => BitVec.ofNat 256 mask }
      let kept := (areas.zip v.kept).map fun (a, x) => callFrom a x
      let tiles := if c.stop then [] else callTiles c
      let (accs, s) := externalReads s 65536 ((List.range tiles.length).map fun i => base + 0x500 + 65536 * i)
      let x := s.engine e
      let acc := (tiles.zip accs).foldl (fun a (n, v) => vset a n (accFrom v false)) x.acc
      let x := junkEngine { x with queue := (c :: kept).filter (!·.stop) ++ x.queue, acc := acc } s.free
      setMepreState { s.setEngine e x with free := s.free + 3 * 131072, savedCalls := s.savedCalls.filter (·.engine != e) } e 0

end Sys2Proof.Machine
end

