-- ==== Sys2Proof/Machine/RegWrite.lean ====
section
/-! DEFINITION. Writes of the register window (R3, R404): what a write of each register sets in motion. -/
namespace Sys2Proof.Machine

/-- A written value in its place in a 64-bit word: bytes not written count as 0. -/
def placed (off n : Nat) (v : W64) : W64 :=
  if n == 8 then v else (v &&& 0xFFFFFFFF#64) <<< (8 * (off % 8))

/-- Does a write reach bit `b` of its word? -/
def reaches (off n b : Nat) : Bool := 8 * (off % 8) ≤ b && b < 8 * (off % 8 + n)

/-- The input that a circuit-table entry connects to output `o` (R75). -/
def circuitIn (w o : Nat) : Nat := bits w (3 * o) 3

/-- A router on the edge of the grid has the port PKG (R75). -/
def edgeRouter (c : Nat) : Bool := c / 8 == 0 || c / 8 == 7 || c % 8 == 0 || c % 8 == 7

/-- An entry that reserves connections and is invalid (R75). -/
def circuitBad (c w : Nat) : Bool :=
  let ins := (List.range 7).map (circuitIn w)
  w.testBit 31 && ((ins.filter (· != 7)).any (fun i => 1 < ins.count i) || (List.range 7).any (fun o => circuitIn w o == o)
    || (!edgeRouter c && (circuitIn w 6 != 7 || ins.contains 6)))

/-- A write of circuit-table entries (R75): CIRCERR counts an invalid entry when it is written (log 15). -/
def writeCircuit (s : State) (die off n : Nat) (v : W64) : State :=
  let s := s.mmioPut die off n v
  let c := (off - 0x40000) / 1024
  let w := s.mmioWord die off
  let one (s : State) (lo : Nat) : State := if reaches off n lo && circuitBad c (fld w lo 32) then bump s die 0x700 else s
  one (one s 0) 32

/-- A write of FPORT (R410, R412). -/
def writePort (s : State) (off n : Nat) (v : W64) : State :=
  let s := s.mmioPut 0 off n v
  if (placed off n v).getLsbD 2 then reattestPort s ((off - 0x1000) / 16) else s

/-- Writing 1 to OVF clears it and DROPS (R169). -/
def clearOvf (s : State) (die n : Nat) : State :=
  let off := 0xC000 + 32 * n + 16
  s.setMmio die off (setFld (setFld (s.mmioWord die off) 13 1 0) 32 32 0)

/-- A write of word 2 of a mailbox (R169). -/
def writeMailbox (s : State) (die off n : Nat) (v : W64) : State :=
  let s := s.mmioPut die off n v
  if (placed off n v).getLsbD 13 then clearOvf s die ((off - 0xC000) / 32) else s

/-- A write of PRECTL (R399). DEDUCED, log 61. -/
def writePrectl (s : State) (die off n : Nat) (v : W64) : State :=
  let k := die * 256 + (off - 0xE000) / 16
  let s := s.mmioPut die off n v
  let s := if (placed off n v).getLsbD 0 then requestSave s k else s
  if (placed off n v).getLsbD 1 then restoreContext s k else s

/-- A write of MEPRE (R399). -/
def writeMepre (s : State) (die off n : Nat) (v : W64) : State :=
  let e := die * 128 + (off - 0xF000) / 16
  let s := s.mmioPut die off n v
  let s := if (placed off n v).getLsbD 0 then requestCallSave s e else s
  if (placed off n v).getLsbD 1 && mepreState s e == 2 then restoreCalls s e else s

/-- A write of STATE of a level entry (R166): 0 frees an ended entry, 3 ends a running job. -/
def writeLevel (s : State) (off n : Nat) (v : W64) : State :=
  let i := (off - 0x300000) / 16
  if off / 8 % 2 == 1 || !reaches off n 61 then s
  else match fld (placed off n v) 61 3 with
    | 0 => freeEntry s i
    | 3 => if 1296 ≤ i then endJob s (i - 1296) else s
    | _ => s

/-- Writing word 0 of a group with V = 1 sets SEQ to 0 and clears CANC (R330). -/
def defineGroup (s : State) (g : Nat) (v : W64) : State :=
  let s := s.mmioPut 0 (0x400000 + 32 * g) 8 v
  if v.getLsbD 63 then setGroup (setGroup s g 32 16 0) g 62 1 0 else s

/-- A write of a collective group (R330). -/
def writeGroup (s : State) (off n : Nat) (v : W64) : State :=
  let s := s.mmioPut 0 off n v
  let g := (off - 0x400000) / 32
  if off % 32 / 8 == 0 && (placed off n v).getLsbD 63 then setGroup (setGroup s g 32 16 0) g 62 1 0 else s

/-- A write of LOGCTL (R375, R376). -/
def writeLogCtl (s : State) (off n : Nat) (v : W64) : State :=
  if reaches off n 63 then
    if (placed off n v).getLsbD 63 then
      logStart s (if n == 8 then v else setFld (logCtl s) 32 32 (fld (placed off n v) 32 32))
    else logStop (s.mmioPut 0 off n v)
  else if logEn s then s else s.mmioPut 0 off n v

/-- Log registers that keep their value while the log is enabled or at work (R375). -/
def logLocked (off : Nat) : Bool :=
  (0x500008 ≤ off && off < 0x500030) || (0x501000 ≤ off && off < 0x501800)

/-- A write of a log register (R375). -/
def writeLog (s : State) (off n : Nat) (v : W64) : State :=
  if off / 8 * 8 == 0x500000 then writeLogCtl s off n v
  else if logLocked (off / 8 * 8) && (logEn s || logState s != 0) then s
  else s.mmioPut 0 off n v

/-- A write of `n` bytes (4 or 8) of a die's window by the host or by privileged code (R3, R22, R404); dropped before
DEV_READY (R414). A 4-byte write of LQDOOR submits a pointer whose other half is 0. DESIGN CHOICE, log 93. -/
def writeReg (s : State) (die off n : Nat) (v : W64) : State :=
  if !s.devReady || 4 ≤ die || (die != 0 && dieZeroOnly off) then s
  else if isTable off then { s with tableWrites := s.tableWrites ++ [(off, n, v)] }
  else if off == 0x200 then writeDet s (v.extractLsb' 0 32)
  else if off / 8 * 8 == 0x618 then resume s (fld (placed off n v) 32 32) (fld (placed off n v) 0 2)
  else if off / 8 * 8 == 0x620 then
    s.setMmio 0 0x620 (if n == 8 then v else setFld (s.mmioWord 0 0x620) (8 * (off % 8)) 32 (v.toNat % 2 ^ 32))
  else if 0x1000 ≤ off && off < 0x1200 && off % 16 < 8 then writePort s off n v
  else if off / 8 * 8 == 0x320 then reheat (s.mmioPut die off n v)
  else if 0xA000 ≤ off && off < 0xA200 && off % 32 / 8 == 1 then submit s die ((off - 0xA000) / 32) (placed off n v) none 0
  else if 0xC000 ≤ off && off < 0xC800 && off % 32 / 8 == 2 then writeMailbox s die off n v
  else if 0xE000 ≤ off && off < 0xF000 && off % 16 < 8 then writePrectl s die off n v
  else if 0xF000 ≤ off && off < 0xF800 && off % 16 < 8 then writeMepre s die off n v
  else if 0x40000 ≤ off && off < 0x50000 then writeCircuit s die off n v
  else if 0x300000 ≤ off && off < 0x305140 then writeLevel s off n v
  else if 0x400000 ≤ off && off < 0x400800 then writeGroup s off n v
  else if 0x500000 ≤ off && off < 0x501800 then writeLog s off n v
  else if !(mprogTargets off).isEmpty then writeMprog s die off n v
  else s.mmioPut die off n v

end Sys2Proof.Machine
end

