-- ==== Sys2Proof/Machine/Perform.lean ====
section
/-! DEFINITION. What the device does after a bundle has committed: pending accesses, releases and drains perform when the
order rules allow it (R102 to R127), results arrive (R181), page walks end (R68, R71), and blocked contexts wake
(R150, R246, R252, R264, R265, R272, R317). -/
namespace Sys2Proof.Machine

/-- A pending entry has performed. -/
def dropPend (s : State) (k id : Nat) : State :=
  let c := s.ctx k
  s.setCtx k { c with pend := c.pend.filter (·.id != id) }

/-- The data of a piece. -/
def pieceData (a : Access) (p : Piece) : Vec := a.data >>> p.lo

/-- A VA load may take its value from the L1 (R63, R118): not a write, and not strong at die scope or wider. DEDUCED, log 63. -/
def l1Serves (a : Access) : Bool := a.op == .load && (match a.strong with
  | some sc => sc == 0
  | none => true)

/-- The bits of a piece in an L1 line. -/
def l1Piece (l : L1Line) (va : Nat) (p : Piece) : Nat := bits l.data.toNat (8 * (va % 128) + p.bit) p.bits

/-- Replace the access of a pending entry. -/
def setAccess (s : State) (k id : Nat) (a : Access) : State :=
  let c := s.ctx k
  s.setCtx k { c with pend := c.pend.map fun x => if x.id == id then { x with kind := .access a } else x }

/-- The next piece of a VA store passes its column's L2 boundary (R113, R116): it updates the L1 and is forwarded to the loads
of the core until it reaches its point of coherence. -/
def crossPiece (s : State) (k id : Nat) (a : Access) (p : Piece) (va key : Nat) : State :=
  let core := k / 4
  let v := (pieceData a p).toNat % 2 ^ p.bits
  let c := s.core core
  let s := s.setCore core { c with fwd := c.fwd ++ [⟨k, id, p.lo, key, p.bytes, p.bit, p.bits, v⟩] }
  setAccess (l1Store s core a.asid va p.bit p.bits v) k id { a with pieces := a.pieces.tail ++ [{ p with place := .bound va key }] }

/-- A piece performs at its point of coherence (R115): a read that meets an uncorrectable error discards the launch (R388). A
load sees the VA stores that the core has still to hand on, whichever space names the byte (R33, R116, R117). -/
def performAt (s : State) (k id : Nat) (a : Access) (p : Piece) (key : Nat) : State :=
  match (if opReads a.op then badLine? s key p.bytes else none) with
  | some l => failAccess s k id (memoryFault l)
  | none =>
    let s := touchCaches s (k / 4) key (opWrites a.op) (a.hint == 2)
    if a.op == .load then finishPiece s k id a p (bits (coreRead s (k / 4) key p.bytes) p.bit p.bits) 0
    else
      let (v, f, s) := performOp s (k / 4) a.op key p.bytes p.bit p.bits (pieceData a p)
      finishPiece s k id a p v f

/-- A VA load reads (R63, R113, R116, R118): from the L1, or past it, and then fills a line. -/
def loadVa (s : State) (k id : Nat) (a : Access) (p : Piece) (va key : Nat) : State :=
  let core := k / 4
  match (if l1Serves a then l1Find s core a.asid va else none), badLine? s key p.bytes with
  | some l, _ => finishPiece (l1Touch s core a.asid va) k id a p (l1Piece l va p) 0
  | none, some l => failAccess s k id (memoryFault l)
  | none, none =>
    let v := bits (coreRead s core key p.bytes) p.bit p.bits
    let s := touchCaches s core key false (a.hint == 2)
    let s := if a.hint == 0 then l1Fill s core a.asid va (BitVec.ofNat 1024 (coreRead s core (key / 128 * 128) 128)) else s
    finishPiece s k id a p v 0

/-- A VA piece performs (R63, R113, R116): a store passes the L2 boundary first; an atomic updates the L1 from its point of
coherence. -/
def performVa (s : State) (k id : Nat) (a : Access) (p : Piece) (va key : Nat) : State :=
  match a.op with
  | .store => crossPiece s k id a p va key
  | .load => loadVa s k id a p va key
  | op =>
    let s := performAt s k id a p key
    if opWrites op then l1Store s (k / 4) a.asid va 0 (8 * p.bytes) (performRead s key p.bytes) else s

/-- A piece in another device's memory (R21, R32): the request is sent once, and the answer ends the piece. -/
def performPeer (s : State) (k id : Nat) (a : Access) (p : Piece) (device off : Nat) : State :=
  if a.sent then s
  else sendMsg (setAccess s k id { a with sent := true }) device
    (.peerReq ⟨s.deviceId, id, device, off, a.op, p.bytes, p.bit, p.bits, pieceData a p, 0, k / 256⟩)

/-- A piece in host memory (R127, R404); the host may complete it with an error (R32). DESIGN CHOICE, log 19. -/
def performHost (s : State) (k id : Nat) (a : Access) (p : Piece) (addr : Nat) : State :=
  let old := memRead s.hostMem addr p.bytes
  if hostFails s addr p.bytes then targetError s k id
  else if opWrites a.op then
    let mask := (2 ^ p.bits - 1) <<< p.bit
    let new := (old &&& (2 ^ (8 * p.bytes) - 1 - mask)) ||| ((pieceData a p).toNat % 2 ^ p.bits) <<< p.bit
    finishPiece { s with hostMem := memWrite s.hostMem addr new p.bytes } k id a p (bits old p.bit p.bits) 0
  else finishPiece s k id a p (bits old p.bit p.bits) 0

/-- The next piece of an access performs. -/
def performPiece (s : State) (k id : Nat) (a : Access) (p : Piece) : State :=
  match p.place with
  | .mem key => performAt s k id a p key
  | .va va key => performVa s k id a p va key
  | .bound _ key => performAt (dropFwd s k id p.lo) k id a p key
  | .cached va => finishPiece (l1Touch s (k / 4) a.asid va) k id a p ((pieceData a p).toNat % 2 ^ p.bits) 0
  | .untranslated _ => s
  | .peer d off => performPeer s k id a p d off
  | .host addr => performHost s k id a p addr
  | .mmio die off =>
    if opWrites a.op then finishPiece (writeReg s die off p.bytes ((pieceData a p).extractLsb' 0 64)) k id a p 0 0
    else finishPiece s k id a p (mmioRead s die off p.bytes) 0
  | .outside => finishPiece s k id a p 0 0

/-- A release takes effect (R122, R134, R255, R271, R338, R339). -/
def performRelease (s : State) (k : Nat) (r : Release) : State :=
  let c := s.ctx k
  let core := k / 4
  match r with
  | .view _ => s
  | .signal n slot drop =>
    s.putPhaser n slot (if drop then (s.phaser n slot).dropMember core (k % 4) else (s.phaser n slot).countSignal core (k % 4))
  | .give _ => s
  | .push job bucket task => pushNow s core job bucket task
  | .taskDone job => doneNow s core job
  | .append _ e => appendNow s c.unit.launch e
  | .resume q => resumeNow s q

/-- A pending entry of a context performs, if the order rules allow it now. DESIGN CHOICE, log 23. -/
def perform (s : State) (k id : Nat) : State :=
  let c := s.ctx k
  match c.pend.find? (·.id == id) with
  | none => s
  | some e =>
    if !mayPerform s k (pendBefore c.pend id) e then s
    else match e.kind with
      | .access a => match a.pieces with
        | p :: _ => performPiece s k id a p
        | [] => dropPend s k id
      | .release _ r => performRelease (dropPend s k id) k r
      | .drain scope => acquireL1 (dropPend s k id) (k / 4) c.asid.toNat scope
      | .acquire scope => acquireL1 (dropPend s k id) (k / 4) c.asid.toNat scope

/-- A variable-latency result arrives and fills its place (R181, R183); the flags of an FP atomic are ORed in (R262). -/
def arrive (s : State) (k id : Nat) : State :=
  let c := s.ctx k
  match c.results.find? (·.id == id) with
  | none => s
  | some r =>
    let c := c.fill id r.val
    s.setCtx k { c with results := c.results.filter (·.id != id), fpflags := c.fpflags ||| r.flags }

/-- A context's wait for a walk is over. -/
def walkOver (s : State) (w : Walk) : State :=
  let c := s.ctx w.ctx
  if c.wait == some (.walk w.va w.addr w.write) then s.setCtx w.ctx { c with wait := none } else s

/-- One of the 16 page walkers of its die has taken a walk (R68): the oldest walks of the die have them. -/
def walking (s : State) (i : Nat) (w : Walk) : Bool := ((s.walks.take i).filter fun x => x.ctx / 256 == w.ctx / 256).length < 16

/-- A page walk ends (R68, R71, R20): a translation is inserted, or the bundle that waits for it traps. -/
def endWalk (s : State) (i : Nat) : State :=
  match s.walks[i]? with
  | none => s
  | some w =>
    if !walking s i w then s
    else
      let s := { s with walks := s.walks.eraseIdx i }
      let c := s.ctx w.ctx
      let waits := c.wait == some (.walk w.va w.addr w.write) && c.asid.toNat == w.asid && c.ptroot.toNat == w.root
      let addr : Option W64 := some (BitVec.ofNat 64 w.addr)
      match walkThrough s (w.ctx / 4) w.root w.va w.write with
      | (.page size frame wr, s) => walkOver (tlbInsert s (w.ctx / 4) w.asid w.va size frame wr) w
      | (.fault cause, s) => if waits then takeTrap s w.ctx w.slot ⟨0x04, cause, addr⟩ else s
      | (.phys, s) => if waits then takeTrap s w.ctx w.slot ⟨0x03, 0xB, addr⟩ else s
      | (.bad l, s) =>
        if waits then discardUnit s w.ctx { memoryFault l with core := w.ctx / 4, ctx := w.ctx % 4, pc := (s.ctx w.ctx).pc } else s

/-- An engine is drained (R302): its queue is empty, and no call that a pre-emption took from it has still to go on. -/
def engineIdle (s : State) (e : Nat) : Bool := (s.engine e).queue.isEmpty && !s.savedCalls.any (·.engine == e)

/-- What a block waits for has come (R150). A context that is no member of the slot any more issues its `ph.wait` again, which traps
(R274). DEDUCED, log 112. -/
def blockOver (s : State) (k : Nat) (b : Block) : Bool :=
  let c := s.ctx k
  match b with
  | .semaphore n amount => amount ≤ (vget c.k n 0).toNat - vget c.kHeld n 0
  | .phase core slot p => phaseDone (s.phaser core slot).phase p || ((s.phaser core slot).member? (k / 4) (k % 4)).isNone
  | .passed _ _ => true
  | .drain => !c.pend.any fun p => match p.kind with
      | .drain _ => true
      | _ => false
  | .take tile => mayTake s tile
  | .engineQueue e => queueUsed s e < 8 && (s.engine e).writes.isEmpty
  | .engineIdle e => engineIdle s e
  | .octant n count => stageFits s n count
  | .collective die => (s.runs.filter (·.die == die)).length < 16
  | .bucket => taskCount s (k / 4) < 512
  | .task => (popChoice s (k / 4) c.unit.job).isSome || (s.core (k / 4)).wlDone.contains c.unit.job
  | .logSlot q => slotFree s q
  | .monitor => (c.monitor.bind (·.woken)).isSome
  | .maintenance (some n) => s.split (k / 4) == n
  | .maintenance none => true
  | .emulation => c.executes

/-- Every write through a directory entry of a context has performed at a scope (R50, R116). -/
def entryDone (s : State) (k entry scope : Nat) : Bool :=
  (entryWrites (s.ctx k).pend entry).all fun a => scope == 0 && a.atCore

/-- What any wait waits for has come (R150, R151). -/
def waitOver (s : State) (k : Nat) (w : Wait) : Bool :=
  let c := s.ctx k
  match w with
  | .reg => true
  | .line l => !s.emptyLines.contains l
  | .directory room owns => (s.core (k / 4)).dir.length + room ≤ 64 + (owns.filter fun o => entryDone s k o.1 o.2).length
  | .acc e n => (vget (s.engine e).acc n ⟨true, []⟩).full
  | .walk va _ _ => (tlbFind s (k / 4) c.asid.toNat va).isSome
  | .fetch device off bytes => (fetched s k device off bytes).isSome
  | .view _ => true
  | .read => true
  | .block b => blockOver s k b

/-- A blocked context wakes once its condition has cleared, and is runnable again (R150). DESIGN CHOICE, log 25. -/
def wake (s : State) (k : Nat) : State :=
  let c := s.ctx k
  match c.wait with
  | some (.block b) =>
    if !b.kept && c.executes && blockOver s k b then chooseCtx (s.setCtx k { c with wait := none }) (k / 4) else s
  | _ => s

/-- Wake an armed monitor with a cause (R264, R265). -/
def wakeMonitor (s : State) (k cause : Nat) : State :=
  let c := s.ctx k
  match c.monitor with
  | some m => if m.woken.isSome then s else wake (s.setCtx k { c with monitor := some { m with woken := some cause } }) k
  | none => s

/-- The timeout of an armed monitor expires (R265). -/
def monitorTimeout (s : State) (k : Nat) : State :=
  match (s.ctx k).monitor with
  | some m => if m.until'.any (· ≤ s.clk) then wakeMonitor s k 3 else s
  | none => s

/-- A directory entry is freed: no pending write of its context names it any more. -/
def dropEntry (s : State) (k i : Nat) : State :=
  let c := s.core (k / 4)
  let off (p : Pend) : Pend := match p.kind with
    | .access a => if a.entry == some i then { p with kind := .access { a with entry := none } } else p
    | _ => p
  let s := s.setCore (k / 4) { c with dir := terase c.dir i }
  s.setCtx k { s.ctx k with pend := (s.ctx k).pend.map off }

/-- Every write through a retired view has performed at the scope of its retire, and its directory entry is freed (R50). -/
def freeView (s : State) (core i : Nat) : State :=
  match tget (s.core core).dir i with
  | some ⟨ctx, _, some scope⟩ => if entryDone s (core * 4 + ctx) i scope then dropEntry s (core * 4 + ctx) i else s
  | _ => s

/-- A target answers an access with an error (R32). -/
def errorAnswer (s : State) (k id : Nat) : State := targetError s k id

end Sys2Proof.Machine
end

