-- ==== Sys2Proof/Machine/Commit.lean ====
section
/-! DEFINITION. Issue and commit of a bundle (R101, R102, R180 to R193): every slot asks for effects; the last slot translates
the bundle's VA accesses (R68, R101), makes its waits (R150), and has all effects take place, control slots last
(R192), with the loop close of R243. -/
namespace Sys2Proof.Machine

/-- What a slot sees: the machine, its context as it stood before the bundle (R180, R184), and its place. -/
structure Env where
  (s : State) (k : Nat) (c : Ctx) (slot : Nat)

/-- The column of the issuing unit. -/
def Env.core (e : Env) : Nat := e.k / 4

/-- The address of the slot's bundle. -/
def Env.pc (e : Env) : W64 := e.c.pc

/-- A piece with its translation (R68, R101). -/
def translated (p : Piece) (va key : Nat) : Piece := { p with place := .va va key }

/-- A piece that straddles two lines, as two pieces, where it is still to be translated, here or at its target (R38,
R106). -/
def splitPiece (p : Piece) : List Piece :=
  match p.place with
  | .untranslated va =>
    if p.bytes == 2 && p.bits < 16 && va % 128 == 127 then
      let n := 8 - p.bit
      [⟨.untranslated va, 1, p.bit, n, p.lo⟩, ⟨.untranslated (va + 1), 1, 0, p.bits - n, p.lo + n⟩]
    else [p]
  | .peer d off =>
    if p.bytes == 2 && p.bits < 16 && off % 65536 == 65535 then
      let n := 8 - p.bit
      [⟨.peer d off, 1, p.bit, n, p.lo⟩, ⟨.peer d (off + 1), 1, 0, p.bits - n, p.lo + n⟩]
    else [p]
  | _ => [p]

/-- A piece of a load that the L1 holds and that may read there now (R20, R63, R101). -/
def cachedPiece (s : State) (k : Nat) (a : Access) (p : Piece) (va : Nat) : Option (Piece × Vec) :=
  let q := { p with place := .cached va }
  let c := s.ctx k
  if !pieceMay s k 0 c.pend c.bundleNo { a with pieces := [q] } q then none
  else (l1Find s (k / 4) a.asid va).map fun l => (q, BitVec.ofNat 2048 (l1Piece l va p <<< p.lo))

/-- A piece ready for commit (R68, R69, R101), with what the L1 gave for it; `addr` is its effective address (R30). A load
that hits the L1 is not translated: it reads there at once, or waits its turn. -/
def readyPiece (s : State) (k : Nat) (a : Access) (l1 : Bool) (addr : Nat) (p : Piece) : Except Stop (Piece × Vec) :=
  match p.place with
  | .untranslated va =>
    let hits := l1 && l1Serves a && (l1Find s (k / 4) a.asid va).isSome
    match (if hits then cachedPiece s k a p va else none), tlbLookup s (k / 4) a.asid va (opWrites a.op) with
    | some q, _ => .ok q
    | none, .hit key => .ok (translated p va key, 0)
    | none, x =>
      if hits then .error (.wait .read)
      else match x with
        | .write => .error (.trap ⟨0x04, 2, some (BitVec.ofNat 64 addr)⟩)
        | .phys => .error (.trap ⟨0x03, 0xB, some (BitVec.ofNat 64 addr)⟩)
        | _ => .error (.wait (.walk va addr (opWrites a.op)))
  | _ => .ok (p, 0)

/-- The parts of a piece, ready for commit. -/
def readyParts (s : State) (k : Nat) (a : Access) (l1 : Bool) (addr : Nat) : List Piece → Except Stop (List Piece × Vec)
  | [] => .ok ([], 0)
  | p :: rest =>
    match readyPiece s k a l1 addr p with
    | .error e => .error e
    | .ok (q, v) => match readyParts s k a l1 addr rest with
      | .ok (qs, w) => .ok (q :: qs, v ||| w)
      | .error e => .error e

/-- The pieces of an access, ready for commit (R68, R101). -/
def readyPieces (s : State) (k : Nat) (a : Access) (l1 : Bool) : List Piece → Except Stop (List Piece × Vec)
  | [] => .ok ([], 0)
  | p :: rest =>
    let addr := match p.place with
      | .untranslated va => va
      | _ => 0
    match readyParts s k a l1 addr (splitPiece p) with
    | .error e => .error e
    | .ok (qs, v) => match readyPieces s k a l1 rest with
      | .ok (ps, w) => .ok (qs ++ ps, v ||| w)
      | .error e => .error e

/-- An empty scratchpad line that a reading access touches (R139). -/
def emptyUnder (s : State) (a : Access) : Option Nat :=
  if !opReads a.op then none
  else a.pieces.findSome? fun p => match p.place with
    | .mem key => if isSp key then (linesOf key p.bytes).find? s.emptyLines.contains else none
    | _ => none

/-- An access ready for commit, or the reason to stop (R101, R139); `l1` says that a load may hit the L1. -/
def readyAccess (s : State) (k : Nat) (l1 : Bool) (a : Access) : Except Stop Access :=
  match readyPieces s k a l1 a.pieces with
  | .error e => .error e
  | .ok (ps, v) =>
    let a := { a with pieces := ps, data := if a.op == .load then v else a.data }
    match emptyUnder s a with
    | some l => .error (.wait (.line l))
    | none => .ok a

/-- The monitor that a context armed for the bundle at its pc (R264). DEDUCED, log 69. -/
def Ctx.armed (c : Ctx) : Option Monitor := c.monitor.filter (·.pc == c.pc)

/-- Ready every access of a bundle, in slot order (R388): the effects, or the slot that stops and why. -/
def readyAll (s : State) (k : Nat) : List (Nat × Effect) → Except (Nat × Stop) (List (Nat × Effect))
  | [] => .ok []
  | (i, e) :: rest =>
    let one : Except Stop Effect := match e with
      | .access a d => match readyAccess s k true a with
        | .ok a => .ok (.access a d)
        | .error x => .error x
      | .monitor a cmp t d => if (s.ctx k).armed.isSome then .ok e
        else match readyAccess s k false a with
          | .ok a => .ok (.monitor a cmp t d)
          | .error x => .error x
      | e => .ok e
    match one with
    | .error x => .error (i, x)
    | .ok e => match readyAll s k rest with
      | .ok es => .ok ((i, e) :: es)
      | .error x => .error x

/-- The line that a monitor watches. -/
def Piece.line (p : Piece) : Nat :=
  match p.place with
  | .mem key => lineOf key
  | .va _ key => lineOf key
  | _ => 0

/-- What a monitored wait comes to at commit (R264, R266): its cause, or a stop, with the monitor armed or disarmed. Its read sees
the VA stores that the core has still to hand on (R49, R116). -/
def monitorStep (s : State) (k slot : Nat) (a : Access) (cmp : W64) (timeout : Nat) : State × Except Stop Nat :=
  let c := s.ctx k
  match c.armed with
  | some m => match m.woken with
    | some cause => (s.setCtx k { c with monitor := none }, .ok cause)
    | none => (s, .error (.wait (.block .monitor)))
  | none =>
    if !mayPerform s k c.pend ⟨0, c.bundleNo, .access { a with slot := slot }⟩ then (s, .error (.wait .read))
    else match a.pieces with
      | p :: _ =>
        let key := match p.place with
          | .mem key => key
          | .va _ key => key
          | _ => 0
        let cur := bits (coreRead s (k / 4) key p.bytes) p.bit p.bits
        let bad := badLine? s key p.bytes
        let s := touchCaches s (k / 4) key false false
        if bad.isSome then (s, .error (.dead (memoryFault p.line)))
        else if cur != cmp.toNat % 2 ^ p.bits then (s, .ok 0)
        else
          let until' := if timeout == 0 then none else some (s.clk + 2 ^ timeout)
          (s.setCtx k { s.ctx k with monitor := some ⟨p.line, s.clk, until', none, c.pc⟩ }, .error (.wait (.block .monitor)))
      | [] => (s, .ok 0)

/-- Effects that wait (R150), the first in slot order. -/
def blockedBy (effs : List (Nat × Effect)) : Option (Nat × Wait) :=
  effs.findSome? fun x => match x.2 with
    | .blocked w => some (x.1, w)
    | _ => none

/-- Monitored waits of a bundle, resolved: each becomes its result (R264). -/
def resolveMonitors (s : State) (k : Nat) : List (Nat × Effect) → State × Except (Nat × Stop) (List (Nat × Effect))
  | [] => (s, .ok [])
  | (i, e) :: rest =>
    match resolveMonitors s k rest with
    | (s, .error w) => (s, .error w)
    | (s, .ok es) =>
      match e with
      | .monitor a cmp t d =>
        match monitorStep s k i a cmp t with
        | (s, .ok cause) =>
          let acq := if a.acquire then [(i, Effect.acquire (a.strong.getD 0))] else []
          (s, .ok ((i, .late d false (asVec (BitVec.ofNat 64 cause))) :: acq ++ es))
        | (s, .error w) => (s, .error (i, w))
      | e => (s, .ok ((i, e) :: es))

/-- Change a context. -/
def State.onCtx (s : State) (k : Nat) (f : Ctx → Ctx) : State := s.setCtx k (f (s.ctx k))

/-- The destinations of a bundle, in slot order (R180, R181, R183): immediate results are written, the others reserved; a
load or atomic takes the number of the result it fills. -/
def writeDests (s : State) (k : Nat) : List (Nat × Effect) → State × List (Nat × Effect)
  | [] => (s, [])
  | (i, e) :: rest =>
    let (s, e) : State × Option Effect := match e with
      | .imm d v => (s.onCtx k (·.setDest d false (asVec v) none), none)
      | .late d isVec v =>
        let (id, s) := s.fresh
        (s.onCtx k fun c => let c := c.setDest d isVec 0 (some id); { c with results := c.results ++ [⟨id, v, 0⟩] }, none)
      | .access a (some (d, isVec)) =>
        let (id, s) := s.fresh
        (s.onCtx k (·.setDest d isVec 0 (some id)), some (.access { a with res := some id, slot := i } none))
      | .access a none => (s, some (.access { a with slot := i } none))
      | e => (s, some e)
    let (s, es) := writeDests s k rest
    (s, match e with
      | some e => (i, e) :: es
      | none => es)

/-- The directory entry of an open view of a context. -/
def dirEntryOf (s : State) (k w : Nat) : Option Nat :=
  ((s.core (k / 4)).dir.find? fun (_, e) => e.ctx == k % 4 && e.view == w && e.retired.isNone).map (·.1)

/-- OPEN of a view register. -/
def openBit : BitVec 512 := 0x80000

/-- A `view.retire` (R50, R255). -/
def retireView (s : State) (k w scope : Nat) : State :=
  let entry := dirEntryOf s k w
  let s := s.onCtx k fun c => { c with w := vset c.w w (vget c.w w 0 &&& ~~~openBit) }
  let s := match entry with
    | some i =>
      let c := s.core (k / 4)
      match tget c.dir i with
      | some e => s.setCore (k / 4) { c with dir := tset c.dir i { e with retired := some scope } }
      | none => s
    | none => s
  addPend s k (.release scope (.view entry))

/-- A full directory gives up an entry of a retired view of the context whose writes of earlier bundles have performed at the
scope of its retire (R50, R51). DEDUCED, log 68. -/
def reclaimEntry (s : State) (k : Nat) : State :=
  let c := s.ctx k
  let before (i scope : Nat) : Bool :=
    (entryWrites (c.pend.filter (·.bundle != c.bundleNo)) i).all fun a => scope == 0 && a.atCore
  if (s.core (k / 4)).dir.length < 64 then s
  else match (s.core (k / 4)).dir.find? fun (i, e) => e.ctx == k % 4 && e.retired.any (before i) with
    | some (i, _) => dropEntry s k i
    | none => s

/-- A `view.open` (R50, R254). -/
def openView (s : State) (k w : Nat) (desc : BitVec 1024) (scope : Nat) (wr aq : Bool) : State :=
  let s := if vOpen (vget (s.ctx k).w w 0) then retireView s k w scope else s
  let s := if wr then allocEntry (reclaimEntry s k) (k / 4) (k % 4) w else s
  let set (v : BitVec 512) : BitVec 512 :=
    vSet (vSet (vSet (vSet (vSet v 0 12 (dTid desc)) 12 3 (dRank desc)) 20 1 (if wr then 1 else 0)) 22 2 scope) 19 1 1
  let s := s.onCtx k fun c => { c with w := vset c.w w (set (vget c.w w 0)), shadow := vset c.shadow w desc }
  if aq then addPend s k (.acquire scope) else s

/-- A line is filled by `mem.pf` (R253): its translation may be inserted; a failure has no effect. DESIGN CHOICE, log 65. -/
def prefetch (s : State) (k : Nat) (p : Place) : State :=
  let core := k / 4
  let c := s.ctx k
  let fill (s : State) (va key : Nat) : State :=
    if (badLine? s key 1).isSome then s else l1Fill (touchCaches s core key false false) core c.asid.toNat va (BitVec.ofNat 1024 (coreRead s core (key / 128 * 128) 128))
  match p with
  | .mem key => if isDram key then touchCaches s core key false false else s
  | .untranslated va =>
    match tlbLookup s core c.asid.toNat va false with
    | .hit key => fill s va key
    | .miss => match walkThrough s core c.ptroot.toNat va false with
      | (.page size frame w, s) => fill (tlbInsert s core c.asid.toNat va size frame w) va (frame + va % size)
      | (_, s) => s
    | _ => s
  | _ => s

/-- `ph.sig`: the member's signal is pending until its release takes effect (R271). -/
def signalSlot (s : State) (k core slot scope : Nat) : State :=
  let s := s.setPhaser core slot ((s.phaser core slot).update (k / 4) (k % 4) fun m => { m with pending := true })
  addPend s k (.release scope (.signal core slot false))

/-- `ph.wait` that completes: the member waits for the next phase from now on (R272). -/
def waitedSlot (s : State) (k core slot : Nat) : State :=
  s.setPhaser core slot ((s.phaser core slot).update (k / 4) (k % 4) fun m => { m with local' := (m.local' + 1) % 65536 })

/-- The parameters of a call of a routine at commit (R299, R308). -/
def commitCall (s : State) (k e routine ph : Nat) (mask : Option (BitVec 256)) : State :=
  let s := match callDecl s e routine with
    | .ok (accw, parw) => acceptCall s k e routine ph accw parw mask
    | .error _ => s
  if mask.isSome then s.onCtx k fun c => { c with mpc := c.mpc + 32 } else s

/-- Accept a batch of atomics (R324, R137). DEDUCED, log 71. -/
def acceptBatch (s : State) (k opnd res : Nat) (ctl : W64) : State :=
  let (id, s) := s.fresh
  let c := s.ctx k
  let b : BatchCmd := ⟨id, k / 4, k % 4, c.unit.launch, opnd, res, ctl, batchLines res ctl, [], 0⟩
  let s := noteTiles { s with batches := s.batches ++ [b] } (k / 4) (k % 4) c.unit.launch [opnd, res]
  setEmpty s (batchLines res ctl)

/-- Accept a remote read of lines whose places the issue has found (R325, R137). -/
def acceptRread (s : State) (k dst ph : Nat) (lines : List Place) : State :=
  let (id, s) := s.fresh
  let c := s.ctx k
  let n := lines.length
  let r : RreadCmd := ⟨id, k / 4, k % 4, c.unit.launch, dst, n, ph, (List.range n).zip lines⟩
  let s := noteTiles { s with rreads := s.rreads ++ [r] } (k / 4) (k % 4) c.unit.launch [tileOf dst]
  setEmpty s ((List.range n).map (lineOf dst + ·))

/-- One effect of a bundle that no control slot makes (R102, R192). -/
def applyEffect (s : State) (k : Nat) (e : Effect) : State :=
  let c := s.ctx k
  let core := k / 4
  match e with
  | .pred n v => s.setCtx k { c with c := vset c.c n v }
  | .param n v => s.setCtx k { c with p := vset c.p n v }
  | .ksub n v => s.setCtx k { c with k := vset c.k n (vget c.k n 0 - BitVec.ofNat 32 v) }
  | .acquire scope => acquireL1 s core c.asid.toNat scope
  | .drain scope => acquireL1 (addPend s k (.drain scope)) core c.asid.toNat scope
  | .prefetch p => prefetch s k p
  | .loaded p n => recordTouch s k p n
  | .viewWrite w mask v => s.setCtx k { c with w := vset c.w w ((vget c.w w 0 &&& ~~~mask) ||| (v &&& mask)) }
  | .viewOpen w desc scope wr aq => openView s k w desc scope wr aq
  | .viewRetire w scope => retireView s k w scope
  | .phWait n slot => waitedSlot s k n slot
  | .give tile => addPend (s.onCtx k (fun c => { c with given := sinsert c.given tile }) |> (giveTile · tile)) k (.release 2 (.give tile))
  | .take tile => acquireL1 ((takeTile s tile).onCtx k fun c => { c with given := serase c.given tile }) core c.asid.toNat 2
  | .stage es =>
    let s := acceptStage s core (k % 4) c.unit.launch c.unit.index es false
    s.onCtx k fun c => { c with stageCtr := c.stageCtr + 1 }
  | .batch opnd res ctl => acceptBatch s k opnd res ctl
  | .rread dst ph lines => acceptRread s k dst ph lines
  | .matCall en routine ph mask => commitCall s k en routine ph mask
  | .matDrained en => acquireL1 (s.setEngine en { s.engine en with drained := true }) core c.asid.toNat 2
  | .matCfg en v => s.setEngine en { s.engine en with mfmt := v }
  | .matPert en v sigma => s.setEngine en { s.engine en with pert := v, sigma := sigma }
  | .collRun d => acceptRun s k d
  | .collAbort g => abortGroup s g
  | .logAppend q entry => addPend s k (.release 2 (.append q entry))
  | .logReplay limit => s.setMmio 0 0x500030 (BitVec.ofNat 64 (max limit (logLimit s)))
  | .logResume q => addPend s k (.release 2 (.resume q))
  | .wlPush bucket task => addPend (countPush s core c.unit.job) k (.release 2 (.push c.unit.job bucket task))
  | .wlTake n job bucket task => takeTask s k n job bucket task
  | .wlDone => addPend (s.setCtx k { c with task := none }) k (.release 2 (.taskDone c.unit.job))
  | _ => s

/-- Queue an access; a write through a view names the view's directory entry (R48). -/
def queueAccess (s : State) (k : Nat) (a : Access) : State :=
  addPend s k (.access { a with entry := if opWrites a.op then a.view.bind (dirEntryOf s k) else none })

/-- The accesses of a bundle are queued, its loads before every writing access (R102), and all before the releases, drains and
acquires of the bundle, which count them as earlier accesses (R122). -/
def queueAccesses (s : State) (k : Nat) (effs : List (Nat × Effect)) : State :=
  let queue (loads : Bool) (s : State) (x : Nat × Effect) : State := match x.2 with
    | .access a _ => if (a.op == .load) == loads then queueAccess s k a else s
    | _ => s
  effs.foldl (queue false) (effs.foldl (queue true) s)

/-- The control transfer of a bundle, if it takes one (R239, R243): a jump or the end of the unit. -/
def transfers (effs : List (Nat × Effect)) : Bool :=
  effs.any fun x => match x.2 with
    | .jump _ => true
    | .endUnit => true
    | _ => false

/-- The loop close of one level (R243): the level after it, and the address to which it loops back. -/
def closeLevel (l : Loop) (at' : W64) : Loop × Option W64 :=
  if l.active && l.endAt == at' then
    if l.count - 1 == 0 then ({ l with active := false, count := 0 }, none) else ({ l with count := l.count - 1 }, some l.start)
  else (l, none)

/-- The loop close of a bundle at `at'` that goes on at `next` (R243), the inner level first. -/
def closeLoops (c : Ctx) (at' next : W64) : Ctx × W64 :=
  match closeLevel c.lp1 at' with
  | (l1, some pc) => ({ c with lp1 := l1 }, pc)
  | (l1, none) => match closeLevel c.lp0 at' with
    | (l0, some pc) => ({ c with lp1 := l1, lp0 := l0 }, pc)
    | (l0, none) => ({ c with lp1 := l1, lp0 := l0 }, next)

/-- Set a loop level (R242). -/
def Ctx.setLoop (c : Ctx) (level : Nat) (l : Loop) : Ctx := if level == 0 then { c with lp0 := l } else { c with lp1 := l }

/-- The next address once the control slot has had its say (R239 to R243). -/
def nextPc (c : Ctx) (at' next : W64) (effs : List (Nat × Effect)) : Ctx × W64 :=
  let (c, next') := if transfers effs then (c, next) else closeLoops c at' next
  effs.foldl (fun (r : Ctx × W64) x => match x.2 with
    | .jump pc => (r.1, pc)
    | .loop level count endAt skipTo =>
      if count == 0 then (r.1.setLoop level { (if level == 0 then r.1.lp0 else r.1.lp1) with active := false }, skipTo)
      else (r.1.setLoop level ⟨true, next, endAt, count⟩, r.2)
    | _ => r) (c, next')

/-- The control effects that change registers and state, after every other slot (R192). DEDUCED, log 34. -/
def applyControl (s : State) (k : Nat) (e : Effect) : State :=
  match e with
  | .mpc v => s.onCtx k fun c => { c with mpc := v }
  | .kadd n v => s.onCtx k fun c => { c with k := vset c.k n (BitVec.ofNat 32 ((vget c.k n 0).toNat + v.toInt).toNat) }
  | .csr n v => csrWrite s k n v
  | .phSignal core slot scope => signalSlot s k core slot scope
  | .phReg core slot mode => s.putPhaser core slot ((s.phaser core slot).register (k / 4) (k % 4) mode)
  | .phDrop core slot scope => dropSlot s k core slot scope
  | .phExpect core slot count => match (s.phaser core slot).expect count with
    | some p => s.putPhaser core slot p
    | none => s
  | .flush kind _ => flushNow s k kind
  | .tinv asid first pages => tinvNow s asid first pages
  | _ => s

/-- The flags that the slots of a bundle raise (R87). -/
def flagsOf (effs : List (Nat × Effect)) : BitVec 5 :=
  effs.foldl (fun f x => match x.2 with
    | .flags g => f ||| g
    | _ => f) 0

/-- The open views of a context. -/
def openViews (c : Ctx) : List Nat := (List.range 16).filter fun i => vOpen (vget c.w i 0)

/-- The end of a unit (R174, R247): fetch stops, open views are retired at sys, and the retire begins; a save that was asked for
comes to nothing (R399). -/
def endUnit (s : State) (k : Nat) : State :=
  let s := if preState s k == 1 then setPreState s k 0 else s
  let s := (openViews (s.ctx k)).foldl (fun s w => retireView s k w 3) s
  leaveCore (s.onCtx k fun c => { c with status := .retiring, handling := false }) k

/-- The effects that stop or move the unit itself, last of all (R340, R344). -/
def applyLast (s : State) (k : Nat) (e : Effect) : State :=
  match e with
  | .endUnit => endUnit s k
  | .trapRaise a => takeTrap s k 0 ⟨0x0E, 0, some a⟩
  | .trapRet => trapReturn s k (s.ctx k).trapPc
  | .cancel level inst => (cancelInstance s level inst).2
  | _ => s

/-- The effects of a bundle have taken place (R87, R101): its flags are raised, a clk has passed, and another core issues next
(log 1, log 2); `old` is the context before the bundle. -/
def endCommit (s : State) (k : Nat) (old : Ctx) (fl : Flags) : State :=
  let s := s.onCtx k fun c => old.keep { c with fpflags := c.fpflags ||| fl, bundleNo := c.bundleNo + 1 }
  dropFetches { passClk s 1 with bundle := none, focus := (s.focus + 1) % 256 } k

/-- Every effect of a bundle of `n` slots takes place (R101, R102, R192). -/
def commitNow (s : State) (k n : Nat) (effs : List (Nat × Effect)) : State :=
  let old := s.ctx k
  let (s, effs') := writeDests (s.setCtx k old.seen) k effs
  let s := queueAccesses s k effs'
  let s := effs'.foldl (fun s x => applyEffect s k x.2) s
  let (c, pc) := nextPc (s.ctx k) old.pc (old.pc + BitVec.ofNat 64 (4 * n)) effs'
  let s := s.setCtx k { c with pc := pc, wait := none }
  let s := effs'.foldl (fun s x => applyControl s k x.2) s
  let s := endCommit s k old (flagsOf effs')
  effs'.foldl (fun s x => applyLast s k x.2) s

/-- A bundle ends at a slot without effects (R101, R396). -/
def stopAt (s : State) (k slot : Nat) (x : Stop) : State :=
  match x with
  | .trap t => takeTrap s k slot t
  | .wait w => hold s k slot w
  | .dead r => discardUnit (dropBundle s k) k { r with core := k / 4, ctx := k % 4, pc := (s.ctx k).pc }

/-- The last slot of a bundle has issued (R101): the bundle traps, waits or commits. DEDUCED, log 81. -/
def commit (s : State) (k n : Nat) (effs : List (Nat × Effect)) : State :=
  match readyAll s k effs with
  | .error (i, x) => stopAt s k i x
  | .ok effs =>
    match blockedBy effs with
    | some (i, w) => hold s k i w
    | none => match resolveMonitors s k effs with
      | (s, .error (i, x)) => stopAt s k i x
      | (s, .ok effs) => commitNow s k n effs

/-- The context that issues: that of the bundle in progress, or of the core whose turn it is (R349). -/
def issuer (s : State) : Option Nat :=
  match s.bundle with
  | some p => some p.ctx
  | none => (s.core s.focus).cur.map (s.focus * 4 + ·)

/-- ILLEGAL with the subcause of R193. -/
def Illegal.cause : Illegal → Nat
  | .major => 1
  | .minor => 2
  | .reserved => 3
  | .operand => 4
  | .modifier => 5
  | .csr => 6
  | .qtype => 7

/-- A source whose queue entry is of the other type (R182). -/
def Role.clashes (c : Ctx) : Role → Bool
  | .ss code _ => code.toNat < 16 && (vget c.q code.toNat ⟨false, 0, none⟩).isVec
  | .vs code _ => code.toNat < 16 && !(vget c.q code.toNat ⟨false, 0, none⟩).isVec
  | _ => false

/-- What a source that is empty does (R185). -/
def Role.empty? (c : Ctx) : Role → Option Stop
  | .ss code f | .vs code f | .vb code f =>
    if c.filled code.toNat then none else some (emptyRead f)
  | _ => none

/-- What the sources of a slot stop it with before its own checks: the type of a queue entry, then the first empty source in the
order of the slot's fields, by its code (R182, R185, R193). DESIGN CHOICE, log 114. -/
def operandStop (i : Instr) (c : Ctx) : Option Stop :=
  if (rolesOf i).any (Role.clashes c) then some illegalQtype else (rolesOf i).findSome? (Role.empty? c)

/-- What a slot asks for: its operand and modifier checks first (R188, R189), then the type and fullness of its sources, then
its own part (R193). -/
def slotEffects (i : Instr) (f : Env → Except Stop (List Effect)) (e : Env) : Except Stop (List Effect) :=
  match formFault i with
  | some x => .error (illegal (Illegal.cause x))
  | none => match f e with
    | .error x => .error ((operandStop i e.c).getD x)
    | .ok es => .ok es

/-- A stop that comes after the issue checks of every slot of the bundle: it translates an address or reads a record
(R388). -/
def Stop.translates : Stop → Bool
  | .trap t => t.cls == 0x04 || (t.cls == 0x03 && t.cause == 0xB)
  | .wait (.walk _ _ _) => true
  | .wait (.line _) => true
  | .wait (.fetch _ _ _) => true
  | .wait .read => true
  | .wait _ => false
  | .dead _ => true

/-- The end of a slot's issue (R190, R192): the slot with S = 1 ends the bundle, which has four to eight slots. Where a slot
has put off a translation, the slots then issue once more. -/
def closeSlot (s : State) (p : Progress) (stop : BitVec 1) (effs : List (Nat × Effect)) : State :=
  if stop == 1 then
    if p.slot < 3 then bundleForm s p.ctx 1
    else if p.later then { s with bundle := some ⟨p.ctx, 0, [], false, true⟩ }
    else commit s p.ctx (p.slot + 1) effs
  else if 7 ≤ p.slot then bundleForm s p.ctx 2
  else { s with bundle := some { p with slot := p.slot + 1, effs := effs } }

/-- A slot does not ask for effects: a stop that translates is put off until every slot has passed its issue checks, and then
comes after those of the slots before it (R388). An empty source makes the bundle wait at once, before the checks of a later slot.
DESIGN CHOICE, log 114. -/
def stopSlot (s : State) (p : Progress) (stop : BitVec 1) (x : Stop) : State :=
  if !x.translates then stopAt s p.ctx p.slot x
  else if !p.second then closeSlot s { p with later := true } stop p.effs
  else match readyAll s p.ctx p.effs with
    | .error (i, y) => stopAt s p.ctx i y
    | .ok _ => stopAt s p.ctx p.slot x

/-- A slot of a bundle issues, after those that asked for effects (R192, R193): a trap or a wait ends the bundle. -/
def issueAt (s : State) (p : Progress) (i : Instr) (stop : BitVec 1) (f : Env → Except Stop (List Effect)) : State :=
  match slotEffects i f ⟨s, p.ctx, (s.ctx p.ctx).seen, p.slot⟩ with
  | .error x => stopSlot s p stop x
  | .ok es => closeSlot s p stop (p.effs ++ es.map fun e => (p.slot, e))

/-- A slot issues for the context whose turn it is; where none issues, nothing happens (R190 to R193, R349). -/
def issue (i : Instr) (stop : BitVec 1) (s : State) (f : Env → Except Stop (List Effect)) : State :=
  match s.bundle with
  | some p => issueAt s p i stop f
  | none => match issuer s with
    | some k => issueAt s ⟨k, 0, [], false, false⟩ i stop f
    | none => s

/-- A drain of the context is not over (R252). -/
def drainPending (c : Ctx) : Bool := c.pend.any fun p => match p.kind with
  | .drain _ => true
  | _ => false

/-- A slot of the memory or wait class: not before an earlier drain of the unit is over (R252). -/
def afterDrain (f : Env → Except Stop (List Effect)) (e : Env) : Except Stop (List Effect) :=
  if drainPending e.c then .error (.wait (.block .drain)) else f e

/-- A slot of the memory or wait class issues (R252). -/
def issueMem (i : Instr) (stop : BitVec 1) (s : State) (f : Env → Except Stop (List Effect)) : State :=
  issue i stop s (afterDrain f)

end Sys2Proof.Machine
end

