-- ==== Sys2Proof/Machine/Scalar.lean ====
section
/-! DEFINITION. Scalar integer, predicate, pointer and constant instructions (R222 to R235). -/
namespace Sys2Proof.Machine
open Host (Outcome)

/-- D := f A B at the end of the bundle (R181, R222, R223). -/
def imm2 (o : C3) (f : W64 → W64 → W64) (e : Env) : Except Stop (List Effect) := do
  let d ← destS o.d
  let a ← readS e.c o.a o.f
  let b ← readS e.c o.b o.g
  .ok [.imm d (f a b)]

/-- D := f A at the end of the bundle (R181, R222, R223). -/
def imm1 (o : C2) (f : W64 → W64) (e : Env) : Except Stop (List Effect) := do
  let d ← destS o.d
  let a ← readS e.c o.a o.f
  .ok [.imm d (f a)]

/-- D := f D A B at the end of the bundle; D is read as a source under F = 0 (R185, R228). -/
def imm3 (o : C3) (f : W64 → W64 → W64 → W64) (e : Env) : Except Stop (List Effect) := do
  let d ← destS o.d
  let a ← readS e.c o.a o.f
  let b ← readS e.c o.b o.g
  let v ← readS e.c o.d 0
  .ok [.imm d (f v a b)]

/-- D := f A B as a variable-latency result (R181, R223). -/
def late2 (o : C3) (f : W64 → W64 → W64) (e : Env) : Except Stop (List Effect) := do
  let d ← destS o.d
  let a ← readS e.c o.a o.f
  let b ← readS e.c o.b o.g
  .ok [.late d false (asVec (f a b))]

/-- A predicate as it stood before the bundle (R230). -/
def predOf (c : Ctx) (n : BitVec 3) : W64 := vget c.c n.toNat 0

/-- A pointer of a tag and a body (R8). -/
def pointer (tag body : Nat) : W64 := BitVec.ofNat 64 (tag <<< 60 ||| body)

/-- `alu.add` (R224). -/
def execAluAdd (o : C3) (s : State) : Outcome State Fault Refusal :=
  .next (issue (.aluAdd o) o.s s (imm2 o (fun a b => a + b)))

/-- `alu.sub` (R224). -/
def execAluSub (o : C3) (s : State) : Outcome State Fault Refusal :=
  .next (issue (.aluSub o) o.s s (imm2 o (fun a b => a - b)))

/-- `alu.mul` (R224). -/
def execAluMul (o : C3) (s : State) : Outcome State Fault Refusal :=
  .next (issue (.aluMul o) o.s s (imm2 o (fun a b => a * b)))

/-- `alu.mulhs` (R224). -/
def execAluMulhs (o : C3) (s : State) : Outcome State Fault Refusal :=
  .next (issue (.aluMulhs o) o.s s (imm2 o mulHS))

/-- `alu.mulhu` (R224). -/
def execAluMulhu (o : C3) (s : State) : Outcome State Fault Refusal :=
  .next (issue (.aluMulhu o) o.s s (imm2 o mulHU))

/-- `alu.div` (R224, R225). -/
def execAluDiv (o : C3) (s : State) : Outcome State Fault Refusal :=
  .next (issue (.aluDiv o) o.s s (late2 o divS))

/-- `alu.divu` (R224, R225). -/
def execAluDivu (o : C3) (s : State) : Outcome State Fault Refusal :=
  .next (issue (.aluDivu o) o.s s (late2 o divU))

/-- `alu.rem` (R224, R225). -/
def execAluRem (o : C3) (s : State) : Outcome State Fault Refusal :=
  .next (issue (.aluRem o) o.s s (late2 o remS))

/-- `alu.remu` (R224, R225). -/
def execAluRemu (o : C3) (s : State) : Outcome State Fault Refusal :=
  .next (issue (.aluRemu o) o.s s (late2 o remU))

/-- `alu.min` (R224). -/
def execAluMin (o : C3) (s : State) : Outcome State Fault Refusal :=
  .next (issue (.aluMin o) o.s s (imm2 o minS))

/-- `alu.max` (R224). -/
def execAluMax (o : C3) (s : State) : Outcome State Fault Refusal :=
  .next (issue (.aluMax o) o.s s (imm2 o maxS))

/-- `alu.minu` (R224). -/
def execAluMinu (o : C3) (s : State) : Outcome State Fault Refusal :=
  .next (issue (.aluMinu o) o.s s (imm2 o minU))

/-- `alu.maxu` (R224). -/
def execAluMaxu (o : C3) (s : State) : Outcome State Fault Refusal :=
  .next (issue (.aluMaxu o) o.s s (imm2 o maxU))

/-- `alu.and` (R226). -/
def execAluAnd (o : C3) (s : State) : Outcome State Fault Refusal :=
  .next (issue (.aluAnd o) o.s s (imm2 o (fun a b => a &&& b)))

/-- `alu.or` (R226). -/
def execAluOr (o : C3) (s : State) : Outcome State Fault Refusal :=
  .next (issue (.aluOr o) o.s s (imm2 o (fun a b => a ||| b)))

/-- `alu.xor` (R226). -/
def execAluXor (o : C3) (s : State) : Outcome State Fault Refusal :=
  .next (issue (.aluXor o) o.s s (imm2 o (fun a b => a ^^^ b)))

/-- `alu.andn` (R226). -/
def execAluAndn (o : C3) (s : State) : Outcome State Fault Refusal :=
  .next (issue (.aluAndn o) o.s s (imm2 o (fun a b => a &&& ~~~b)))

/-- `alu.shl` (R226). -/
def execAluShl (o : C3) (s : State) : Outcome State Fault Refusal :=
  .next (issue (.aluShl o) o.s s (imm2 o (fun a b => a <<< shiftAmt b)))

/-- `alu.shr` (R226). -/
def execAluShr (o : C3) (s : State) : Outcome State Fault Refusal :=
  .next (issue (.aluShr o) o.s s (imm2 o (fun a b => a >>> shiftAmt b)))

/-- `alu.sar` (R226). -/
def execAluSar (o : C3) (s : State) : Outcome State Fault Refusal :=
  .next (issue (.aluSar o) o.s s (imm2 o (fun a b => a.sshiftRight (shiftAmt b))))

/-- `alu.rotl` (R226). -/
def execAluRotl (o : C3) (s : State) : Outcome State Fault Refusal :=
  .next (issue (.aluRotl o) o.s s (imm2 o (fun a b => a.rotateLeft (shiftAmt b))))

/-- `alu.rotr` (R226). -/
def execAluRotr (o : C3) (s : State) : Outcome State Fault Refusal :=
  .next (issue (.aluRotr o) o.s s (imm2 o (fun a b => a.rotateRight (shiftAmt b))))

/-- `alu.clz` (R226). -/
def execAluClz (o : C2) (s : State) : Outcome State Fault Refusal :=
  .next (issue (.aluClz o) o.s s (imm1 o (fun a => BitVec.ofNat 64 (leadingZeros a 64))))

/-- `alu.ctz` (R226). -/
def execAluCtz (o : C2) (s : State) : Outcome State Fault Refusal :=
  .next (issue (.aluCtz o) o.s s (imm1 o (fun a => BitVec.ofNat 64 (trailingZeros a 64))))

/-- `alu.popc` (R226). -/
def execAluPopc (o : C2) (s : State) : Outcome State Fault Refusal :=
  .next (issue (.aluPopc o) o.s s (imm1 o (fun a => BitVec.ofNat 64 (countOnes a 64))))

/-- `alu.bswap` (R226). -/
def execAluBswap (o : C2) (s : State) : Outcome State Fault Refusal :=
  .next (issue (.aluBswap o) o.s s (imm1 o byteSwap))

/-- `alu.mov` (R226). -/
def execAluMov (o : C2) (s : State) : Outcome State Fault Refusal :=
  .next (issue (.aluMov o) o.s s (imm1 o (fun a => a)))

/-- `bit.ext` (R228). -/
def execBitExt (o : C3) (s : State) : Outcome State Fault Refusal :=
  .next (issue (.bitExt o) o.s s (imm2 o bitExtS))

/-- `bit.extu` (R228). -/
def execBitExtu (o : C3) (s : State) : Outcome State Fault Refusal :=
  .next (issue (.bitExtu o) o.s s (imm2 o bitExtU))

/-- `bit.ins` (R228). -/
def execBitIns (o : C3) (s : State) : Outcome State Fault Refusal :=
  .next (issue (.bitIns o) o.s s (imm3 o bitInsert))

/-- `bit.set` (R228). -/
def execBitSet (o : C3) (s : State) : Outcome State Fault Refusal :=
  .next (issue (.bitSet o) o.s s (imm2 o (fun a b => a ||| (1 : W64) <<< shiftAmt b)))

/-- `bit.clr` (R228). -/
def execBitClr (o : C3) (s : State) : Outcome State Fault Refusal :=
  .next (issue (.bitClr o) o.s s (imm2 o (fun a b => a &&& ~~~((1 : W64) <<< shiftAmt b))))

/-- `bit.tst` (R228). -/
def execBitTst (o : C3) (s : State) : Outcome State Fault Refusal :=
  .next (issue (.bitTst o) o.s s (imm2 o (fun a b => (a >>> shiftAmt b) &&& (1 : W64))))

/-- `cmp.eq` (R229). -/
def execCmpEq (o : C3) (s : State) : Outcome State Fault Refusal :=
  .next (issue (.cmpEq o) o.s s (imm2 o (fun a b => bool64 (a == b))))

/-- `cmp.ne` (R229). -/
def execCmpNe (o : C3) (s : State) : Outcome State Fault Refusal :=
  .next (issue (.cmpNe o) o.s s (imm2 o (fun a b => bool64 (a != b))))

/-- `cmp.lt` (R229). -/
def execCmpLt (o : C3) (s : State) : Outcome State Fault Refusal :=
  .next (issue (.cmpLt o) o.s s (imm2 o (fun a b => bool64 (a.slt b))))

/-- `cmp.ltu` (R229). -/
def execCmpLtu (o : C3) (s : State) : Outcome State Fault Refusal :=
  .next (issue (.cmpLtu o) o.s s (imm2 o (fun a b => bool64 (a.ult b))))

/-- `cmp.le` (R229). -/
def execCmpLe (o : C3) (s : State) : Outcome State Fault Refusal :=
  .next (issue (.cmpLe o) o.s s (imm2 o (fun a b => bool64 (a.sle b))))

/-- `cmp.leu` (R229). -/
def execCmpLeu (o : C3) (s : State) : Outcome State Fault Refusal :=
  .next (issue (.cmpLeu o) o.s s (imm2 o (fun a b => bool64 (a.ule b))))

/-- `sel.cN` (R232). -/
def execSel (o : Sel) (s : State) : Outcome State Fault Refusal :=
  .next (issue (.sel o) o.s s fun e => do
    let d ← destS o.d
    let a ← readS e.c o.a o.f
    let b ← readS e.c o.b o.g
    .ok [.imm d (if (predOf e.c o.c).getLsbD 0 then a else b)])

/-- `pr.set` (R231). -/
def execPrSet (o : PrS) (s : State) : Outcome State Fault Refusal :=
  .next (issue (.prSet o) o.s s fun e => do
    let a ← readS e.c o.a o.f
    .ok [.pred o.c.toNat a])

/-- `pr.get` (R231). -/
def execPrGet (o : PrG) (s : State) : Outcome State Fault Refusal :=
  .next (issue (.prGet o) o.s s fun e => do
    let d ← destS o.d
    .ok [.imm d (predOf e.c o.c)])

/-- `pr.and` (R231). -/
def execPrAnd (o : Pr3) (s : State) : Outcome State Fault Refusal :=
  .next (issue (.prAnd o) o.s s fun e => .ok [.pred o.c.toNat (predOf e.c o.x &&& predOf e.c o.y)])

/-- `pr.or` (R231). -/
def execPrOr (o : Pr3) (s : State) : Outcome State Fault Refusal :=
  .next (issue (.prOr o) o.s s fun e => .ok [.pred o.c.toNat (predOf e.c o.x ||| predOf e.c o.y)])

/-- `pr.not` (R231). -/
def execPrNot (o : Pr2) (s : State) : Outcome State Fault Refusal :=
  .next (issue (.prNot o) o.s s fun e => .ok [.pred o.c.toNat (~~~predOf e.c o.x)])

/-- `addr.tag` (R233). -/
def execAddrTag (o : C2) (s : State) : Outcome State Fault Refusal :=
  .next (issue (.addrTag o) o.s s (imm1 o (fun a => BitVec.ofNat 64 (fld a 60 4))))

/-- `addr.off` (R233). -/
def execAddrOff (o : C2) (s : State) : Outcome State Fault Refusal :=
  .next (issue (.addrOff o) o.s s (imm1 o (fun a => setFld a 60 4 0)))

/-- `addr.spl` (R233). -/
def execAddrSpl (o : C3) (s : State) : Outcome State Fault Refusal :=
  .next (issue (.addrSpl o) o.s s (imm2 o (fun a b => pointer 1 (fld a 0 2 <<< 22 ||| fld b 0 22))))

/-- `addr.spd` (R233). -/
def execAddrSpd (o : C3) (s : State) : Outcome State Fault Refusal :=
  .next (issue (.addrSpd o) o.s s (imm2 o (fun a b => pointer 2 (fld a 8 2 <<< 56 ||| fld a 2 6 <<< 50 ||| fld a 0 2 <<< 22 ||| fld b 0 22))))

/-- `addr.pdv` (R233). -/
def execAddrPdv (o : C3) (s : State) : Outcome State Fault Refusal :=
  .next (issue (.addrPdv o) o.s s (imm2 o (fun a b => pointer 4 (fld a 6 2 <<< 56 ||| fld a 0 6 <<< 50 ||| fld b 0 30))))

/-- `addr.peer` (R233). -/
def execAddrPeer (o : C3) (s : State) : Outcome State Fault Refusal :=
  .next (issue (.addrPeer o) o.s s (imm2 o (fun a b => pointer 8 (fld a 0 16 <<< 44 ||| fld b 0 44))))

/-- `addr.tagi` (R234). -/
def execAddrTagi (o : TagI) (s : State) : Outcome State Fault Refusal :=
  .next (issue (.addrTagi o) o.s s (imm1 ⟨o.s, o.d, o.a, o.f⟩ fun a => setFld a 60 4 o.t.toNat))

/-- `imm.lo` (R235). -/
def execImmLo (o : L) (s : State) : Outcome State Fault Refusal :=
  .next (issue (.immLo o) o.s s fun _ => do
    let d ← destS o.d
    .ok [.imm d (sext o.i)])

/-- `imm.hi` (R235): D is a source. -/
def execImmHi (o : L) (s : State) : Outcome State Fault Refusal :=
  .next (issue (.immHi o) o.s s fun e => do
    let d ← destS o.d
    let v ← readS e.c o.d 0
    .ok [.imm d (v <<< 19 ||| o.i.setWidth 64)])

/-- `alu.addi` (R227). -/
def execAluAddi (o : FI) (s : State) : Outcome State Fault Refusal :=
  .next (issue (.aluAddi o) o.s s (imm1 ⟨o.s, o.d, o.a, o.f⟩ fun a => a + sext o.i))

/-- `alu.andi` (R227). -/
def execAluAndi (o : FI) (s : State) : Outcome State Fault Refusal :=
  .next (issue (.aluAndi o) o.s s (imm1 ⟨o.s, o.d, o.a, o.f⟩ fun a => a &&& sext o.i))

end Sys2Proof.Machine
end

