-- ==== Sys2Proof/Machine/MemoryOps.lean ====
section
/-! DEFINITION. Loads, stores, drain and prefetch (R249 to R253). -/
namespace Sys2Proof.Machine
open Host (Outcome)

/-- The weak order of the indexed forms and the record reads (R189, R251). -/
def weak : Ord := ⟨none, false, 0⟩

/-- The access that a slot makes (R101, R189). -/
def Env.access (e : Env) (op : MemOp) (o : Ord) (data : Vec) (pieces : List Piece) : Access :=
  ⟨op, o.strong, o.hint, o.acquire, e.slot, e.c.asid.toNat, data, pieces, 0, none, none, none, false, none, 0⟩

/-- The owner fault STORE (R133, R249): the target tile is on the engine side. DEDUCED, log 67. -/
def ownerOk (s : State) (place : Place) : Bool :=
  match place with
  | .mem key => !(isSp key && engineSide s key)
  | _ => true

/-- The issue checks of R29, and of R133 for an access that writes (R249), at an effective address. -/
def checkAccess (e : Env) (base ea : W64) (n : Nat) (atomic writes : Bool) : Except Stop Place :=
  match checkAddr e.s (who e.s e.k) base ea n atomic with
  | .error t => .error (.trap t)
  | .ok (_, place) => if writes && !ownerOk e.s place then .error (.trap ⟨0x06, 1, some ea⟩) else .ok place

/-- The place `n` bytes further on. -/
def Place.plus (p : Place) (n : Nat) : Place :=
  match p with
  | .mem key => .mem (key + n)
  | .va x key => .va (x + n) (key + n)
  | .untranslated x => .untranslated (x + n)
  | .cached x => .cached (x + n)
  | .bound x key => .bound (x + n) (key + n)
  | .peer d off => .peer d (off + n)
  | .host a => .host (a + n)
  | .mmio d off => .mmio d (off + n)
  | .outside => .outside

/-- The pieces of an access of `n` bytes: the halves of 256 bytes, the lower first, or the whole (R106). -/
def piecesOf (p : Place) (n : Nat) : List Piece :=
  if n == 256 then [⟨p, 128, 0, 1024, 0⟩, ⟨p.plus 128, 128, 0, 1024, 1024⟩] else [⟨p, n, 0, 8 * n, 0⟩]

/-- A destination of a load by type (R250). -/
def destOf (code : BitVec 6) (isVec : Bool) : Except Stop Dest := if isVec then destV code else destS code

/-- The data of a store by type (R250). -/
def dataOf (c : Ctx) (code : BitVec 6) (isVec : Bool) : Except Stop Vec :=
  if isVec then readV c code 0 else (readS c code 0).map asVec

/-- A load of `n` bytes into D (R250). -/
def loadAt (e : Env) (d : BitVec 6) (base ea : W64) (n : Nat) (isVec : Bool) (o : Ord) : Except Stop (List Effect) := do
  let d ← destOf d isVec
  let place ← checkAccess e base ea n false false
  .ok [.access (e.access .load o 0 (piecesOf place n)) (some (d, isVec))]

/-- A store of the low `n` bytes of D (R250). -/
def storeAt (e : Env) (d : BitVec 6) (base ea : W64) (n : Nat) (isVec : Bool) (o : Ord) : Except Stop (List Effect) := do
  let v ← dataOf e.c d isVec
  let place ← checkAccess e base ea n false true
  .ok [.access (e.access .store o v (piecesOf place n)) none]

/-- A slot of form E: size, order and effective address (R10, R189, R250). -/
def formE (e : Env) (o : E) (load : Bool) : Except Stop (W64 × W64 × Nat × Bool × Ord) := do
  let (n, isVec) ← needSize o.z
  let ord ← needOrd o.o load
  let a ← readS e.c o.a 0
  .ok (a, a + BitVec.ofNat 64 (o.n.toNat * n), n, isVec, ord)

/-- `mem.ld` (R250). -/
def execMemLd (o : E) (s : State) : Outcome State Fault Refusal :=
  .next (issueMem (.memLd o) o.s s fun e => do
    let (a, ea, n, isVec, ord) ← formE e o true
    loadAt e o.d a ea n isVec ord)

/-- `mem.st` (R250). -/
def execMemSt (o : E) (s : State) : Outcome State Fault Refusal :=
  .next (issueMem (.memSt o) o.s s fun e => do
    let (a, ea, n, isVec, ord) ← formE e o false
    storeAt e o.d a ea n isVec ord)

/-- A load at A + B, weak (R251). -/
def loadIndexed (o : C3) (n : Nat) (isVec : Bool) (e : Env) : Except Stop (List Effect) := do
  let a ← readS e.c o.a o.f
  let b ← readS e.c o.b o.g
  loadAt e o.d a (a + b) n isVec weak

/-- A store at A + B, weak (R251). -/
def storeIndexed (o : C3) (n : Nat) (isVec : Bool) (e : Env) : Except Stop (List Effect) := do
  let a ← readS e.c o.a o.f
  let b ← readS e.c o.b o.g
  storeAt e o.d a (a + b) n isVec weak

/-- `mem.ldxb` (R251). -/
def execMemLdxb (o : C3) (s : State) : Outcome State Fault Refusal :=
  .next (issueMem (.memLdxb o) o.s s (loadIndexed o 1 false))

/-- `mem.ldxh` (R251). -/
def execMemLdxh (o : C3) (s : State) : Outcome State Fault Refusal :=
  .next (issueMem (.memLdxh o) o.s s (loadIndexed o 2 false))

/-- `mem.ldxw` (R251). -/
def execMemLdxw (o : C3) (s : State) : Outcome State Fault Refusal :=
  .next (issueMem (.memLdxw o) o.s s (loadIndexed o 4 false))

/-- `mem.ldxd` (R251). -/
def execMemLdxd (o : C3) (s : State) : Outcome State Fault Refusal :=
  .next (issueMem (.memLdxd o) o.s s (loadIndexed o 8 false))

/-- `mem.ldxv` (R251). -/
def execMemLdxv (o : C3) (s : State) : Outcome State Fault Refusal :=
  .next (issueMem (.memLdxv o) o.s s (loadIndexed o 256 true))

/-- `mem.stxb` (R251). -/
def execMemStxb (o : C3) (s : State) : Outcome State Fault Refusal :=
  .next (issueMem (.memStxb o) o.s s (storeIndexed o 1 false))

/-- `mem.stxh` (R251). -/
def execMemStxh (o : C3) (s : State) : Outcome State Fault Refusal :=
  .next (issueMem (.memStxh o) o.s s (storeIndexed o 2 false))

/-- `mem.stxw` (R251). -/
def execMemStxw (o : C3) (s : State) : Outcome State Fault Refusal :=
  .next (issueMem (.memStxw o) o.s s (storeIndexed o 4 false))

/-- `mem.stxd` (R251). -/
def execMemStxd (o : C3) (s : State) : Outcome State Fault Refusal :=
  .next (issueMem (.memStxd o) o.s s (storeIndexed o 8 false))

/-- `mem.stxv` (R251). -/
def execMemStxv (o : C3) (s : State) : Outcome State Fault Refusal :=
  .next (issueMem (.memStxv o) o.s s (storeIndexed o 256 true))

/-- `mem.drain` (R252). -/
def execMemDrain (o : Dr) (s : State) : Outcome State Fault Refusal :=
  .next (issueMem (.memDrain o) o.s s fun _ => .ok [.drain o.c.toNat])

/-- `mem.pf` (R253): an address that fails its checks has no effect. -/
def execMemPf (o : A2) (s : State) : Outcome State Fault Refusal :=
  .next (issueMem (.memPf o) o.s s fun e => do
    let a ← readS e.c o.a o.f
    let b ← readS e.c o.b o.g
    match checkAddr e.s (who e.s e.k) a (a + b) 1 false with
    | .ok (_, place) => .ok [.prefetch place]
    | .error _ => .ok [])

end Sys2Proof.Machine
end

