-- ==== Sys2Proof/Machine/Atomic.lean ====
section
/-! DEFINITION. Single-word atomics (R260 to R263) and the monitored wait (R264 to R266). -/
namespace Sys2Proof.Machine
open Host (Outcome)

/-- Bytes of an atomic's SZ (R260). -/
def atomBytes (z : BitVec 3) : Nat := if z == 2 then 4 else 8

/-- The trap WLBLOCK of a waiting slot while the context holds a task (R368). -/
def noTask (e : Env) : Except Stop Unit := need e.c.task.isNone (stopTrap 0x0C 0)

/-- An atomic of an operation on the word at A; D holds the operand and receives the old value (R260). -/
def atomic (op : Nat) (d a : BitVec 6) (z : BitVec 3) (ord : BitVec 4) (e : Env) : Except Stop (List Effect) := do
  let o ← needOrd ord false
  let dst ← destS d
  let p ← readS e.c a 0
  let v ← readS e.c d 0
  let n := atomBytes z
  let place ← checkAccess e p p n true true
  .ok [.access (e.access (.atom op) o (asVec v) (piecesOf place n)) (some (dst, false))]

/-- `atom.add` (R260). -/
def execAtomAdd (o : At) (s : State) : Outcome State Fault Refusal :=
  .next (issueMem (.atomAdd o) o.s s (atomic 0 o.d o.a o.z o.o))

/-- `atom.and` (R260). -/
def execAtomAnd (o : At) (s : State) : Outcome State Fault Refusal :=
  .next (issueMem (.atomAnd o) o.s s (atomic 1 o.d o.a o.z o.o))

/-- `atom.or` (R260). -/
def execAtomOr (o : At) (s : State) : Outcome State Fault Refusal :=
  .next (issueMem (.atomOr o) o.s s (atomic 2 o.d o.a o.z o.o))

/-- `atom.xor` (R260). -/
def execAtomXor (o : At) (s : State) : Outcome State Fault Refusal :=
  .next (issueMem (.atomXor o) o.s s (atomic 3 o.d o.a o.z o.o))

/-- `atom.smin` (R260). -/
def execAtomSmin (o : At) (s : State) : Outcome State Fault Refusal :=
  .next (issueMem (.atomSmin o) o.s s (atomic 4 o.d o.a o.z o.o))

/-- `atom.smax` (R260). -/
def execAtomSmax (o : At) (s : State) : Outcome State Fault Refusal :=
  .next (issueMem (.atomSmax o) o.s s (atomic 5 o.d o.a o.z o.o))

/-- `atom.umin` (R260). -/
def execAtomUmin (o : At) (s : State) : Outcome State Fault Refusal :=
  .next (issueMem (.atomUmin o) o.s s (atomic 6 o.d o.a o.z o.o))

/-- `atom.umax` (R260). -/
def execAtomUmax (o : At) (s : State) : Outcome State Fault Refusal :=
  .next (issueMem (.atomUmax o) o.s s (atomic 7 o.d o.a o.z o.o))

/-- `atom.swap` (R260). -/
def execAtomSwap (o : At) (s : State) : Outcome State Fault Refusal :=
  .next (issueMem (.atomSwap o) o.s s (atomic 8 o.d o.a o.z o.o))

/-- `atom.fadd` (R262). -/
def execAtomFadd (o : AtF) (s : State) : Outcome State Fault Refusal :=
  .next (issueMem (.atomFadd o) o.s s (atomic 9 o.d o.a 2 o.o))

/-- `atom.fmin` (R262). -/
def execAtomFmin (o : AtF) (s : State) : Outcome State Fault Refusal :=
  .next (issueMem (.atomFmin o) o.s s (atomic 10 o.d o.a 2 o.o))

/-- `atom.fmax` (R262). -/
def execAtomFmax (o : AtF) (s : State) : Outcome State Fault Refusal :=
  .next (issueMem (.atomFmax o) o.s s (atomic 11 o.d o.a 2 o.o))

/-- `atom.cas` (R261): the comparand is the scalar that OFF names. -/
def execAtomCas (o : Cas) (s : State) : Outcome State Fault Refusal :=
  .next (issueMem (.atomCas o) o.s s fun e => do
    let ord ← needOrd o.o false
    let dst ← destS o.d
    let p ← readS e.c o.a 0
    let v ← readS e.c o.d 0
    let cmp ← readS e.c o.c 0
    let n := atomBytes o.z
    let place ← checkAccess e p p n true true
    .ok [.access (e.access (.cas cmp) ord (asVec v) (piecesOf place n)) (some (dst, false))])

/-- `mon.wait` (R264): once its monitor is armed the address is not checked again. -/
def execMonWait (o : Mon) (s : State) : Outcome State Fault Refusal :=
  .next (issueMem (.monWait o) o.s s fun e => do
    let ord ← needOrd o.o true
    let dst ← destS o.d
    let p ← readS e.c o.a 0
    let cmp ← readS e.c o.d 0
    noTask e
    let n := atomBytes o.z
    let place ← if e.c.armed.isSome then .ok Place.outside else checkAccess e p p n true true
    .ok [.monitor (e.access .load ord 0 (piecesOf place n)) cmp o.t.toNat dst])

end Sys2Proof.Machine
end

