-- ==== Sys2Proof/Machine/Control.lean ====
section
/-! DEFINITION. Control transfers, hardware loops, semaphores, `mpc` and the end of a unit (R202, R239 to R247). -/
namespace Sys2Proof.Machine
open Host (Outcome)

/-- The address after the stop slot of the bundle at `a`; its own address where it has none (R190). -/
def afterBundle (s : State) (k : Nat) (a : W64) : W64 := (bundleEnd s k a 8).getD a

/-- The next sequential address (R239). -/
def Env.next (e : Env) : W64 := afterBundle e.s e.k e.pc

/-- A target relative to the bundle (R201, R240). -/
def Env.relative (e : Env) {n : Nat} (i : BitVec n) : W64 := e.pc + 4 * sext i

/-- The link result (R223, R241). -/
def link (e : Env) (d : BitVec 6) (target : W64) : Except Stop (List Effect) := do
  let dst ← destS d
  .ok [.late dst false (asVec e.next), .jump target]

/-- `ctl.nop` (R202). -/
def execCtlNop (o : N) (s : State) : Outcome State Fault Refusal := .next (issue (.ctlNop o) o.s s fun _ => .ok [])

/-- `ctl.end` (R247). -/
def execCtlEnd (o : N) (s : State) : Outcome State Fault Refusal := .next (issue (.ctlEnd o) o.s s fun _ => .ok [.endUnit])

/-- `ctl.jr` (R241). -/
def execCtlJr (o : A1) (s : State) : Outcome State Fault Refusal :=
  .next (issue (.ctlJr o) o.s s fun e => do
    let a ← readS e.c o.a o.f
    .ok [.jump a])

/-- `ctl.callr` (R241). -/
def execCtlCallr (o : C2) (s : State) : Outcome State Fault Refusal :=
  .next (issue (.ctlCallr o) o.s s fun e => do
    let a ← readS e.c o.a o.f
    link e o.d a)

/-- `ctl.ret` (R241): the effect of `ctl.jr`. -/
def execCtlRet (o : A1) (s : State) : Outcome State Fault Refusal :=
  .next (issue (.ctlRet o) o.s s fun e => do
    let a ← readS e.c o.a o.f
    .ok [.jump a])

/-- Is a branch taken (R230, R240)? -/
def branchTaken (c : Ctx) (cond : BitVec 6) : Bool :=
  if cond == 0 then true
  else if cond.toNat < 16 then (predOf c (cond.setWidth 3)).getLsbD 0
  else !(predOf c (cond.setWidth 3)).getLsbD 0

/-- `ctl.br` (R240). -/
def execCtlBr (o : Br) (s : State) : Outcome State Fault Refusal :=
  .next (issue (.ctlBr o) o.s s fun e => .ok (if branchTaken e.c o.c then [.jump (e.relative o.i)] else []))

/-- `ctl.call` (R241). -/
def execCtlCall (o : L) (s : State) : Outcome State Fault Refusal :=
  .next (issue (.ctlCall o) o.s s fun e => link e o.d (e.relative o.i))

/-- IMM7 of a `ctl.loop` is smaller than its own bundle (R242). -/
def loopShort (s : State) (k : Nat) (at' : W64) (o : Lp) : Bool :=
  match bundleEnd s k at' 8 with
  | some n => 4 * o.i.toNat < (n - at').toNat
  | none => false

/-- `ctl.loop` (R242). -/
def execCtlLoop (o : Lp) (s : State) : Outcome State Fault Refusal :=
  .next (issue (.ctlLoop o) o.s s fun e => do
    need (!loopShort e.s e.k e.pc o) illegalOperand
    let a ← readS e.c o.a o.f
    let endAt := e.pc + BitVec.ofNat 64 (4 * o.i.toNat)
    .ok [.loop o.d.toNat a endAt (afterBundle e.s e.k endAt)])

/-- `ctl.setmpc` (R244). -/
def execCtlSetmpc (o : A1) (s : State) : Outcome State Fault Refusal :=
  .next (issue (.ctlSetmpc o) o.s s fun e => do
    let a ← readS e.c o.a o.f
    .ok [.mpc a])

/-- The trap SEMRANGE (R245, R246). -/
def semRange : Stop := stopTrap 0x08 0

/-- The available count of a semaphore (R246). -/
def available (c : Ctx) (n : Nat) : Nat := (vget c.k n 0).toNat - vget c.kHeld n 0

/-- What one slot, a `ctl.wait` on semaphore `n`, takes; none where its amount is not there yet (R185, R246). -/
def waitsFor (e : Env) (n : Nat) (w : W32) : Option Nat :=
  match decodeSlot w with
  | .ok (.ctlWait o) => if o.k.toNat == n then (match readS e.c o.b o.g with
    | .ok v => some v.toNat
    | .error _ => none) else some 0
  | _ => some 0

/-- The amount that a `ctl.wait` on semaphore `n` in the slots from `a` on takes, where it is known (R192, R245). -/
def waitAmount (e : Env) (n : Nat) (a : W64) : Nat → Option Nat
  | 0 => some 0
  | fuel + 1 =>
    match codeWord e.s e.k a with
    | none => some 0
    | some w =>
      let rest := if w.getLsbD 31 then some 0 else waitAmount e n (a + 4) fuel
      (waitsFor e n w).bind fun here => rest.map (here + ·)

/-- The outcome of `ctl.kadd` lies in range (R245); a wait of the same bundle acts first, and one whose amount is not there
yet, or that is not satisfied, holds the bundle back (R185, R192, R246). -/
def kaddOk (e : Env) (n : Nat) (a : W64) : Bool :=
  match waitAmount e n e.pc 8 with
  | none => true
  | some taken =>
    let k : Int := (vget e.c.k n 0).toNat - taken + a.toInt
    available e.c n < taken || (((vget e.c.kHeld n 0 : Nat) : Int) ≤ k && k < 2 ^ 32)

/-- `ctl.kadd` (R245). -/
def execCtlKadd (o : Ka) (s : State) : Outcome State Fault Refusal :=
  .next (issue (.ctlKadd o) o.s s fun e => do
    let a ← readS e.c o.a o.f
    need (kaddOk e o.k.toNat a) semRange
    .ok [.kadd o.k.toNat a])

/-- `ctl.wait` (R246): an acquire at its scope. -/
def execCtlWait (o : Kw) (s : State) : Outcome State Fault Refusal :=
  .next (issueMem (.ctlWait o) o.s s fun e => do
    let b ← readS e.c o.b o.g
    noTask e
    need (b.toNat < 2 ^ 32) semRange
    let n := o.k.toNat
    .ok (if b.toNat ≤ available e.c n then [.ksub n b.toNat, .acquire o.c.toNat]
      else [.blocked (.block (.semaphore n b.toNat))]))

end Sys2Proof.Machine
end

