-- ==== Sys2Proof/Machine/EngineOps.lean ====
section
/-! DEFINITION. Owner bits (R134, R135, R319), the copy engine's slots (R322, R324, R325) and the near-memory packets (R326 to
R329). -/
namespace Sys2Proof.Machine
open Host (Outcome)

/-- The owner fault STAGE (R137). -/
def stageTrap : Stop := stopTrap 0x06 2

/-- The tile of the own column that a pointer names (R319); it is never translated. -/
def tileNamed (e : Env) (a : W64) : Except Stop Nat :=
  match checkAddr e.s (who e.s e.k) a a 1 false with
  | .error t => .error (.trap t)
  | .ok (_, .mem key) =>
    if isSp key && spCore key == e.core && fld a 0 12 == 0 then .ok (tileOf key) else .error (engineTrap 0xD)
  | .ok _ => .error (engineTrap 0xD)

/-- `own.give` (R134). -/
def execOwnGive (o : A1) (s : State) : Outcome State Fault Refusal :=
  .next (issue (.ownGive o) o.s s fun e => do
    let a ← readS e.c o.a o.f
    let t ← tileNamed e a
    .ok [.give t])

/-- `own.take` (R135): blocked while a command that names the tile runs; a command that an earlier slot of its own bundle gives does
not count. DESIGN CHOICE, log 115. -/
def execOwnTake (o : A1) (s : State) : Outcome State Fault Refusal :=
  .next (issue (.ownTake o) o.s s fun e => do
    let a ← readS e.c o.a o.f
    let t ← tileNamed e a
    .ok (if mayTake e.s t then [.take t] else [.blocked (.block (.take t))]))

/-- The entries of a stage that serve the unit, read from COPYSCHED before commit, and how many entries were read (R322). -/
def stageEntries (e : Env) (sched : W64) : Nat → Nat → Except Stop (List (Nat × BitVec 512) × Nat)
  | i, 0 => .ok ([], i)
  | i, fuel + 1 => do
    let v ← readRecord e.s e.k (sched + BitVec.ofNat 64 (64 * i)) 64
    let x := BitVec.ofNat 512 v
    if e.c.stageCtr < ent x 5 48 8 then .ok ([], i + 1)
    else do
      let (rest, n) ← stageEntries e sched (i + 1) fuel
      .ok (if entServes x e.c.stageCtr e.c.unit.index then (i, x) :: rest else rest, n)

/-- `cp.stage` (R322). -/
def execCpStage (o : N) (s : State) : Outcome State Fault Refusal :=
  .next (issue (.cpStage o) o.s s fun e => do
    let (sched, stages, n) := match unitLaunch e.s e.k with
      | some l => (l.word 9, fld (l.word 10) 16 8, fld (l.word 10) 0 16)
      | none => (0, 0, 0)
    need (e.c.stageCtr < stages) (engineTrap 1)
    let (es, n) ← stageEntries e sched 0 n
    need ((es.all fun x => (tilesOf ((entLines e.core x.2).map (·.1))).all e.s.engineTiles.contains)) stageTrap
    let touched : List Effect := (List.range n).map fun i => .loaded (sched + BitVec.ofNat 64 (64 * i)) 64
    .ok (if stageFits e.s (e.core / 8) es.length then touched ++ [.stage es] else [.blocked (.block (.octant (e.core / 8) es.length))]))

/-- A phaser slot or none in a control word (R324, R325). DEDUCED, log 70. -/
def phOk (n : Nat) : Bool := n < 48 || n == 63

/-- The control word of `cp.batch` meets its table (R324). -/
def batchOk (b : W64) : Bool :=
  fld b 46 18 == 0 && fld b 7 1 == 0 && phOk (fld b 40 6) && fld b 16 12 == 0 && fld b 0 6 ≤ 11 && (fld b 0 6 < 9 || fld b 6 1 == 0)

/-- `cp.batch` (R324). -/
def execCpBatch (o : A2) (s : State) : Outcome State Fault Refusal :=
  .next (issue (.cpBatch o) o.s s fun e => do
    let a ← readS e.c o.a o.f
    let b ← readS e.c o.b o.g
    let t ← tileNamed e a
    need (batchOk b) (engineTrap 2)
    let res := tileOf (spKey e.core (fld b 38 2) (fld b 16 22))
    need (e.s.engineTiles.contains t && e.s.engineTiles.contains res) stageTrap
    .ok [.batch t res b])

/-- LINES of `cp.rread` (R325). DEDUCED, log 73. -/
def rreadLines (b : W64) : Nat := fld b 24 5 + 1

/-- The control word of `cp.rread` meets its layout (R325). -/
def rreadOk (b : W64) : Bool :=
  fld b 35 29 == 0 && fld b 0 7 == 0 && fld b 7 5 + rreadLines b ≤ 32 && phOk (fld b 29 6)

/-- The place of each line of a remote read's source, every page translated (R325). -/
def rreadPages (e : Env) (a : W64) : Nat → Except Stop (List Place)
  | 0 => .ok []
  | n + 1 => do
    let ps ← rreadPages e a n
    let p := a + BitVec.ofNat 64 (128 * n)
    match checkAddr e.s (who e.s e.k) a p 128 false with
    | .error t => .error (.trap t)
    | .ok (_, .untranslated va) => match tlbLookup e.s e.core e.c.asid.toNat va false with
      | .hit key => .ok (ps ++ [.va va key])
      | .phys => .error (.trap ⟨0x03, 0xB, some p⟩)
      | _ => .error (.wait (.walk va va false))
    | .ok (_, place) => .ok (ps ++ [place])

/-- `cp.rread` (R325). -/
def execCpRread (o : A2) (s : State) : Outcome State Fault Refusal :=
  .next (issue (.cpRread o) o.s s fun e => do
    let a ← readS e.c o.a o.f
    let b ← readS e.c o.b o.g
    need (rreadOk b) (engineTrap 2)
    let n := rreadLines b
    need (fld b 12 10 * 4096 + 4096 ≤ e.s.spSize e.core) (.trap (addrTrap 9 (pointer 1 (fld b 0 24))))
    match checkAligned e.s (who e.s e.k) a a (128 * n) 128 false with
    | .error t => .error (.trap t)
    | .ok _ => do
      let lines ← rreadPages e a n
      let dst := spKey e.core (fld b 22 2) (fld b 0 22)
      need (e.s.engineTiles.contains (tileOf dst)) stageTrap
      .ok [.rread dst (fld b 29 6) lines])

/-- Where a near-memory packet goes, before translation (R326): a place in a DRAM vault, or a VA. DEDUCED, log 72. -/
def packetAddr (e : Env) (a : W64) (n : Nat) : Except Stop Place :=
  match checkAddr e.s (who e.s e.k) a a n true with
  | .error t => .error (.trap t)
  | .ok (_, .mem key) => if isSp key then .error (engineTrap 4) else .ok (.mem key)
  | .ok (_, .untranslated va) => .ok (.untranslated va)
  | .ok _ => .error (engineTrap 4)

/-- The place of a packet, translated (R326): a VA reaches a vault, or LPDDR-6 too where the agent serves it. -/
def packetPlace (e : Env) (a : W64) (place : Place) (writes lpddr : Bool) : Except Stop Place :=
  match place with
  | .untranslated va => match tlbLookup e.s e.core e.c.asid.toNat va writes with
    | .miss => .error (.wait (.walk va va writes))
    | .write => .error (.trap ⟨0x04, 2, some a⟩)
    | .phys => .error (.trap ⟨0x03, 0xB, some a⟩)
    | .hit key => if isDram key || lpddr then .ok (.va va key) else .error (engineTrap 4)
  | p => .ok p

/-- The key of a packet's place. -/
def Place.key : Place → Nat
  | .mem k => k
  | .va _ k => k
  | _ => 0

/-- The operand of `nm.cas` meets its table (R327): N from 1 to 4, and nothing beside it. -/
def nmCasOk (b : Vec) : Bool := 1 ≤ bits b.toNat 512 3 && bits b.toNat 512 3 ≤ 4 && b.toNat >>> 515 == 0

/-- `nm.cas` (R327). -/
def execNmCas (o : C3) (s : State) : Outcome State Fault Refusal :=
  .next (issueMem (.nmCas o) o.s s fun e => do
    let d ← destV o.d
    let a ← readS e.c o.a o.f
    let b ← readV e.c o.b o.g
    let place ← packetAddr e a 32
    need (nmCasOk b) (engineTrap 3)
    let place ← packetPlace e a place true true
    let n := bits b.toNat 512 3
    .ok [.access (e.access (.nmCas n (b.extractLsb' 0 256)) weak (b >>> 256) [⟨place, 8 * n, 0, 64 * n, 0⟩]) (some (d, true))])

/-- A pointer may name a node of a list (R328): CDV or PDV, aligned to 8. -/
def nodePointer (b : W64) : Bool := fld b 0 3 == 0 && (spaceOf (fld b 60 4) == some .cdv || spaceOf (fld b 60 4) == some .pdv)

/-- `nm.enq` (R328). -/
def execNmEnq (o : C3) (s : State) : Outcome State Fault Refusal :=
  .next (issueMem (.nmEnq o) o.s s fun e => do
    let d ← destS o.d
    let a ← readS e.c o.a o.f
    let b ← readS e.c o.b o.g
    let place ← packetAddr e a 16
    need (nodePointer b) (engineTrap 4)
    let place ← packetPlace e a place true false
    need (nodeKey e.core (dramCore place.key) b 0).isSome (engineTrap 4)
    .ok [.access (e.access (.nmEnq b) weak 0 [⟨place, 16, 0, 128, 0⟩]) (some (d, false))])

/-- `nm.deq` (R328). -/
def execNmDeq (o : C2) (s : State) : Outcome State Fault Refusal :=
  .next (issueMem (.nmDeq o) o.s s fun e => do
    let d ← destS o.d
    let a ← readS e.c o.a o.f
    let place ← packetPlace e a (← packetAddr e a 16) true false
    .ok [.access (e.access .nmDeq weak 0 [⟨place, 16, 0, 128, 0⟩]) (some (d, false))])

/-- `nm.chase` (R329): the link word of the start node is reached as an access of 8 bytes. -/
def execNmChase (o : C3) (s : State) : Outcome State Fault Refusal :=
  .next (issueMem (.nmChase o) o.s s fun e => do
    let d ← destS o.d
    let a ← readS e.c o.a o.f
    let b ← readS e.c o.b o.g
    let place ← packetAddr e a 8
    need (fld b 11 53 == 0) (engineTrap 3)
    let place ← packetPlace e a place false false
    let link := 8 * fld b 4 7
    need (place.key % 0x40000000 + link + 8 ≤ 0x30000000) (.trap (addrTrap 9 (a + BitVec.ofNat 64 link)))
    .ok [.access (e.access (.nmChase (fld b 0 4 + 1) link) weak (asVec a) [⟨place, 8, 0, 64, 0⟩]) (some (d, false))])

end Sys2Proof.Machine
end

