-- ==== Sys2Proof/Machine/CollLog.lean ====
section
/-! DEFINITION. The slots of the collectives (R330 to R336), of the pair log (R337, R338, R374) and of the worklist (R339,
R359 to R367), and the steps of a collective program (R332). -/
namespace Sys2Proof.Machine
open Host (Outcome)

/-- `coll.run` (R331, R333). DEDUCED, log 74. -/
def execCollRun (o : C2) (s : State) : Outcome State Fault Refusal :=
  .next (issue (.collRun o) o.s s fun e => do
    let d ← destS o.d
    let a ← readS e.c o.a o.f
    let v ← readRecord e.s e.k a 128
    let x := BitVec.ofNat 1024 v
    need (cdValid x && cdPlaces x) (engineTrap 6)
    let g := cdf x 4 0 6
    need (fld (e.s.group g 0) 62 2 == 2) (engineTrap 5)
    need (cdStaged e.s e.core x) stageTrap
    .ok (if (e.s.runs.filter (·.die == e.core / 64)).length < 16
      then [.loaded a 128, .late d false (asVec (BitVec.ofNat 64 (groupSeq e.s g))), .collRun x]
      else [.blocked (.block (.collective (e.core / 64)))]))

/-- `coll.abort` (R335). -/
def execCollAbort (o : A1) (s : State) : Outcome State Fault Refusal :=
  .next (issue (.collAbort o) o.s s fun e => do
    let a ← readS e.c o.a o.f
    let g := fld a 0 6
    need ((e.s.group g 0).getLsbD 63) (engineTrap 5)
    .ok [.collAbort g])

/-- `coll.stat` (R336). -/
def execCollStat (o : C2) (s : State) : Outcome State Fault Refusal :=
  .next (issue (.collStat o) o.s s fun e => do
    let d ← destS o.d
    let a ← readS e.c o.a o.f
    .ok [.late d false (asVec (e.s.group (fld a 0 6) 0))])

/-- A log instruction needs the log enabled, and its ASID (R337). -/
def logOpen (e : Env) : Except Stop Unit := need (logEn e.s && e.c.asid.toNat == logAsid e.s) (engineTrap 7)

/-- The sequence number of an append: the round of the cursor that has the 16-bit round `b` (R374). DEDUCED, log 75. -/
def appendSeq (s : State) (b : Nat) : Nat :=
  let c := logCursor s / logN s
  let r := c + (b + 65536 - c % 65536) % 65536
  (r * logN s + logRank s) % 2 ^ 48

/-- `log.append` (R337, R374). -/
def execLogAppend (o : C3) (s : State) : Outcome State Fault Refusal :=
  .next (issue (.logAppend o) o.s s fun e => do
    let d ← destS o.d
    let a ← readS e.c o.a o.f
    let b ← readS e.c o.b o.g
    logOpen e
    let q := appendSeq e.s (fld b 32 16)
    need (!logHeld e.s q) (engineTrap 9)
    let x := postedEntry q (logN e.s) (logRank e.s) (fld a 0 32) (fld a 32 16) (fld b 0 32)
    .ok (if slotFree e.s q then [.late d false (asVec (BitVec.ofNat 64 q)), .logAppend q x] else [.blocked (.block (.logSlot q))]))

/-- `log.replay` (R337). -/
def execLogReplay (o : C2) (s : State) : Outcome State Fault Refusal :=
  .next (issue (.logReplay o) o.s s fun e => do
    let d ← destS o.d
    let a ← readS e.c o.a o.f
    logOpen e
    .ok [.late d false (asVec (BitVec.ofNat 64 (logCursor e.s))), .logReplay (fld a 0 48)])

/-- `log.resume` (R338). -/
def execLogResume (o : A1) (s : State) : Outcome State Fault Refusal :=
  .next (issue (.logResume o) o.s s fun e => do
    let a ← readS e.c o.a o.f
    logOpen e
    need (logState e.s == 3 && e.s.log.waitAt == a.toNat) (engineTrap 8)
    .ok [.logResume a.toNat])

/-- `wl.push` (R339): blocked while no entry is free. -/
def execWlPush (o : A2) (s : State) : Outcome State Fault Refusal :=
  .next (issue (.wlPush o) o.s s fun e => do
    let a ← readS e.c o.a o.f
    let b ← readS e.c o.b o.g
    need (fld a 54 10 != 1023) (engineTrap 0xB)
    .ok (if taskCount e.s e.core < 512 then [.wlPush (fld b 0 8) a] else [.blocked (.block .bucket)]))

/-- DONE (R339). -/
def doneTask : W64 := BitVec.allOnes 64

/-- `wl.pop` (R339, R361, R367): a job that is done answers DONE; an acquire at dev. -/
def execWlPop (o : D1) (s : State) : Outcome State Fault Refusal :=
  .next (issue (.wlPop o) o.s s fun e => do
    let d ← destS o.d
    need e.c.task.isNone (engineTrap 0xA)
    .ok (if (e.s.core e.core).wlDone.contains e.c.unit.job then [.late d false (asVec doneTask), .acquire 2]
      else match popChoice e.s e.core e.c.unit.job with
        | some (n, t) => [.late d false (asVec t.word), .wlTake n t.job t.bucket t.word, .acquire 2]
        | none => [.blocked (.block .task)]))

/-- `wl.done` (R339). -/
def execWlDone (o : N) (s : State) : Outcome State Fault Refusal :=
  .next (issue (.wlDone o) o.s s fun e => do
    need e.c.task.isSome (engineTrap 0xA)
    .ok [.wlDone])

/-- Collective step `send` (R332). -/
def execCollSend (run : Nat) (w : StepWord) (s : State) : Outcome State Fault Refusal := .next (collStep s run (namesPeer s w) (doSend s w))

/-- Collective step `recv` (R332). -/
def execCollRecv (run : Nat) (w : StepWord) (s : State) : Outcome State Fault Refusal := .next (collStep s run (namesPeer s w) (doRecv s w))

/-- Collective step `rrs` (R332). -/
def execCollRrs (run : Nat) (w : StepWord) (s : State) : Outcome State Fault Refusal := .next (collStep s run (namesBoth s w) (doRrs s w))

/-- Collective step `copy` (R332). -/
def execCollCopy (run : Nat) (w : StepWord) (s : State) : Outcome State Fault Refusal := .next (collStep s run id (doCopy s w))

/-- Collective step `wait` (R332). -/
def execCollWait (run : Nat) (w : StepWord) (s : State) : Outcome State Fault Refusal := .next (collStep s run id (doWait s w))

/-- Collective step `loop` (R332). -/
def execCollLoop (run : Nat) (w : StepWord) (s : State) : Outcome State Fault Refusal := .next (collStep s run id (doLoop s w))

/-- A run ends (R333). -/
def execCollEnd (run : Nat) (s : State) : Outcome State Fault Refusal := .next (endRun s run)

end Sys2Proof.Machine
end

