-- ==== Sys2Proof/Machine/Float.lean ====
section
/-! DEFINITION. Scalar FP32 instructions and conversions (R236 to R238). Their results are variable-latency (R223); their
flags are written as the bundle commits. -/
namespace Sys2Proof.Machine
open Host (Outcome)

/-- The low half of a scalar: its FP32 value (R222). -/
def low32 (a : W64) : W32 := a.extractLsb' 0 32

/-- An FP32 result and its flags (R222, R236). -/
def fpLate (d : Dest) (r : W32 × Flags) : List Effect := [.late d false (asVec (zext32 r.1)), .flags r.2]

/-- D := f A B in FP32 (R236). -/
def fp2 (o : C3) (f : W32 → W32 → W32 × Flags) (e : Env) : Except Stop (List Effect) := do
  let d ← destS o.d
  let a ← readS e.c o.a o.f
  let b ← readS e.c o.b o.g
  .ok (fpLate d (f (low32 a) (low32 b)))

/-- D := f A in FP32 (R236). -/
def fp1 (o : C2) (f : W32 → W32 × Flags) (e : Env) : Except Stop (List Effect) := do
  let d ← destS o.d
  let a ← readS e.c o.a o.f
  .ok (fpLate d (f (low32 a)))

/-- A relation as 1 or 0, with its flags (R222, R236). -/
def fpTruth (r : FpRel) (a b : W32) : W32 × Flags := (if (fpRel r a b).1 then 1 else 0, (fpRel r a b).2)

/-- A scalar conversion (R238). -/
def cvt1 (dst a : BitVec 6) (f : BitVec 1) (g : W64 → W64 × Flags) (e : Env) : Except Stop (List Effect) := do
  let d ← destS dst
  let a ← readS e.c a f
  let r := g a
  .ok [.late d false (asVec r.1), .flags r.2]

/-- `fp.add` (R236). -/
def execFpAdd (o : C3) (s : State) : Outcome State Fault Refusal :=
  .next (issue (.fpAdd o) o.s s (fp2 o fpAdd))

/-- `fp.sub` (R236). -/
def execFpSub (o : C3) (s : State) : Outcome State Fault Refusal :=
  .next (issue (.fpSub o) o.s s (fp2 o fpSub))

/-- `fp.mul` (R236). -/
def execFpMul (o : C3) (s : State) : Outcome State Fault Refusal :=
  .next (issue (.fpMul o) o.s s (fp2 o fpMul))

/-- `fp.div` (R236). -/
def execFpDiv (o : C3) (s : State) : Outcome State Fault Refusal :=
  .next (issue (.fpDiv o) o.s s (fp2 o fpDiv))

/-- `fp.sqrt` (R236). -/
def execFpSqrt (o : C2) (s : State) : Outcome State Fault Refusal :=
  .next (issue (.fpSqrt o) o.s s (fp1 o fpSqrt))

/-- `fp.fma` (R236): D is a source. -/
def execFpFma (o : C3) (s : State) : Outcome State Fault Refusal :=
  .next (issue (.fpFma o) o.s s fun e => do
    let d ← destS o.d
    let a ← readS e.c o.a o.f
    let b ← readS e.c o.b o.g
    let v ← readS e.c o.d 0
    .ok (fpLate d (fpFma (low32 a) (low32 b) (low32 v))))

/-- `fp.min` (R237). -/
def execFpMin (o : C3) (s : State) : Outcome State Fault Refusal :=
  .next (issue (.fpMin o) o.s s (fp2 o (fun a b => (fpMin a b, 0))))

/-- `fp.max` (R237). -/
def execFpMax (o : C3) (s : State) : Outcome State Fault Refusal :=
  .next (issue (.fpMax o) o.s s (fp2 o (fun a b => (fpMax a b, 0))))

/-- `fp.abs` (R236). -/
def execFpAbs (o : C2) (s : State) : Outcome State Fault Refusal :=
  .next (issue (.fpAbs o) o.s s (fp1 o (fun a => (fpAbs a, 0))))

/-- `fp.neg` (R236). -/
def execFpNeg (o : C2) (s : State) : Outcome State Fault Refusal :=
  .next (issue (.fpNeg o) o.s s (fp1 o (fun a => (fpNeg a, 0))))

/-- `fp.eq` (R236). -/
def execFpEq (o : C3) (s : State) : Outcome State Fault Refusal :=
  .next (issue (.fpEq o) o.s s (fp2 o (fpTruth .eq)))

/-- `fp.lt` (R236). -/
def execFpLt (o : C3) (s : State) : Outcome State Fault Refusal :=
  .next (issue (.fpLt o) o.s s (fp2 o (fpTruth .lt)))

/-- `fp.le` (R236). -/
def execFpLe (o : C3) (s : State) : Outcome State Fault Refusal :=
  .next (issue (.fpLe o) o.s s (fp2 o (fpTruth .le)))

/-- `fp.un` (R236). -/
def execFpUn (o : C3) (s : State) : Outcome State Fault Refusal :=
  .next (issue (.fpUn o) o.s s (fp2 o (fpTruth .un)))

/-- `cvt.sf2i` (R238). -/
def execCvtSf2i (o : S2B) (s : State) : Outcome State Fault Refusal :=
  .next (issue (.cvtSf2i o) o.s s (cvt1 o.d o.a o.f (scalarToInt o.t)))

/-- `cvt.si2f` (R238). -/
def execCvtSi2f (o : S2B) (s : State) : Outcome State Fault Refusal :=
  .next (issue (.cvtSi2f o) o.s s (cvt1 o.d o.a o.f (intToScalar o.t)))

/-- `cvt.sf2b` (R238): DIR in r, SAT in q. -/
def execCvtSf2b (o : S2B) (s : State) : Outcome State Fault Refusal :=
  .next (issue (.cvtSf2b o) o.s s (cvt1 o.d o.a o.f fun a =>
    if o.r == 1 then (scalarWiden o.t a, 0) else scalarNarrow o.t (o.q == 1) a))

end Sys2Proof.Machine
end

