-- ==== Sys2Proof/Machine/Vector.lean ====
section
/-! DEFINITION. Vector instructions (R275 to R289): every result is variable-latency; predicates and flags are written as
the bundle commits (R276). -/
namespace Sys2Proof.Machine
open Host (Outcome)

/-- A vector result and its flags (R276). -/
def vecLate (d : Dest) (r : Vec × Flags) : List Effect := [.late d true r.1, .flags r.2]

/-- Lane-wise D := f A B (R275). -/
def vec2 (o : C3) (f : W32 → W32 → W32 × Flags) (e : Env) : Except Stop (List Effect) := do
  let d ← destV o.d
  let a ← readV e.c o.a o.f
  let b ← readVB e.c o.b o.g
  .ok (vecLate d (laneWise fun n => f (lane a n) (lane b n)))

/-- Lane-wise D := f A (R275). -/
def vec1 (o : C2) (f : W32 → W32 × Flags) (e : Env) : Except Stop (List Effect) := do
  let d ← destV o.d
  let a ← readV e.c o.a o.f
  .ok (vecLate d (laneWise fun n => f (lane a n)))

/-- The shift amount of a lane: bits 4:0 (R278). -/
def laneShift (b : W32) : Nat := b.toNat % 32

/-- A compare into a predicate (R279); its flags are the OR over the lanes (R276). -/
def vecCmp (o : VC) (r : W32 → W32 → Bool × Flags) (e : Env) : Except Stop (List Effect) := do
  let a ← readV e.c o.a o.f
  let b ← readVB e.c o.b o.g
  .ok [.pred o.c.toNat (lanePred fun n => (r (lane a n) (lane b n)).1),
    .flags ((List.range 64).foldl (fun f n => f ||| (r (lane a n) (lane b n)).2) 0)]

/-- A reduction (R281). -/
def vecReduce (o : Red) (op : W32 → W32 → W32 × Flags) (masked : W32) (e : Env) : Except Stop (List Effect) := do
  let d ← destS o.d
  let a ← readV e.c o.a o.f
  let r := reduce op masked (if o.p == 1 then some (predOf e.c o.c) else none) a
  .ok [.late d false (asVec (zext32 r.1)), .flags r.2]

/-- `vec.add` (R277). -/
def execVecAdd (o : C3) (s : State) : Outcome State Fault Refusal :=
  .next (issue (.vecAdd o) o.s s (vec2 o fpAdd))

/-- `vec.sub` (R277). -/
def execVecSub (o : C3) (s : State) : Outcome State Fault Refusal :=
  .next (issue (.vecSub o) o.s s (vec2 o fpSub))

/-- `vec.mul` (R277). -/
def execVecMul (o : C3) (s : State) : Outcome State Fault Refusal :=
  .next (issue (.vecMul o) o.s s (vec2 o fpMul))

/-- `vec.fma` (R277): D is a source. -/
def execVecFma (o : C3) (s : State) : Outcome State Fault Refusal :=
  .next (issue (.vecFma o) o.s s fun e => do
    let d ← destV o.d
    let a ← readV e.c o.a o.f
    let b ← readVB e.c o.b o.g
    let v ← readV e.c o.d 0
    .ok (vecLate d (laneWise fun n => fpFma (lane a n) (lane b n) (lane v n))))

/-- `vec.min` (R277). -/
def execVecMin (o : C3) (s : State) : Outcome State Fault Refusal :=
  .next (issue (.vecMin o) o.s s (vec2 o fun a b => (fpMin a b, 0)))

/-- `vec.max` (R277). -/
def execVecMax (o : C3) (s : State) : Outcome State Fault Refusal :=
  .next (issue (.vecMax o) o.s s (vec2 o fun a b => (fpMax a b, 0)))

/-- `vec.abs` (R277). -/
def execVecAbs (o : C2) (s : State) : Outcome State Fault Refusal :=
  .next (issue (.vecAbs o) o.s s (vec1 o fun a => (fpAbs a, 0)))

/-- `vec.neg` (R277). -/
def execVecNeg (o : C2) (s : State) : Outcome State Fault Refusal :=
  .next (issue (.vecNeg o) o.s s (vec1 o fun a => (fpNeg a, 0)))

/-- `vec.div` (R277). -/
def execVecDiv (o : C3) (s : State) : Outcome State Fault Refusal :=
  .next (issue (.vecDiv o) o.s s (vec2 o fpDiv))

/-- `vec.sqrt` (R277). -/
def execVecSqrt (o : C2) (s : State) : Outcome State Fault Refusal :=
  .next (issue (.vecSqrt o) o.s s (vec1 o fpSqrt))

/-- `vec.iadd` (R278). -/
def execVecIadd (o : C3) (s : State) : Outcome State Fault Refusal :=
  .next (issue (.vecIadd o) o.s s (vec2 o fun a b => (a + b, 0)))

/-- `vec.isub` (R278). -/
def execVecIsub (o : C3) (s : State) : Outcome State Fault Refusal :=
  .next (issue (.vecIsub o) o.s s (vec2 o fun a b => (a - b, 0)))

/-- `vec.imul` (R278). -/
def execVecImul (o : C3) (s : State) : Outcome State Fault Refusal :=
  .next (issue (.vecImul o) o.s s (vec2 o fun a b => (a * b, 0)))

/-- `vec.and` (R278). -/
def execVecAnd (o : C3) (s : State) : Outcome State Fault Refusal :=
  .next (issue (.vecAnd o) o.s s (vec2 o fun a b => (a &&& b, 0)))

/-- `vec.or` (R278). -/
def execVecOr (o : C3) (s : State) : Outcome State Fault Refusal :=
  .next (issue (.vecOr o) o.s s (vec2 o fun a b => (a ||| b, 0)))

/-- `vec.xor` (R278). -/
def execVecXor (o : C3) (s : State) : Outcome State Fault Refusal :=
  .next (issue (.vecXor o) o.s s (vec2 o fun a b => (a ^^^ b, 0)))

/-- `vec.shl` (R278). -/
def execVecShl (o : C3) (s : State) : Outcome State Fault Refusal :=
  .next (issue (.vecShl o) o.s s (vec2 o fun a b => (a <<< laneShift b, 0)))

/-- `vec.shr` (R278). -/
def execVecShr (o : C3) (s : State) : Outcome State Fault Refusal :=
  .next (issue (.vecShr o) o.s s (vec2 o fun a b => (a >>> laneShift b, 0)))

/-- `vec.sar` (R278). -/
def execVecSar (o : C3) (s : State) : Outcome State Fault Refusal :=
  .next (issue (.vecSar o) o.s s (vec2 o fun a b => (a.sshiftRight (laneShift b), 0)))

/-- `vec.imin` (R278). -/
def execVecImin (o : C3) (s : State) : Outcome State Fault Refusal :=
  .next (issue (.vecImin o) o.s s (vec2 o fun a b => (if a.slt b then a else b, 0)))

/-- `vec.imax` (R278). -/
def execVecImax (o : C3) (s : State) : Outcome State Fault Refusal :=
  .next (issue (.vecImax o) o.s s (vec2 o fun a b => (if a.slt b then b else a, 0)))

/-- `vec.eq` (R279). -/
def execVecEq (o : VC) (s : State) : Outcome State Fault Refusal :=
  .next (issue (.vecEq o) o.s s (vecCmp o (fpRel .eq)))

/-- `vec.ne` (R279). -/
def execVecNe (o : VC) (s : State) : Outcome State Fault Refusal :=
  .next (issue (.vecNe o) o.s s (vecCmp o (fpRel .ne)))

/-- `vec.lt` (R279). -/
def execVecLt (o : VC) (s : State) : Outcome State Fault Refusal :=
  .next (issue (.vecLt o) o.s s (vecCmp o (fpRel .lt)))

/-- `vec.le` (R279). -/
def execVecLe (o : VC) (s : State) : Outcome State Fault Refusal :=
  .next (issue (.vecLe o) o.s s (vecCmp o (fpRel .le)))

/-- `vec.ieq` (R279). -/
def execVecIeq (o : VC) (s : State) : Outcome State Fault Refusal :=
  .next (issue (.vecIeq o) o.s s (vecCmp o fun a b => (a == b, 0)))

/-- `vec.ilt` (R279). -/
def execVecIlt (o : VC) (s : State) : Outcome State Fault Refusal :=
  .next (issue (.vecIlt o) o.s s (vecCmp o fun a b => (a.slt b, 0)))

/-- `vec.sigm` (R283, R287). -/
def execVecSigm (o : C2) (s : State) : Outcome State Fault Refusal :=
  .next (issue (.vecSigm o) o.s s (vec1 o fun a => (fnSigm a, 0)))

/-- `vec.exp2` (R283, R284). -/
def execVecExp2 (o : C2) (s : State) : Outcome State Fault Refusal :=
  .next (issue (.vecExp2 o) o.s s (vec1 o fnExp2))

/-- `vec.rcp` (R283, R285). -/
def execVecRcp (o : C2) (s : State) : Outcome State Fault Refusal :=
  .next (issue (.vecRcp o) o.s s (vec1 o fnRcp))

/-- `vec.rsq` (R283, R286). -/
def execVecRsq (o : C2) (s : State) : Outcome State Fault Refusal :=
  .next (issue (.vecRsq o) o.s s (vec1 o fnRsq))

/-- `vec.log2` (R283, R288). -/
def execVecLog2 (o : C2) (s : State) : Outcome State Fault Refusal :=
  .next (issue (.vecLog2 o) o.s s (vec1 o fnLog2))

/-- `vec.tanh` (R283, R288). -/
def execVecTanh (o : C2) (s : State) : Outcome State Fault Refusal :=
  .next (issue (.vecTanh o) o.s s (vec1 o fun a => (fnTanh a, 0)))

/-- `vec.rsum` (R281). -/
def execVecRsum (o : Red) (s : State) : Outcome State Fault Refusal :=
  .next (issue (.vecRsum o) o.s s (vecReduce o fpAdd 0x80000000))

/-- `vec.rmax` (R281). -/
def execVecRmax (o : Red) (s : State) : Outcome State Fault Refusal :=
  .next (issue (.vecRmax o) o.s s (vecReduce o (fun a b => (fpMax a b, 0)) fp32NaN))

/-- `vec.rmin` (R281). -/
def execVecRmin (o : Red) (s : State) : Outcome State Fault Refusal :=
  .next (issue (.vecRmin o) o.s s (vecReduce o (fun a b => (fpMin a b, 0)) fp32NaN))

/-- The bundle goes to firmware for emulation (R99, R392) unless it has just been there. -/
def emulate (e : Env) (fx : List Effect) : List Effect :=
  if e.c.wait == some (.block .emulation) then fx else .blocked (.block .emulation) :: fx

/-- `vec.dotg` (R282): D is a source; FP16 is emulated (R99). -/
def execVecDotg (o : Fm) (s : State) : Outcome State Fault Refusal :=
  .next (issue (.vecDotg o) o.s s fun e => do
    let d ← destS o.d
    let a ← readV e.c o.a o.f
    let b ← readV e.c (o.a + 1) o.f
    let v ← readS e.c o.d 0
    let r := vectorDot o.t (low32 v) a b
    let fx : List Effect := [.late d false (asVec (zext32 r.1)), .flags r.2]
    .ok (if o.t == 5 then emulate e fx else fx))

/-- `vec.mov` (R280). -/
def execVecMov (o : C2) (s : State) : Outcome State Fault Refusal :=
  .next (issue (.vecMov o) o.s s fun e => do
    let d ← destV o.d
    let a ← readV e.c o.a o.f
    .ok [.late d true a])

/-- `vec.bcast` (R280). -/
def execVecBcast (o : C2) (s : State) : Outcome State Fault Refusal :=
  .next (issue (.vecBcast o) o.s s fun e => do
    let d ← destV o.d
    let a ← readS e.c o.a o.f
    .ok [.late d true (broadcast (low32 a))])

/-- `vec.perm` (R280). -/
def execVecPerm (o : C3) (s : State) : Outcome State Fault Refusal :=
  .next (issue (.vecPerm o) o.s s fun e => do
    let d ← destV o.d
    let a ← readV e.c o.a o.f
    let b ← readV e.c o.b o.g
    .ok [.late d true (tabulate fun n => lane a ((lane b n).toNat % 64))])

/-- `vec.sel` (R280): D is a source. -/
def execVecSel (o : VSel) (s : State) : Outcome State Fault Refusal :=
  .next (issue (.vecSel o) o.s s fun e => do
    let d ← destV o.d
    let a ← readV e.c o.a o.f
    let v ← readV e.c o.d 0
    .ok [.late d true (tabulate fun n => if (predOf e.c o.c).getLsbD n then lane a n else lane v n)])

/-- `vec.lane` (R280). -/
def execVecLane (o : Ln) (s : State) : Outcome State Fault Refusal :=
  .next (issue (.vecLane o) o.s s fun e => do
    let d ← destS o.d
    let a ← readV e.c o.a o.f
    .ok [.late d false (asVec (zext32 (lane a o.k.toNat)))])

/-- `vec.ins` (R280): D is a source. -/
def execVecIns (o : Ln) (s : State) : Outcome State Fault Refusal :=
  .next (issue (.vecIns o) o.s s fun e => do
    let d ← destV o.d
    let a ← readS e.c o.a o.f
    let v ← readV e.c o.d 0
    .ok [.late d true (tabulate fun n => if n == o.k.toNat then low32 a else lane v n)])

/-- A half-row of an accumulator tile of an engine of the issuing core (R289); an empty tile holds the core (R143). -/
def accLanes (o : Acc) (f : W32 → W32) (e : Env) : Except Stop (List Effect) := do
  let d ← destV o.d
  let a ← readS e.c o.a o.f
  let me := e.core * 2 + o.e.toNat
  let t := vget (e.s.engine me).acc o.n.toNat ⟨true, []⟩
  need t.full (.wait (.acc me o.n.toNat))
  let at' (n : Nat) : Nat := 128 * fld a 0 7 + 64 * fld a 7 1 + n
  .ok [.late d true (tabulate fun n => f ((tget t.elems (at' n)).getD 0))]

/-- `acc.rd` (R289). -/
def execAccRd (o : Acc) (s : State) : Outcome State Fault Refusal :=
  .next (issue (.accRd o) o.s s (accLanes o fun w => w))

/-- `acc.rdk` (R289). -/
def execAccRdk (o : Acc) (s : State) : Outcome State Fault Refusal :=
  .next (issue (.accRdk o) o.s s (accLanes o fun w => k19Word (fp32 w)))

end Sys2Proof.Machine
end

