-- ==== Sys2Proof/Machine/Convert.lean ====
section
/-! DEFINITION. Vector conversions (R290 to R293). -/
namespace Sys2Proof.Machine
open Host (Outcome)

/-- The control word of a conversion, checked at issue (R290). -/
def cvtControl (e : Env) (b : BitVec 6) (g : BitVec 1) (k : CvtSet) : Except Stop CvtCtl := do
  let w ← readS e.c b g
  need ((CvtCtl.ofWord w).legal k) illegalModifier
  .ok (CvtCtl.ofWord w)

/-- A narrowing: D is a source (R291). -/
def narrow (o : C3) (k : CvtSet) (e : Env) : Except Stop (List Effect) := do
  let d ← destV o.d
  let a ← readV e.c o.a o.f
  let c ← cvtControl e o.b o.g k
  let v ← readV e.c o.d 0
  .ok (vecLate d (vectorNarrow c v a))

/-- A widening (R292). -/
def widenVec (o : C3) (k : CvtSet) (e : Env) : Except Stop (List Effect) := do
  let d ← destV o.d
  let a ← readV e.c o.a o.f
  let c ← cvtControl e o.b o.g k
  .ok (vecLate d (vectorWiden c a))

/-- `cvt.nar` (R291). -/
def execCvtNar (o : C3) (s : State) : Outcome State Fault Refusal := .next (issue (.cvtNar o) o.s s (narrow o .narrow))

/-- `cvt.wid` (R292). -/
def execCvtWid (o : C3) (s : State) : Outcome State Fault Refusal := .next (issue (.cvtWid o) o.s s (widenVec o .widen))

/-- `cvt.f2i` (R291). -/
def execCvtF2i (o : C3) (s : State) : Outcome State Fault Refusal := .next (issue (.cvtF2i o) o.s s (narrow o .integer))

/-- `cvt.i2f` (R292). -/
def execCvtI2f (o : C3) (s : State) : Outcome State Fault Refusal := .next (issue (.cvtI2f o) o.s s (widenVec o .integer))

/-- `cvt.e8` (R293). -/
def execCvtE8 (o : C2) (s : State) : Outcome State Fault Refusal :=
  .next (issue (.cvtE8 o) o.s s fun e => do
    let d ← destV o.d
    let a ← readV e.c o.a o.f
    .ok [.late d true (vectorE8 a)])

end Sys2Proof.Machine
end

