-- ==== Sys2Proof/Machine/Events.lean ====
section
/-! DEFINITION. The events of the machine, one meaning each: what the memories, engines, scheduler, fabric, host and system
software do beside the issue of slots. An event that is not enabled changes nothing. -/
namespace Sys2Proof.Machine
open Host

/-- A register write that has an event of its own: dropped before DEV_READY (R414), and where no such register is. -/
def written (s : State) (named : Bool) (t : State) : State := if s.devReady && named then t else s

/-- Every byte of a host access is populated (R404). -/
def hostReaches (pa n : Nat) : Bool := (List.range n).all fun i => populated (pa + i)

/-- An access of BAR0 reaches a register (R3, R22, R404): BAR0 is 16 GiB, and registers take accesses of 4 or 8 bytes at their
alignment. DEDUCED, log 93. -/
def bar0Reaches (off n : Nat) : Bool := off < 2 ^ 34 && (n == 4 || n == 8) && off % n == 0

/-- A host write of device memory (R129, R404, R405): its bytes perform at the point of coherence. DESIGN CHOICE, log 78. Through BAR0
it writes a register of the die that its offset names. An access that reaches nothing completes with Unsupported Request. -/
def hostWrite (s : State) (a : HostAddr) (data : List Byte) : State :=
  let done (ok : Bool) (t : State) : State := if ok then { t with hostOut := .written } else { s with hostOut := .unsupported }
  match a with
  | .hdm pa => done (hostReaches pa data.length) (externalWrite s pa data.length (ofBytes data))
  | .bar0 off => done (bar0Reaches off data.length) (writeReg s (off / 2 ^ 32) (off % 2 ^ 32) data.length (BitVec.ofNat 64 (ofBytes data)))

/-- A host read (R404, R405): `hostOut` has the bytes at the point of coherence, or a register's. An error that it meets is no
launch's (R397). DEDUCED, log 58. -/
def hostRead (s : State) (a : HostAddr) (n : Nat) : State :=
  match a with
  | .hdm pa =>
    if hostReaches pa n then
      let (v, s) := externalRead s pa n
      let s := match badLine? s pa n with
        | some l => lineError s l
        | none => s
      { s with hostOut := .data (wordBytes n v) }
    else { s with hostOut := .unsupported }
  | .bar0 off =>
    if bar0Reaches off n then { s with hostOut := .data (wordBytes n (mmioRead s (off / 2 ^ 32) (off % 2 ^ 32) n)) }
    else { s with hostOut := .unsupported }

/-- A fetched word that is no instruction (R193, R196): ILLEGAL at the slot that is to issue. -/
def unassigned (s : State) (cause : Illegal) : State :=
  match s.bundle with
  | some p => takeTrap s p.ctx p.slot ⟨0x02, Illegal.cause cause, none⟩
  | none => match issuer s with
    | some k => takeTrap s k 0 ⟨0x02, Illegal.cause cause, none⟩
    | none => s

/-- The scheduler places the unit that is next, in the context that is its (R346, R347). -/
def placeIn (s : State) (k : Nat) : State :=
  let s := assignPipes s
  match placeChoice s (k / 256) with
  | some p => if p.ctx == k then place s p else s
  | none => s

/-- Firmware has performed the bundle of a context (R392): the context runs again, and the bundle commits when it
issues next. -/
def finishEmulation (s : State) (k : Nat) : State :=
  let c := s.ctx k
  if c.status == .emulating then chooseCtx (s.setCtx k { c with status := if c.handling then .handler else .running }) (k / 4) else s

/-- Firmware has no routine for the bundle that a context wants emulated (R392): the launch is discarded. -/
def noRoutine (s : State) (k : Nat) : State :=
  let c := s.ctx k
  if c.status == .emulating then discardUnit s k { faultRec 3 0 0x15 1 with core := k / 4, ctx := k % 4, pc := c.pc } else s

/-- CONTEXT_WAKE (R150). -/
def execContextWake (k : Nat) (s : State) : Outcome State Fault Refusal := .next (wake s k)

/-- RESULT_ARRIVE (R181). -/
def execResultArrive (k id : Nat) (s : State) : Outcome State Fault Refusal := .next (arrive s k id)

/-- ACCESS_PERFORM (R116). -/
def execAccessPerform (k id : Nat) (s : State) : Outcome State Fault Refusal := .next (perform s k id)

/-- WALK_COMPLETE (R68). -/
def execWalkComplete (i : Nat) (s : State) : Outcome State Fault Refusal := .next (endWalk s i)

/-- PEER_ACCESS_ARRIVE (R128). -/
def execPeerAccessArrive (r : PeerReq) (s : State) : Outcome State Fault Refusal := .next (servePeer s r)

/-- HOST_MEM_WRITE (R129). -/
def execHostMemWrite (a : HostAddr) (data : List Byte) (s : State) : Outcome State Fault Refusal := .next (hostWrite s a data)

/-- HOST_MEM_READ (R405). -/
def execHostMemRead (a : HostAddr) (n : Nat) (s : State) : Outcome State Fault Refusal := .next (hostRead s a n)

/-- COLL_ABORT_FLIT (R335). -/
def execCollAbortFlit (group seq : Nat) (s : State) : Outcome State Fault Refusal := .next (abortRun s group seq)

/-- LOG_ENTRY_ARRIVE (R378). -/
def execLogEntryArrive (entry : BitVec 256) (s : State) : Outcome State Fault Refusal := .next (receiveUp s entry)

/-- LOG_RELEASED_ARRIVE (R379). -/
def execLogReleasedArrive (entry : BitVec 256) (s : State) : Outcome State Fault Refusal := .next (receiveReleased s entry)

/-- WL_SHIPMENT_ARRIVE (R365). -/
def execWlShipmentArrive (job bucket : Nat) (task : W64) (src : Nat) (s : State) : Outcome State Fault Refusal := .next (takeShipment s job bucket task src)

/-- PTP_SYNC (R413). -/
def execPtpSync (time : Nat) (s : State) : Outcome State Fault Refusal := .next (sync s time)

/-- POWER_UP (R414). -/
def execPowerUp (r : SelfTest) (s : State) : Outcome State Fault Refusal := .next (bringUp s r)

/-- REGISTER_WRITE (R3). -/
def execRegisterWrite (die off n : Nat) (v : W64) (s : State) : Outcome State Fault Refusal := .next (writeReg s die off n v)

/-- WL_SHIPMENT_ACK (R365). -/
def execWlShipmentAck (job : Nat) (s : State) : Outcome State Fault Refusal := .next (shipmentAck s job)

/-- UNASSIGNED_ENCODING (R196). -/
def execUnassignedEncoding (cause : Illegal) (_w : W32) (s : State) : Outcome State Fault Refusal := .next (unassigned s cause)

/-- MON_TIMEOUT (R265). -/
def execMonTimeout (k : Nat) (s : State) : Outcome State Fault Refusal := .next (monitorTimeout s k)

/-- SPLIT_CONVERSION (R62). -/
def execSplitConversion (core new : Nat) (s : State) : Outcome State Fault Refusal := .next (convertSplit s core new)

/-- LQ_SUBMIT (R156). -/
def execLqSubmit (die q : Nat) (ptr : W64) (s : State) : Outcome State Fault Refusal := .next (written s (die < 4 && q < 16) (submit s die q ptr none 0))

/-- UNIT_PLACE (R347). -/
def execUnitPlace (k : Nat) (s : State) : Outcome State Fault Refusal := .next (placeIn s k)

/-- UNIT_START (R161). -/
def execUnitStart (k : Nat) (s : State) : Outcome State Fault Refusal := .next (startUnit s k)

/-- OVERLAY_LOAD (R176). -/
def execOverlayLoad (k : Nat) (s : State) : Outcome State Fault Refusal := .next (loadOverlay s k)

/-- UNIT_RETIRE_COMPLETE (R175). -/
def execUnitRetireComplete (k : Nat) (s : State) : Outcome State Fault Refusal := .next (retireUnit s k)

/-- UNIT_STOP_FREE (R167). -/
def execUnitStopFree (k : Nat) (s : State) : Outcome State Fault Refusal := .next (leaveUnit s k)

/-- LEVEL_ENTRY_FREE (R166). -/
def execLevelEntryFree (i : Nat) (s : State) : Outcome State Fault Refusal := .next (written s true (freeEntry s i))

/-- JOB_END (R166). -/
def execJobEnd (slot : Nat) (s : State) : Outcome State Fault Refusal := .next (written s true (endJob s slot))

/-- MAILBOX_HANDLER_START (R171). -/
def execMailboxHandlerStart (die n : Nat) (s : State) : Outcome State Fault Refusal := .next (startHandler s die n)

/-- MAILBOX_OVF_CLEAR (R169). -/
def execMailboxOvfClear (die n : Nat) (s : State) : Outcome State Fault Refusal := .next (written s (die < 4 && n < 64) (clearOvf s die n))

/-- LIVE_VIEW_ENTRY_FREE (R50). -/
def execLiveViewEntryFree (core i : Nat) (s : State) : Outcome State Fault Refusal := .next (freeView s core i)

/-- TARGET_ERROR_RESPONSE (R32). -/
def execTargetErrorResponse (k id : Nat) (s : State) : Outcome State Fault Refusal := .next (errorAnswer s k id)

/-- COPY_BACKLOG_DRAIN (R322). -/
def execCopyBacklogDrain (octant : Nat) (s : State) : Outcome State Fault Refusal := .next (backlogDrain s octant)

/-- COPY_ENTRY_START (R323). -/
def execCopyEntryStart (id : Nat) (s : State) : Outcome State Fault Refusal := .next (copyStart s id)

/-- COPY_CHUNK (R146). -/
def execCopyChunk (id : Nat) (ev : ChunkEvent) (s : State) : Outcome State Fault Refusal := .next (copyStep s id ev)

/-- COPY_ENTRY_COMPLETE (R323). -/
def execCopyEntryComplete (id : Nat) (s : State) : Outcome State Fault Refusal := .next (copyComplete s id)

/-- COPY_RECORD_WRITE (R418). -/
def execCopyRecordWrite (id : Nat) (s : State) : Outcome State Fault Refusal := .next (copyRecordWait s id)

/-- BATCH_ATOMIC_COMPLETE (R324). -/
def execBatchAtomicComplete (id : Nat) (s : State) : Outcome State Fault Refusal := .next (batchStep s id)

/-- RREAD_COMPLETE (R325). -/
def execRreadComplete (id : Nat) (s : State) : Outcome State Fault Refusal := .next (rreadStep s id)

/-- MEPRE_SAVE (R402). -/
def execMepreSave (e : Nat) (s : State) : Outcome State Fault Refusal := .next (saveCalls s e)

/-- MEPRE_RESTORE (R402). -/
def execMepreRestore (e : Nat) (s : State) : Outcome State Fault Refusal := .next (restoreCalls s e)

/-- CONTEXT_SAVE (R400). -/
def execContextSave (k : Nat) (s : State) : Outcome State Fault Refusal := .next (stopForSave s k)

/-- CONTEXT_SAVE_COMPLETE (R400). -/
def execContextSaveComplete (k : Nat) (s : State) : Outcome State Fault Refusal := .next (finishSave s k)

/-- CONTEXT_RESTORE (R400). -/
def execContextRestore (k : Nat) (s : State) : Outcome State Fault Refusal := .next (restoreContext s k)

/-- COLL_GROUP_DEFINE (R330). -/
def execCollGroupDefine (g : Nat) (v : W64) (s : State) : Outcome State Fault Refusal := .next (written s (g < 64) (defineGroup s g v))

/-- COLL_CHECK_TICK (R334). -/
def execCollCheckTick (s : State) : Outcome State Fault Refusal := .next (checkTick s)

/-- COLL_ORDER (R334). -/
def execCollOrder (group seq : Nat) (s : State) : Outcome State Fault Refusal := .next (orderMismatch s group seq)

/-- STAGGER_RELEASE (R358). -/
def execStaggerRelease (i : Nat) (s : State) : Outcome State Fault Refusal := .next (staggerSend s i)

/-- LOG_ENABLE (R376). -/
def execLogEnable (v : W64) (s : State) : Outcome State Fault Refusal := .next (written s true (logStart s v))

/-- LOG_DISABLE (R376). -/
def execLogDisable (s : State) : Outcome State Fault Refusal := .next (written s true (logStop s))

/-- LOG_TICK_SEND (R378). -/
def execLogTickSend (s : State) : Outcome State Fault Refusal := .next (logTick s)

/-- LOG_VOID_TIMEOUT (R378). -/
def execLogVoidTimeout (s : State) : Outcome State Fault Refusal := .next (voidTimeout s)

/-- MORDANT_ROUND (R381). -/
def execMordantRound (s : State) : Outcome State Fault Refusal := .next (mordantStep s)

/-- LOG_GAP (R384). -/
def execLogGap (s : State) : Outcome State Fault Refusal := .next (gapStep s)

/-- WL_SAMPLE (R360). -/
def execWlSample (s : State) : Outcome State Fault Refusal := .next (sample s)

/-- WL_TREE_TICK (R364). -/
def execWlTreeTick (job : Nat) (s : State) : Outcome State Fault Refusal := .next (treeTick s job)

/-- WL_BALANCE_TICK (R365). -/
def execWlBalanceTick (job : Nat) (s : State) : Outcome State Fault Refusal := .next (balanceTick s job)

/-- PIPE_REBALANCE (R352). -/
def execPipeRebalance (launch : Nat) (s : State) : Outcome State Fault Refusal := .next (rebalance s launch)

/-- SLEW_GOVERNOR (R357). -/
def execSlewGovernor (iest : Nat) (rise : Bool) (s : State) : Outcome State Fault Refusal := .next (slew s iest rise)

/-- THERMAL_LIMIT (R416). -/
def execThermalLimit (die temp : Nat) (s : State) : Outcome State Fault Refusal := .next (heatLimit s die temp)

/-- THERMAL_TRIP (R416). -/
def execThermalTrip (die temp : Nat) (s : State) : Outcome State Fault Refusal := .next (heatTrip s die temp)

/-- THERMAL_RECOVER (R416). -/
def execThermalRecover (die temp : Nat) (s : State) : Outcome State Fault Refusal := .next (heatRecover s die temp)

/-- TICK_RELEASE (R78). -/
def execTickRelease (s : State) : Outcome State Fault Refusal := .next (tick s)

/-- TICK_DET_WRITE (R77). -/
def execTickDetWrite (v : W32) (s : State) : Outcome State Fault Refusal := .next (written s true (writeDet s v))

/-- FLIT_RECEIVE (R409). -/
def execFlitReceive (port : Nat) (f : Flit) (s : State) : Outcome State Fault Refusal := .next (receiveFlit s port f)

/-- REPLAY_REQUEST (R409). -/
def execReplayRequest (port fseq : Nat) (s : State) : Outcome State Fault Refusal := .next (replay s port fseq)

/-- PORT_REATTEST (R412). -/
def execPortReattest (port : Nat) (s : State) : Outcome State Fault Refusal := .next (reattestPort s port)

/-- MEMORY_ERROR (R397). -/
def execMemoryError (pa : Nat) (launch : Option Nat) (s : State) : Outcome State Fault Refusal := .next (memError s pa launch)

/-- FAULT_RECORD_WRITE (R394). -/
def execFaultRecordWrite (s : State) : Outcome State Fault Refusal := .next (writeFault s)

/-- FRESUME_RESUME (R391). -/
def execFresumeResume (seq : Nat) (s : State) : Outcome State Fault Refusal := .next (written s true (resume s seq 0))

/-- FRESUME_SKIP (R391). -/
def execFresumeSkip (seq : Nat) (s : State) : Outcome State Fault Refusal := .next (written s true (resume s seq 1))

/-- FRESUME_CANCEL (R391). -/
def execFresumeCancel (seq : Nat) (s : State) : Outcome State Fault Refusal := .next (written s true (resume s seq 2))

/-- FRESUME_REDIRECT (R391). -/
def execFresumeRedirect (seq : Nat) (s : State) : Outcome State Fault Refusal := .next (written s true (resume s seq 3))

/-- EMULATION_COMPLETE (R392). -/
def execEmulationComplete (k : Nat) (s : State) : Outcome State Fault Refusal := .next (finishEmulation s k)

/-- MPROG_WRITE (R305). -/
def execMprogWrite (die off : Nat) (v : W64) (s : State) : Outcome State Fault Refusal := .next (written s (die < 4 && off % 8 == 0) (writeMprog s die off 8 v))

/-- TABLE_WRITE (R34). -/
def execTableWrite (_die off n : Nat) (v : W64) (s : State) : Outcome State Fault Refusal := .next (written s (isTable off) (applyTable s off n v))

/-- SPURIOUS_WAKE (R265). -/
def execSpuriousWake (k : Nat) (s : State) : Outcome State Fault Refusal := .next (wakeMonitor s k 5)

/-- PORT_ATTESTATION (R412). -/
def execPortAttestation (port : Nat) (s : State) : Outcome State Fault Refusal := .next (attestPort s port)

/-- COPY_PRE_EMPTION (R146). -/
def execCopyPreEmption (id : Nat) (s : State) : Outcome State Fault Refusal := .next (copyPreempt s id)

/-- INTERNAL_PARITY_ERROR (R388). -/
def execInternalParityError (launch : Nat) (s : State) : Outcome State Fault Refusal := .next (parityError s launch)

end Sys2Proof.Machine
end

