-- ==== Sys2Proof/Machine/MatrixOps.lean ====
section
/-! DEFINITION. Matrix slots (R299 to R304, R308, R314) and the micro-operations (R306 to R313). -/
namespace Sys2Proof.Machine
open Host (Outcome)

/-- The engine of the issuing core that a slot names. -/
def Env.engineNo (e : Env) (n : BitVec 1) : Nat := e.core * 2 + n.toNat

/-- A side of MFMT is FP16 (R99, R299). -/
def fp16Side (mfmt : W64) : Bool := fld mfmt 0 4 == 5 || fld mfmt 4 4 == 5

/-- The mask word of a sparse call (R299, R308); none for a dense one. -/
def callMask (e : Env) (sparse : Bool) : Except Stop (Option (BitVec 256)) :=
  if !sparse then .ok none
  else do
    need (fld e.c.mpc 60 4 == 0 && fld e.c.mpc 0 5 == 0) (matrixTrap 4)
    let v ← readRecord e.s e.k e.c.mpc 32
    need (!maskBad v) (matrixTrap 3)
    .ok (some (BitVec.ofNat 256 v))

/-- The effect of the read of a mask word (R26). -/
def maskLoaded (e : Env) (mask : Option (BitVec 256)) : List Effect := if mask.isSome then [.loaded e.c.mpc 32] else []

/-- The tile is on the engine side when the command of this slot is accepted (R137): no earlier slot of the bundle takes it
(R108, R192). -/
def Env.staged (e : Env) (tile : Nat) : Bool :=
  e.s.engineTiles.contains tile && !((e.s.bundle.map (·.effs)).getD []).any (·.2 == .take tile)

/-- The checks of `mat.call` in the order of R299, with what it asks for: firmware does the calls of an FP16 pair (R99). -/
def matCall (e : Env) (o : MC) : Except Stop (List Effect) := do
  let me := e.engineNo o.e
  let x := e.s.engine me
  let routine := o.r.toNat
  let (_, parw) ← match callDecl e.s me routine with
    | .ok r => .ok r
    | .error cause => .error (matrixTrap cause)
  let mask ← callMask e (o.x == 1)
  need ((maskBits parw 8).all fun n => tileOk e.s e.core e.c.p n 128) (matrixTrap 9)
  need ((tilesOf (declLines e.core e.c.p parw)).all e.staged) (stopTrap 0x06 2)
  let fx : List Effect :=
    if queueUsed e.s me < 8 && x.writes.isEmpty then maskLoaded e mask ++ [.matCall me routine o.p.toNat mask]
    else [.blocked (.block (.engineQueue me))]
  .ok fx

/-- `mat.call` (R299). -/
def execMatCall (o : MC) (s : State) : Outcome State Fault Refusal :=
  .next (issue (.matCall o) o.s s fun e => do
    if fp16Side (e.s.engine (e.engineNo o.e)).mfmt && e.c.wait != some (.block .emulation) then .ok [.blocked (.block .emulation)]
    else matCall e o)

/-- `mat.drain` (R302). -/
def execMatDrain (o : En) (s : State) : Outcome State Fault Refusal :=
  .next (issue (.matDrain o) o.s s fun e =>
    let me := e.engineNo o.e
    .ok (if engineIdle e.s me then [.matDrained me] else [.blocked (.block (.engineIdle me))]))

/-- `mat.setp` (R303). -/
def execMatSetp (o : PnS) (s : State) : Outcome State Fault Refusal :=
  .next (issue (.matSetp o) o.s s fun e => do
    let a ← readS e.c o.a o.f
    .ok [.param o.n.toNat a])

/-- `mat.getp` (R303). -/
def execMatGetp (o : PnG) (s : State) : Outcome State Fault Refusal :=
  .next (issue (.matGetp o) o.s s fun e => do
    let d ← destS o.d
    .ok [.late d false (asVec (vget e.c.p o.n.toNat 0))])

/-- A format of MFMT (R301). -/
def matrixFmt (f : Nat) : Bool := f ≤ 5 || f == 7

/-- `mat.cfg` (R301). -/
def execMatCfg (o : EnA) (s : State) : Outcome State Fault Refusal :=
  .next (issue (.matCfg o) o.s s fun e => do
    let a ← readS e.c o.a o.f
    let me := e.engineNo o.e
    need (fld a 8 56 == 0 && matrixFmt (fld a 0 4) && matrixFmt (fld a 4 4)) illegalModifier
    need (e.s.engine me).drained (matrixTrap 1)
    .ok [.matCfg me a])

/-- The conditions of `mat.pert` on PERT and σ (R304, R312). -/
def pertOk (a : W64) (sigma : W32) : Bool :=
  fld a 0 2 != 3 && fld a 2 1 == 0 && fld a 4 16 == 0 && !(fp32 sigma).isNan && !(fp32 sigma).isInf

/-- `mat.pert` (R304). -/
def execMatPert (o : EnA2) (s : State) : Outcome State Fault Refusal :=
  .next (issue (.matPert o) o.s s fun e => do
    let a ← readS e.c o.a o.f
    let b ← readS e.c o.b o.g
    let me := e.engineNo o.e
    need (pertOk a (low32 b)) illegalModifier
    need (e.s.engine me).drained (matrixTrap 1)
    .ok [.matPert me a (low32 b)])

/-- An accepted call starts (R300). -/
def execMatCallStart (e : Nat) (s : State) : Outcome State Fault Refusal := .next (callStart s e)

/-- `mu.decl` (R307): only as the first word. -/
def execMuDecl (e : Nat) (m : Micro) (s : State) : Outcome State Fault Refusal :=
  .next (microStep s e m fun c => if c.word == 1 then .ok (s, c) else .error (.fault 8))

/-- `mu.end` (R300). -/
def execMuEnd (e : Nat) (m : Micro) (s : State) : Outcome State Fault Refusal := .next (microEnd s e m)

/-- `mu.ldb` (R309, R310). -/
def execMuLdb (e : Nat) (m : Micro) (s : State) : Outcome State Fault Refusal := .next (microEngine s e m doLdb)

/-- `mu.lda` (R309). -/
def execMuLda (e : Nat) (m : Micro) (s : State) : Outcome State Fault Refusal := .next (microEngine s e m doLda)

/-- `mu.mac` (R311). -/
def execMuMac (e : Nat) (m : Micro) (s : State) : Outcome State Fault Refusal := .next (microEngine s e m doMac)

/-- `mu.zacc` (R307). -/
def execMuZacc (e : Nat) (m : Micro) (s : State) : Outcome State Fault Refusal := .next (microEngine s e m doZacc)

/-- `mu.ldacc` (R307). -/
def execMuLdacc (e : Nat) (m : Micro) (s : State) : Outcome State Fault Refusal := .next (microEngine s e m doLdacc)

/-- `mu.stacc` (R313). -/
def execMuStacc (e : Nat) (m : Micro) (s : State) : Outcome State Fault Refusal :=
  .next (microStep s e m fun c => match doStacc s e c m with
    | .ok s => .ok (s, c)
    | .error x => .error x)

/-- `mu.accadd` (R307). -/
def execMuAccadd (e : Nat) (m : Micro) (s : State) : Outcome State Fault Refusal := .next (microEngine s e m doAccadd)

/-- `mu.padd` (R307). -/
def execMuPadd (e : Nat) (m : Micro) (s : State) : Outcome State Fault Refusal :=
  .next (microStep s e m fun c =>
    let p := c.p m.pa.toNat
    .ok (s, { c with params := vset c.params m.pa.toNat (setFld p 0 22 (fld p 0 22 + m.imm.toNat % 2 ^ 22)) }))

/-- `mu.lbadd` (R307). -/
def execMuLbadd (e : Nat) (m : Micro) (s : State) : Outcome State Fault Refusal :=
  .next (microStep s e m fun c =>
    let p := c.p m.pb.toNat
    .ok (s, { c with params := vset c.params m.pb.toNat (setFld p 0 40 (fld p 0 40 + (m.imm.signExtend 40).toNat)) }))

/-- A loop counter of a call (R307). -/
def MatCall.counter (c : MatCall) (x : BitVec 1) : Nat := if x == 1 then c.n1 else c.n0

/-- Set a loop counter of a call (R307). -/
def MatCall.setCounter (c : MatCall) (x : BitVec 1) (v : Nat) : MatCall := if x == 1 then { c with n1 := v } else { c with n0 := v }

/-- `mu.cset` (R307). -/
def execMuCset (e : Nat) (m : Micro) (s : State) : Outcome State Fault Refusal :=
  .next (microStep s e m fun c => if m.imm == 0 then .error (.fault 0xD) else .ok (s, c.setCounter m.x m.imm.toNat))

/-- `mu.cloop` (R307). -/
def execMuCloop (e : Nat) (m : Micro) (s : State) : Outcome State Fault Refusal :=
  .next (microStep s e m fun c =>
    let n := c.counter m.x
    let target := m.imm.toNat % 4096
    if n == 0 then .error (.fault 0xD)
    else if n == 1 then .ok (s, c.setCounter m.x 0)
    else if fld (s.mdir e c.routine) 12 13 ≤ target then .error (.fault 8)
    else .ok (s, { c.setCounter m.x (n - 1) with word := target }))

/-- `mu.sig` (R307): a call that is to stop sends no signal (R147). -/
def execMuSig (e : Nat) (m : Micro) (s : State) : Outcome State Fault Refusal :=
  .next (microStep s e m fun c =>
    let n := m.imm.toNat % 64
    if 48 ≤ n then .error (.fault 8) else .ok (if c.stop then s else engineSignal s c.core n, c))

/-- The next micro-word of the running call of an engine (R307): past the routine, or without a meaning, it is UOP. -/
def nextMicro (s : State) (e : Nat) : Option Instr :=
  match s.running e with
  | none => none
  | some c => (routineWord s e c.routine c.word).bind (decodeMicro e)

/-- The running call meets a word that is no micro-operation (R307, R314); before an interrupt point it stops (R316). -/
def microUop (s : State) (e : Nat) : State :=
  match s.running e with
  | none => s
  | some c => if c.stop && atInterrupt s e c then stopHead s e c else engineFault s e c 8

end Sys2Proof.Machine
end

