-- ==== Sys2Proof/Machine/Sync.lean ====
section
/-! DEFINITION. Phaser slots (R267 to R274) and the waits on them. -/
namespace Sys2Proof.Machine
open Host (Outcome)

/-- The core that a place operand names (R268). -/
def slotCore (e : Env) (b : W64) : Nat := if b.getLsbD 8 then fld b 0 8 else e.core

/-- A phaser trap (R274). -/
def phaserTrap (cause : Nat) : Stop := stopTrap 0x09 cause

/-- The phaser slot that an instruction names, with its core, and the issuing context's membership (R268). -/
def slotOf (e : Env) (p : BitVec 6) (b : BitVec 6) (g : BitVec 1) : Except Stop (Nat × Phaser × Option Member × W64) := do
  let v ← readS e.c b g
  let n := slotCore e v
  let ph := e.s.phaser n p.toNat
  .ok (n, ph, ph.member? e.core (e.k % 4), v)

/-- A member has signalled in the open phase, or its signal is on its way (R271). -/
def Member.signalled (m : Member) : Bool := m.sigd || m.pending || m.held

/-- `ph.wait` (R272): blocked until phase LOCAL has completed; an acquire at its scope. The wait of a leaving member is satisfied
by the completion that removes it (R269). -/
def execPhWait (o : Ph) (s : State) : Outcome State Fault Refusal :=
  .next (issueMem (.phWait o) o.s s fun e => do
    let (n, ph, m, _) ← slotOf e o.p o.b o.g
    noTask e
    if e.c.wait == some (.block (.passed n o.p.toNat)) then .ok [.phWait n o.p.toNat, .acquire o.c.toNat]
    else match m with
    | none => .error (phaserTrap 1)
    | some m =>
      need m.waits (phaserTrap 1)
      if phaseDone ph.phase m.local' then .ok [.phWait n o.p.toNat, .acquire o.c.toNat]
      else
        need (!(m.mode == 3 && m.local' == ph.phase && !m.signalled)) (phaserTrap 3)
        .ok [.blocked (.block (.phase n o.p.toNat m.local'))])

/-- `ph.sig` (R271): a release at its scope. -/
def execPhSig (o : Ph) (s : State) : Outcome State Fault Refusal :=
  .next (issue (.phSig o) o.s s fun e => do
    let (n, _, m, _) ← slotOf e o.p o.b o.g
    match m with
    | none => .error (phaserTrap 1)
    | some m =>
      need m.signals (phaserTrap 1)
      need (!m.signalled) (phaserTrap 2)
      .ok [.phSignal n o.p.toNat o.c.toNat])

/-- `ph.reg` (R270). -/
def execPhReg (o : PhR) (s : State) : Outcome State Fault Refusal :=
  .next (issue (.phReg o) o.s s fun e => do
    let (n, ph, m, _) ← slotOf e o.p o.b o.g
    need m.isNone (phaserTrap 5)
    need (ph.members.length < 16) (phaserTrap 4)
    .ok [.phReg n o.p.toNat o.m.toNat])

/-- `ph.drop` (R270). -/
def execPhDrop (o : Ph) (s : State) : Outcome State Fault Refusal :=
  .next (issue (.phDrop o) o.s s fun e => do
    let (n, _, m, _) ← slotOf e o.p o.b o.g
    need m.isSome (phaserTrap 1)
    .ok [.phDrop n o.p.toNat o.c.toNat])

/-- `ph.expect` (R273). -/
def execPhExpect (o : PhE) (s : State) : Outcome State Fault Refusal :=
  .next (issue (.phExpect o) o.s s fun e => do
    let (n, ph, _, v) ← slotOf e o.p o.b o.g
    need (ph.expect (fld v 16 16)).isSome (phaserTrap 6)
    .ok [.phExpect n o.p.toNat (fld v 16 16)])

end Sys2Proof.Machine
end

