-- ==== Sys2Proof/Machine/System.lean ====
section
/-! DEFINITION. Levels (R340), maintenance (R341 to R343), traps raised and returned from (R344), and the control and status
registers (R197, R345). -/
namespace Sys2Proof.Machine
open Host (Outcome)

/-- SYSARG (R318). -/
def sysArg : Stop := engineTrap 0xC

/-- Instances of a level (R340). -/
def levelSize (level : Nat) : Nat :=
  match level with
  | 0 => 1024
  | 1 => 1024
  | 2 => 256
  | 3 => 16
  | 4 => 4
  | _ => 0

/-- A privileged slot from other code raises PRIV (R29, R341 to R344). -/
def needPriv (e : Env) : Except Stop Unit := need (who e.s e.k).priv privTrap

/-- The level and instance that A names, which the unit may name (R340). -/
def instanceOf (e : Env) (a : W64) : Except Stop (Nat × Nat) := do
  let level := fld a 0 3
  let inst := fld a 16 16
  need (inst < levelSize level) sysArg
  need ((who e.s e.k).priv || (match jobOfInstance e.s level inst with
    | some j => j == e.c.unit.job
    | none => true)) privTrap
  .ok (level, inst)

/-- `lvl.cancel` (R340). -/
def execLvlCancel (o : C2) (s : State) : Outcome State Fault Refusal :=
  .next (issue (.lvlCancel o) o.s s fun e => do
    let d ← destS o.d
    let a ← readS e.c o.a o.f
    let (level, inst) ← instanceOf e a
    .ok [.late d false (asVec (BitVec.ofNat 64 (cancelInstance e.s level inst).1)), .cancel level inst])

/-- The level-table entry of an instance (R166). -/
def levelEntry (level inst : Nat) : Nat :=
  match level with
  | 1 => inst
  | 2 => graphEntry inst
  | 3 => phaseEntry inst
  | _ => jobEntry inst

/-- What `lvl.stat` reads (R340): STATE in 63:61, DONE in 31:0. -/
def levelStat (s : State) (level inst : Nat) : W64 :=
  if level == 0 then (if (s.ctx inst).status == .free then 0 else 2 <<< 61)
  else BitVec.ofNat 64 (s.levelState (levelEntry level inst) <<< 61 ||| s.levelDone (levelEntry level inst))

/-- `lvl.stat` (R340). -/
def execLvlStat (o : C2) (s : State) : Outcome State Fault Refusal :=
  .next (issue (.lvlStat o) o.s s fun e => do
    let d ← destS o.d
    let a ← readS e.c o.a o.f
    let (level, inst) ← instanceOf e a
    .ok [.late d false (asVec (levelStat e.s level inst))])

/-- `sys.flush` of the KIND that A holds (R341); a SPLIT conversion blocks until it is done (R62). DEDUCED, log 82. -/
def flush (o : A1) (e : Env) : Except Stop (List Effect) := do
  let a ← readS e.c o.a o.f
  let n := fld a 0 4
  if fld a 4 2 == 0 then do
    needPriv e
    need (n ≤ 12) sysArg
    .ok (if e.s.split e.core == n then [] else [.blocked (.block (.maintenance (some n)))])
  else .ok [.flush (fld a 4 2) 0]

/-- `sys.flush` KIND 0 (R341). -/
def execSysFlushSplit (o : A1) (s : State) : Outcome State Fault Refusal := .next (issue (.sysFlushSplit o) o.s s (flush o))

/-- `sys.flush` KIND 1 (R341). -/
def execSysFlushL2 (o : A1) (s : State) : Outcome State Fault Refusal := .next (issue (.sysFlushL2 o) o.s s (flush o))

/-- `sys.flush` KIND 2 (R341). -/
def execSysFlushL2Clean (o : A1) (s : State) : Outcome State Fault Refusal := .next (issue (.sysFlushL2Clean o) o.s s (flush o))

/-- `sys.flush` KIND 3 (R341). -/
def execSysFlushL1 (o : A1) (s : State) : Outcome State Fault Refusal := .next (issue (.sysFlushL1 o) o.s s (flush o))

/-- `sys.shinv` (R342): blocked until the table writes are in force (R35). -/
def execSysShinv (o : N) (s : State) : Outcome State Fault Refusal :=
  .next (issue (.sysShinv o) o.s s fun e => do
    needPriv e
    .ok (if tablesSettled e.s then [.shinv] else [.blocked (.block (.maintenance none))]))

/-- `sys.tinv` (R343, R72): blocked until the device acknowledges. -/
def execSysTinv (o : A2) (s : State) : Outcome State Fault Refusal :=
  .next (issue (.sysTinv o) o.s s fun e => do
    let a ← readS e.c o.a o.f
    let b ← readS e.c o.b o.g
    needPriv e
    let asid := fld a 0 16
    let pages := fld a 32 32
    let first := fld b 16 32 * 65536
    .ok (if tinvQuiet e.s asid first pages then [.tinv asid first pages] else [.blocked (.block (.maintenance none))]))

/-- `trap.raise` (R344). -/
def execTrapRaise (o : A1) (s : State) : Outcome State Fault Refusal :=
  .next (issue (.trapRaise o) o.s s fun e => do
    let a ← readS e.c o.a o.f
    .ok [.trapRaise a])

/-- `trap.ret` (R344). -/
def execTrapRet (o : N) (s : State) : Outcome State Fault Refusal :=
  .next (issue (.trapRet o) o.s s fun e => do
    needPriv e
    need (e.c.status == .handler) sysArg
    .ok [.trapRet])

/-- `sys.csrr` (R345): an immediate result. -/
def execSysCsrr (o : CsR) (s : State) : Outcome State Fault Refusal :=
  .next (issue (.sysCsrr o) o.s s fun e => do
    let d ← destS o.d
    match csrRead e.s e.k o.i.toNat with
    | some v => .ok [.imm d v]
    | none => .error illegalCsr)

/-- `sys.csrw` (R345). -/
def execSysCsrw (o : CsW) (s : State) : Outcome State Fault Refusal :=
  .next (issue (.sysCsrw o) o.s s fun e => do
    let v ← readS e.c o.a o.f
    csrCheck e.s e.k o.i.toNat v
    .ok [.csr o.i.toNat v])

end Sys2Proof.Machine
end

