-- ==== Sys2Proof/Machine/View.lean ====
section
/-! DEFINITION. Views (R50, R51, R254 to R257) and tensor accesses through them (R44, R45, R258, R259). -/
namespace Sys2Proof.Machine
open Host (Outcome)

/-- The directory entries that the opens and retires of a bundle give up, each with the scope of its retire (R50). -/
def retiresAsked (s : State) (k : Nat) (effs : List Effect) : List (Nat × Nat) :=
  effs.foldl (fun owns e => match e with
    | .viewOpen w _ scope _ _ | .viewRetire w scope => match dirEntryOf s k w with
      | some i => if owns.any (·.1 == i) then owns else owns ++ [(i, scope)]
      | none => owns
    | _ => owns) []

/-- The view registers that a bundle opens for writing. -/
def opensAsked (effs : List Effect) : List Nat :=
  (effs.filterMap fun e => match e with
    | .viewOpen w _ _ true _ => some w
    | _ => none).eraseDups

/-- The directory has room for the writable views that the bundle opens up to this slot (R48, R51): the free entries, and those
that the bundle's own retires give up, once every write through their views has performed (R50). DEDUCED, log 68. -/
def dirRoom (e : Env) (w scope : Nat) : Except Stop Unit :=
  let effs := ((e.s.bundle.map (·.effs.map (·.2))).getD []) ++ [.viewOpen w 0 scope true false]
  let stop : Wait := .directory (opensAsked effs).length (retiresAsked e.s e.k effs)
  if waitOver e.s e.k stop then .ok () else .error (.wait stop)

/-- `view.open` (R254). -/
def execViewOpen (o : Vo) (s : State) : Outcome State Fault Refusal :=
  .next (issueMem (.viewOpen o) o.s s fun e => do
    let a ← readS e.c o.a o.f
    let tid := fld a 0 12
    let d := e.s.descriptor tid
    need (descValid tid d) (.trap (viewTrap 1 none))
    if o.r == 1 then dirRoom e o.w.toNat o.c.toNat
    .ok [.viewOpen o.w.toNat d o.c.toNat (o.r == 1) (o.q == 1)])

/-- `view.retire` (R255). -/
def execViewRetire (o : Vr) (s : State) : Outcome State Fault Refusal :=
  .next (issueMem (.viewRetire o) o.s s fun _ => .ok [.viewRetire o.w.toNat o.c.toNat])

/-- The bits of a view register that a template supplies: VEXT, M, ORIGIN, EDGE and VDIMS (R43, R256). -/
def templateMask : BitVec 512 := BitVec.allOnes 512 <<< 64 ||| 0x270000

/-- Some access through a view still has to perform (R256). -/
def viewBusy (c : Ctx) (w : Nat) : Bool := (accessesOf c.pend).any fun x => x.2.view == some w

/-- `view.set` (R256). -/
def execViewSet (o : Vs) (s : State) : Outcome State Fault Refusal :=
  .next (issueMem (.viewSet o) o.s s fun e => do
    let a ← readS e.c o.a o.f
    let w := o.w.toNat
    let fx : List Effect ← if o.t == 0 then do
        let t ← readRecord e.s e.k a 64
        let v := BitVec.ofNat 512 t
        need (1 ≤ vDims v && vDims v ≤ 4) (.trap (viewTrap 2 none))
        .ok [.loaded a 64, .viewWrite w templateMask v]
      else
        let lo := 64 + 32 * (o.t.toNat - 1)
        .ok [.viewWrite w ((0xFFFFFFFF : BitVec 512) <<< lo) (((a.extractLsb' 0 32).setWidth 512 : BitVec 512) <<< lo)]
    need (!(vOpen (vget e.c.w w 0) && viewBusy e.c w)) (.wait (.view w))
    .ok fx)

/-- `view.get` (R257). -/
def execViewGet (o : Vg) (s : State) : Outcome State Fault Refusal :=
  .next (issueMem (.viewGet o) o.s s fun e => do
    let d ← destS o.d
    .ok [.late d false (asVec (word (vget e.c.w o.w.toNat 0) o.k.toNat))])

/-- The scalar size code of an element of `b` bits (R259). -/
def elementSize (b : Nat) : BitVec 3 := if b ≤ 8 then 0 else if b == 16 then 1 else if b == 32 then 2 else 3

/-- The view checks of an access in the order of R44, with the size check of R259. -/
def checkView (v : BitVec 512) (d : BitVec 1024) (z : BitVec 3) (isVec writes : Bool) (a : W64) : Except Stop Unit := do
  need (1 ≤ vDims v && vDims v ≤ 4) (.trap (viewTrap 2 (some a)))
  need (vOpen v) (.trap (viewTrap 3 (some a)))
  need (isVec || z == elementSize (elemBits (dFmt d))) illegalModifier
  need (!writes || vWr v) (.trap (viewTrap 4 (some a)))

/-- The checks of one element at a resolved pointer, both lines of one that straddles (R38, R249, R259). -/
def elementPiece (e : Env) (base p : W64) (bit b lo : Nat) (writes : Bool) : Except Stop Piece := do
  let place ← checkAccess e base p (max 1 (b / 8)) false writes
  let bytes := (bit + b + 7) / 8
  if bytes == 2 && b < 8 && fld p 0 7 == 127 then
    match checkAccess e base (p + 1) 1 false writes with
    | .ok _ => .ok ⟨place, bytes, bit, b, lo⟩
    | .error (.trap t) => .error (.trap { t with addr := some p })
    | .error w => .error w
  else .ok ⟨place, bytes, bit, b, lo⟩

/-- The pieces of the elements `k`, `k + 1`, … of an access through a view (R44, R45, R259): `n` of them. -/
def elementPieces (e : Env) (v : BitVec 512) (d : BitVec 1024) (a : W64) (writes : Bool) (k : Nat) : Nat → Except Stop (List Piece)
  | 0 => .ok []
  | n + 1 =>
    let b := elemBits (dFmt d)
    let i := [fld a 0 16 + k, fld a 16 16, fld a 32 16, fld a 48 16]
    match resolveElem e.s v d (vEdge v) i with
    | .fault t => .error (.trap { t with addr := some (t.addr.getD a) })
    | .outside => do
      let rest ← elementPieces e v d a writes (k + 1) n
      .ok (if writes then rest else ⟨.outside, 0, 0, b, k * b⟩ :: rest)
    | .ptr base p bit => do
      let x ← elementPiece e base p bit b (k * b) writes
      let rest ← elementPieces e v d a writes (k + 1) n
      .ok (x :: rest)

/-- Elements of an access through a view (R259). -/
def elementCount (b bytes : Nat) (isVec : Bool) : Nat := if isVec then 8 * bytes / b else 1

/-- A tensor access: its pieces, the view with its descriptor, and the index (R258, R259). -/
def tensorPieces (e : Env) (o : Ten) (writes : Bool) : Except Stop (List Piece × Bool × BitVec 512 × BitVec 1024 × W64) := do
  let (bytes, isVec) ← needSize o.z
  let a ← readS e.c o.a 0
  let v := vget e.c.w o.w.toNat 0
  let d := vget e.c.shadow o.w.toNat 0
  checkView v d o.z isVec writes a
  let ps ← elementPieces e v d a writes 0 (elementCount (elemBits (dFmt d)) bytes isVec)
  .ok (ps, isVec, v, d, a)

/-- `ten.ld` (R258, R259). -/
def execTenLd (o : Ten) (s : State) : Outcome State Fault Refusal :=
  .next (issueMem (.tenLd o) o.s s fun e => do
    let ord ← needOrd o.o true
    let (ps, isVec, v, d, a) ← tensorPieces e o false
    let dst ← destOf o.d isVec
    .ok [.access { e.access .load ord 0 ps with view := some o.w.toNat, foot := some (v, d), index := a } (some (dst, isVec))])

/-- `ten.st` (R258, R259). -/
def execTenSt (o : Ten) (s : State) : Outcome State Fault Refusal :=
  .next (issueMem (.tenSt o) o.s s fun e => do
    let ord ← needOrd o.o false
    let (_, isVec) ← needSize o.z
    let data ← dataOf e.c o.d isVec
    let (ps, _, v, d, a) ← tensorPieces e o true
    .ok [.access { e.access .store ord data ps with view := some o.w.toNat, foot := some (v, d), index := a } none])

end Sys2Proof.Machine
end

