-- ==== Sys2Proof/Machine/Dispatch.lean ====
section
/-! DEFINITION. The dispatch of every row of the table to its meaning. -/
namespace Sys2Proof.Machine
open Host

/-- What an instruction or an event does. -/
def exec (i : Instr) (s : State) : Host.Outcome State Fault Refusal :=
  match i with
  | .aluAdd o => Sys2Proof.Machine.execAluAdd o s
  | .aluSub o => Sys2Proof.Machine.execAluSub o s
  | .aluMul o => Sys2Proof.Machine.execAluMul o s
  | .aluMulhs o => Sys2Proof.Machine.execAluMulhs o s
  | .aluMulhu o => Sys2Proof.Machine.execAluMulhu o s
  | .aluDiv o => Sys2Proof.Machine.execAluDiv o s
  | .aluDivu o => Sys2Proof.Machine.execAluDivu o s
  | .aluRem o => Sys2Proof.Machine.execAluRem o s
  | .aluRemu o => Sys2Proof.Machine.execAluRemu o s
  | .aluMin o => Sys2Proof.Machine.execAluMin o s
  | .aluMax o => Sys2Proof.Machine.execAluMax o s
  | .aluMinu o => Sys2Proof.Machine.execAluMinu o s
  | .aluMaxu o => Sys2Proof.Machine.execAluMaxu o s
  | .aluAnd o => Sys2Proof.Machine.execAluAnd o s
  | .aluOr o => Sys2Proof.Machine.execAluOr o s
  | .aluXor o => Sys2Proof.Machine.execAluXor o s
  | .aluAndn o => Sys2Proof.Machine.execAluAndn o s
  | .aluShl o => Sys2Proof.Machine.execAluShl o s
  | .aluShr o => Sys2Proof.Machine.execAluShr o s
  | .aluSar o => Sys2Proof.Machine.execAluSar o s
  | .aluRotl o => Sys2Proof.Machine.execAluRotl o s
  | .aluRotr o => Sys2Proof.Machine.execAluRotr o s
  | .aluClz o => Sys2Proof.Machine.execAluClz o s
  | .aluCtz o => Sys2Proof.Machine.execAluCtz o s
  | .aluPopc o => Sys2Proof.Machine.execAluPopc o s
  | .aluBswap o => Sys2Proof.Machine.execAluBswap o s
  | .aluMov o => Sys2Proof.Machine.execAluMov o s
  | .bitExt o => Sys2Proof.Machine.execBitExt o s
  | .bitExtu o => Sys2Proof.Machine.execBitExtu o s
  | .bitIns o => Sys2Proof.Machine.execBitIns o s
  | .bitSet o => Sys2Proof.Machine.execBitSet o s
  | .bitClr o => Sys2Proof.Machine.execBitClr o s
  | .bitTst o => Sys2Proof.Machine.execBitTst o s
  | .cmpEq o => Sys2Proof.Machine.execCmpEq o s
  | .cmpNe o => Sys2Proof.Machine.execCmpNe o s
  | .cmpLt o => Sys2Proof.Machine.execCmpLt o s
  | .cmpLtu o => Sys2Proof.Machine.execCmpLtu o s
  | .cmpLe o => Sys2Proof.Machine.execCmpLe o s
  | .cmpLeu o => Sys2Proof.Machine.execCmpLeu o s
  | .sel o => Sys2Proof.Machine.execSel o s
  | .prSet o => Sys2Proof.Machine.execPrSet o s
  | .prGet o => Sys2Proof.Machine.execPrGet o s
  | .prAnd o => Sys2Proof.Machine.execPrAnd o s
  | .prOr o => Sys2Proof.Machine.execPrOr o s
  | .prNot o => Sys2Proof.Machine.execPrNot o s
  | .addrTag o => Sys2Proof.Machine.execAddrTag o s
  | .addrOff o => Sys2Proof.Machine.execAddrOff o s
  | .addrSpl o => Sys2Proof.Machine.execAddrSpl o s
  | .addrSpd o => Sys2Proof.Machine.execAddrSpd o s
  | .addrPdv o => Sys2Proof.Machine.execAddrPdv o s
  | .addrPeer o => Sys2Proof.Machine.execAddrPeer o s
  | .immLo o => Sys2Proof.Machine.execImmLo o s
  | .immHi o => Sys2Proof.Machine.execImmHi o s
  | .aluAddi o => Sys2Proof.Machine.execAluAddi o s
  | .aluAndi o => Sys2Proof.Machine.execAluAndi o s
  | .addrTagi o => Sys2Proof.Machine.execAddrTagi o s
  | .fpAdd o => Sys2Proof.Machine.execFpAdd o s
  | .fpSub o => Sys2Proof.Machine.execFpSub o s
  | .fpMul o => Sys2Proof.Machine.execFpMul o s
  | .fpDiv o => Sys2Proof.Machine.execFpDiv o s
  | .fpSqrt o => Sys2Proof.Machine.execFpSqrt o s
  | .fpFma o => Sys2Proof.Machine.execFpFma o s
  | .fpMin o => Sys2Proof.Machine.execFpMin o s
  | .fpMax o => Sys2Proof.Machine.execFpMax o s
  | .fpAbs o => Sys2Proof.Machine.execFpAbs o s
  | .fpNeg o => Sys2Proof.Machine.execFpNeg o s
  | .fpEq o => Sys2Proof.Machine.execFpEq o s
  | .fpLt o => Sys2Proof.Machine.execFpLt o s
  | .fpLe o => Sys2Proof.Machine.execFpLe o s
  | .fpUn o => Sys2Proof.Machine.execFpUn o s
  | .ctlNop o => Sys2Proof.Machine.execCtlNop o s
  | .ctlEnd o => Sys2Proof.Machine.execCtlEnd o s
  | .ctlJr o => Sys2Proof.Machine.execCtlJr o s
  | .ctlCallr o => Sys2Proof.Machine.execCtlCallr o s
  | .ctlRet o => Sys2Proof.Machine.execCtlRet o s
  | .ctlLoop o => Sys2Proof.Machine.execCtlLoop o s
  | .ctlSetmpc o => Sys2Proof.Machine.execCtlSetmpc o s
  | .ctlKadd o => Sys2Proof.Machine.execCtlKadd o s
  | .ctlBr o => Sys2Proof.Machine.execCtlBr o s
  | .ctlCall o => Sys2Proof.Machine.execCtlCall o s
  | .ctlWait o => Sys2Proof.Machine.execCtlWait o s
  | .memLd o => Sys2Proof.Machine.execMemLd o s
  | .memSt o => Sys2Proof.Machine.execMemSt o s
  | .memLdxb o => Sys2Proof.Machine.execMemLdxb o s
  | .memLdxh o => Sys2Proof.Machine.execMemLdxh o s
  | .memLdxw o => Sys2Proof.Machine.execMemLdxw o s
  | .memLdxd o => Sys2Proof.Machine.execMemLdxd o s
  | .memLdxv o => Sys2Proof.Machine.execMemLdxv o s
  | .memStxb o => Sys2Proof.Machine.execMemStxb o s
  | .memStxh o => Sys2Proof.Machine.execMemStxh o s
  | .memStxw o => Sys2Proof.Machine.execMemStxw o s
  | .memStxd o => Sys2Proof.Machine.execMemStxd o s
  | .memStxv o => Sys2Proof.Machine.execMemStxv o s
  | .memDrain o => Sys2Proof.Machine.execMemDrain o s
  | .memPf o => Sys2Proof.Machine.execMemPf o s
  | .viewOpen o => Sys2Proof.Machine.execViewOpen o s
  | .viewRetire o => Sys2Proof.Machine.execViewRetire o s
  | .viewSet o => Sys2Proof.Machine.execViewSet o s
  | .viewGet o => Sys2Proof.Machine.execViewGet o s
  | .tenLd o => Sys2Proof.Machine.execTenLd o s
  | .tenSt o => Sys2Proof.Machine.execTenSt o s
  | .atomAdd o => Sys2Proof.Machine.execAtomAdd o s
  | .atomAnd o => Sys2Proof.Machine.execAtomAnd o s
  | .atomOr o => Sys2Proof.Machine.execAtomOr o s
  | .atomXor o => Sys2Proof.Machine.execAtomXor o s
  | .atomSmin o => Sys2Proof.Machine.execAtomSmin o s
  | .atomSmax o => Sys2Proof.Machine.execAtomSmax o s
  | .atomUmin o => Sys2Proof.Machine.execAtomUmin o s
  | .atomUmax o => Sys2Proof.Machine.execAtomUmax o s
  | .atomSwap o => Sys2Proof.Machine.execAtomSwap o s
  | .atomFadd o => Sys2Proof.Machine.execAtomFadd o s
  | .atomFmin o => Sys2Proof.Machine.execAtomFmin o s
  | .atomFmax o => Sys2Proof.Machine.execAtomFmax o s
  | .atomCas o => Sys2Proof.Machine.execAtomCas o s
  | .monWait o => Sys2Proof.Machine.execMonWait o s
  | .phWait o => Sys2Proof.Machine.execPhWait o s
  | .phSig o => Sys2Proof.Machine.execPhSig o s
  | .phReg o => Sys2Proof.Machine.execPhReg o s
  | .phDrop o => Sys2Proof.Machine.execPhDrop o s
  | .phExpect o => Sys2Proof.Machine.execPhExpect o s
  | .vecAdd o => Sys2Proof.Machine.execVecAdd o s
  | .vecSub o => Sys2Proof.Machine.execVecSub o s
  | .vecMul o => Sys2Proof.Machine.execVecMul o s
  | .vecFma o => Sys2Proof.Machine.execVecFma o s
  | .vecMin o => Sys2Proof.Machine.execVecMin o s
  | .vecMax o => Sys2Proof.Machine.execVecMax o s
  | .vecAbs o => Sys2Proof.Machine.execVecAbs o s
  | .vecNeg o => Sys2Proof.Machine.execVecNeg o s
  | .vecDiv o => Sys2Proof.Machine.execVecDiv o s
  | .vecSqrt o => Sys2Proof.Machine.execVecSqrt o s
  | .vecIadd o => Sys2Proof.Machine.execVecIadd o s
  | .vecIsub o => Sys2Proof.Machine.execVecIsub o s
  | .vecImul o => Sys2Proof.Machine.execVecImul o s
  | .vecAnd o => Sys2Proof.Machine.execVecAnd o s
  | .vecOr o => Sys2Proof.Machine.execVecOr o s
  | .vecXor o => Sys2Proof.Machine.execVecXor o s
  | .vecShl o => Sys2Proof.Machine.execVecShl o s
  | .vecShr o => Sys2Proof.Machine.execVecShr o s
  | .vecSar o => Sys2Proof.Machine.execVecSar o s
  | .vecImin o => Sys2Proof.Machine.execVecImin o s
  | .vecImax o => Sys2Proof.Machine.execVecImax o s
  | .vecEq o => Sys2Proof.Machine.execVecEq o s
  | .vecNe o => Sys2Proof.Machine.execVecNe o s
  | .vecLt o => Sys2Proof.Machine.execVecLt o s
  | .vecLe o => Sys2Proof.Machine.execVecLe o s
  | .vecIeq o => Sys2Proof.Machine.execVecIeq o s
  | .vecIlt o => Sys2Proof.Machine.execVecIlt o s
  | .vecSigm o => Sys2Proof.Machine.execVecSigm o s
  | .vecExp2 o => Sys2Proof.Machine.execVecExp2 o s
  | .vecRcp o => Sys2Proof.Machine.execVecRcp o s
  | .vecRsq o => Sys2Proof.Machine.execVecRsq o s
  | .vecLog2 o => Sys2Proof.Machine.execVecLog2 o s
  | .vecTanh o => Sys2Proof.Machine.execVecTanh o s
  | .vecRsum o => Sys2Proof.Machine.execVecRsum o s
  | .vecRmax o => Sys2Proof.Machine.execVecRmax o s
  | .vecRmin o => Sys2Proof.Machine.execVecRmin o s
  | .vecDotg o => Sys2Proof.Machine.execVecDotg o s
  | .vecMov o => Sys2Proof.Machine.execVecMov o s
  | .vecBcast o => Sys2Proof.Machine.execVecBcast o s
  | .vecPerm o => Sys2Proof.Machine.execVecPerm o s
  | .vecSel o => Sys2Proof.Machine.execVecSel o s
  | .vecLane o => Sys2Proof.Machine.execVecLane o s
  | .vecIns o => Sys2Proof.Machine.execVecIns o s
  | .accRd o => Sys2Proof.Machine.execAccRd o s
  | .accRdk o => Sys2Proof.Machine.execAccRdk o s
  | .cvtNar o => Sys2Proof.Machine.execCvtNar o s
  | .cvtWid o => Sys2Proof.Machine.execCvtWid o s
  | .cvtF2i o => Sys2Proof.Machine.execCvtF2i o s
  | .cvtI2f o => Sys2Proof.Machine.execCvtI2f o s
  | .cvtE8 o => Sys2Proof.Machine.execCvtE8 o s
  | .cvtSf2i o => Sys2Proof.Machine.execCvtSf2i o s
  | .cvtSi2f o => Sys2Proof.Machine.execCvtSi2f o s
  | .cvtSf2b o => Sys2Proof.Machine.execCvtSf2b o s
  | .matCall o => Sys2Proof.Machine.execMatCall o s
  | .matDrain o => Sys2Proof.Machine.execMatDrain o s
  | .matSetp o => Sys2Proof.Machine.execMatSetp o s
  | .matGetp o => Sys2Proof.Machine.execMatGetp o s
  | .matCfg o => Sys2Proof.Machine.execMatCfg o s
  | .matPert o => Sys2Proof.Machine.execMatPert o s
  | .cpStage o => Sys2Proof.Machine.execCpStage o s
  | .cpBatch o => Sys2Proof.Machine.execCpBatch o s
  | .cpRread o => Sys2Proof.Machine.execCpRread o s
  | .ownGive o => Sys2Proof.Machine.execOwnGive o s
  | .ownTake o => Sys2Proof.Machine.execOwnTake o s
  | .nmCas o => Sys2Proof.Machine.execNmCas o s
  | .nmEnq o => Sys2Proof.Machine.execNmEnq o s
  | .nmDeq o => Sys2Proof.Machine.execNmDeq o s
  | .nmChase o => Sys2Proof.Machine.execNmChase o s
  | .collRun o => Sys2Proof.Machine.execCollRun o s
  | .collAbort o => Sys2Proof.Machine.execCollAbort o s
  | .collStat o => Sys2Proof.Machine.execCollStat o s
  | .logAppend o => Sys2Proof.Machine.execLogAppend o s
  | .logReplay o => Sys2Proof.Machine.execLogReplay o s
  | .logResume o => Sys2Proof.Machine.execLogResume o s
  | .wlPush o => Sys2Proof.Machine.execWlPush o s
  | .wlPop o => Sys2Proof.Machine.execWlPop o s
  | .wlDone o => Sys2Proof.Machine.execWlDone o s
  | .sysFlushSplit o => Sys2Proof.Machine.execSysFlushSplit o s
  | .sysFlushL2 o => Sys2Proof.Machine.execSysFlushL2 o s
  | .sysFlushL2Clean o => Sys2Proof.Machine.execSysFlushL2Clean o s
  | .sysFlushL1 o => Sys2Proof.Machine.execSysFlushL1 o s
  | .sysShinv o => Sys2Proof.Machine.execSysShinv o s
  | .sysTinv o => Sys2Proof.Machine.execSysTinv o s
  | .lvlCancel o => Sys2Proof.Machine.execLvlCancel o s
  | .lvlStat o => Sys2Proof.Machine.execLvlStat o s
  | .trapRaise o => Sys2Proof.Machine.execTrapRaise o s
  | .trapRet o => Sys2Proof.Machine.execTrapRet o s
  | .sysCsrr o => Sys2Proof.Machine.execSysCsrr o s
  | .sysCsrw o => Sys2Proof.Machine.execSysCsrw o s
  | .muDecl e m => Sys2Proof.Machine.execMuDecl e m s
  | .muEnd e m => Sys2Proof.Machine.execMuEnd e m s
  | .muLdb e m => Sys2Proof.Machine.execMuLdb e m s
  | .muLda e m => Sys2Proof.Machine.execMuLda e m s
  | .muMac e m => Sys2Proof.Machine.execMuMac e m s
  | .muZacc e m => Sys2Proof.Machine.execMuZacc e m s
  | .muLdacc e m => Sys2Proof.Machine.execMuLdacc e m s
  | .muStacc e m => Sys2Proof.Machine.execMuStacc e m s
  | .muAccadd e m => Sys2Proof.Machine.execMuAccadd e m s
  | .muPadd e m => Sys2Proof.Machine.execMuPadd e m s
  | .muLbadd e m => Sys2Proof.Machine.execMuLbadd e m s
  | .muCset e m => Sys2Proof.Machine.execMuCset e m s
  | .muCloop e m => Sys2Proof.Machine.execMuCloop e m s
  | .muSig e m => Sys2Proof.Machine.execMuSig e m s
  | .collSend run w => Sys2Proof.Machine.execCollSend run w s
  | .collRecv run w => Sys2Proof.Machine.execCollRecv run w s
  | .collRrs run w => Sys2Proof.Machine.execCollRrs run w s
  | .collCopy run w => Sys2Proof.Machine.execCollCopy run w s
  | .collWait run w => Sys2Proof.Machine.execCollWait run w s
  | .collLoop run w => Sys2Proof.Machine.execCollLoop run w s
  | .collEnd run => Sys2Proof.Machine.execCollEnd run s
  | .unassignedEncoding cause w => Sys2Proof.Machine.execUnassignedEncoding cause w s
  | .contextWake k => Sys2Proof.Machine.execContextWake k s
  | .resultArrive k id => Sys2Proof.Machine.execResultArrive k id s
  | .accessPerform k id => Sys2Proof.Machine.execAccessPerform k id s
  | .walkComplete j => Sys2Proof.Machine.execWalkComplete j s
  | .peerAccessArrive r => Sys2Proof.Machine.execPeerAccessArrive r s
  | .hostMemWrite a data => Sys2Proof.Machine.execHostMemWrite a data s
  | .collAbortFlit group seq => Sys2Proof.Machine.execCollAbortFlit group seq s
  | .logEntryArrive entry => Sys2Proof.Machine.execLogEntryArrive entry s
  | .logReleasedArrive entry => Sys2Proof.Machine.execLogReleasedArrive entry s
  | .wlShipmentArrive job bucket task src => Sys2Proof.Machine.execWlShipmentArrive job bucket task src s
  | .ptpSync offset => Sys2Proof.Machine.execPtpSync offset s
  | .powerUp r => Sys2Proof.Machine.execPowerUp r s
  | .wlShipmentAck job => Sys2Proof.Machine.execWlShipmentAck job s
  | .registerWrite die off n v => Sys2Proof.Machine.execRegisterWrite die off n v s
  | .monTimeout k => Sys2Proof.Machine.execMonTimeout k s
  | .splitConversion core new => Sys2Proof.Machine.execSplitConversion core new s
  | .matCallStart e => Sys2Proof.Machine.execMatCallStart e s
  | .lqSubmit die q ptr => Sys2Proof.Machine.execLqSubmit die q ptr s
  | .unitPlace k => Sys2Proof.Machine.execUnitPlace k s
  | .unitStart k => Sys2Proof.Machine.execUnitStart k s
  | .overlayLoad k => Sys2Proof.Machine.execOverlayLoad k s
  | .unitRetireComplete k => Sys2Proof.Machine.execUnitRetireComplete k s
  | .unitStopFree k => Sys2Proof.Machine.execUnitStopFree k s
  | .levelEntryFree j => Sys2Proof.Machine.execLevelEntryFree j s
  | .jobEnd slot => Sys2Proof.Machine.execJobEnd slot s
  | .mailboxHandlerStart die n => Sys2Proof.Machine.execMailboxHandlerStart die n s
  | .mailboxOvfClear die n => Sys2Proof.Machine.execMailboxOvfClear die n s
  | .liveViewEntryFree core j => Sys2Proof.Machine.execLiveViewEntryFree core j s
  | .targetErrorResponse k id => Sys2Proof.Machine.execTargetErrorResponse k id s
  | .hostMemRead a n => Sys2Proof.Machine.execHostMemRead a n s
  | .copyBacklogDrain octant => Sys2Proof.Machine.execCopyBacklogDrain octant s
  | .copyEntryStart id => Sys2Proof.Machine.execCopyEntryStart id s
  | .copyChunk id ev => Sys2Proof.Machine.execCopyChunk id ev s
  | .copyEntryComplete id => Sys2Proof.Machine.execCopyEntryComplete id s
  | .copyRecordWrite id => Sys2Proof.Machine.execCopyRecordWrite id s
  | .batchAtomicComplete id => Sys2Proof.Machine.execBatchAtomicComplete id s
  | .rreadComplete id => Sys2Proof.Machine.execRreadComplete id s
  | .mepreSave e => Sys2Proof.Machine.execMepreSave e s
  | .mepreRestore e => Sys2Proof.Machine.execMepreRestore e s
  | .contextSave k => Sys2Proof.Machine.execContextSave k s
  | .contextSaveComplete k => Sys2Proof.Machine.execContextSaveComplete k s
  | .contextRestore k => Sys2Proof.Machine.execContextRestore k s
  | .collGroupDefine g v => Sys2Proof.Machine.execCollGroupDefine g v s
  | .collCheckTick => Sys2Proof.Machine.execCollCheckTick s
  | .collOrder group seq => Sys2Proof.Machine.execCollOrder group seq s
  | .staggerRelease j => Sys2Proof.Machine.execStaggerRelease j s
  | .logEnable v => Sys2Proof.Machine.execLogEnable v s
  | .logDisable => Sys2Proof.Machine.execLogDisable s
  | .logTickSend => Sys2Proof.Machine.execLogTickSend s
  | .logVoidTimeout => Sys2Proof.Machine.execLogVoidTimeout s
  | .mordantRound => Sys2Proof.Machine.execMordantRound s
  | .logGap => Sys2Proof.Machine.execLogGap s
  | .wlSample => Sys2Proof.Machine.execWlSample s
  | .wlTreeTick job => Sys2Proof.Machine.execWlTreeTick job s
  | .wlBalanceTick job => Sys2Proof.Machine.execWlBalanceTick job s
  | .pipeRebalance launch => Sys2Proof.Machine.execPipeRebalance launch s
  | .slewGovernor iest rise => Sys2Proof.Machine.execSlewGovernor iest rise s
  | .thermalLimit die temp => Sys2Proof.Machine.execThermalLimit die temp s
  | .thermalTrip die temp => Sys2Proof.Machine.execThermalTrip die temp s
  | .thermalRecover die temp => Sys2Proof.Machine.execThermalRecover die temp s
  | .tickRelease => Sys2Proof.Machine.execTickRelease s
  | .tickDetWrite v => Sys2Proof.Machine.execTickDetWrite v s
  | .flitReceive port f => Sys2Proof.Machine.execFlitReceive port f s
  | .replayRequest port fseq => Sys2Proof.Machine.execReplayRequest port fseq s
  | .portReattest port => Sys2Proof.Machine.execPortReattest port s
  | .memoryError pa launch => Sys2Proof.Machine.execMemoryError pa launch s
  | .faultRecordWrite => Sys2Proof.Machine.execFaultRecordWrite s
  | .fresumeResume seq => Sys2Proof.Machine.execFresumeResume seq s
  | .fresumeSkip seq => Sys2Proof.Machine.execFresumeSkip seq s
  | .fresumeCancel seq => Sys2Proof.Machine.execFresumeCancel seq s
  | .fresumeRedirect seq => Sys2Proof.Machine.execFresumeRedirect seq s
  | .emulationComplete k => Sys2Proof.Machine.execEmulationComplete k s
  | .mprogWrite die off v => Sys2Proof.Machine.execMprogWrite die off v s
  | .tableWrite die off n v => Sys2Proof.Machine.execTableWrite die off n v s
  | .spuriousWake k => Sys2Proof.Machine.execSpuriousWake k s
  | .portAttestation port => Sys2Proof.Machine.execPortAttestation port s
  | .copyPreEmption id => Sys2Proof.Machine.execCopyPreEmption id s
  | .internalParityError launch => Sys2Proof.Machine.execInternalParityError launch s

end Sys2Proof.Machine
end

