-- ==== Sys2Proof/Machine/Fetch.lean ====
section
/-! DEFINITION. Fetching: the checks of a bundle that come before its slots issue (R184, R190, R191, R193), and the next slot
of a bundle, the next micro-word of an engine (R307) and the next step of a collective run (R332). -/
namespace Sys2Proof.Machine

/-- What comes next: an instruction runs, or the state changes without one. -/
inductive Pick where
  | run (i : Instr) (s : State)
  | done (s : State)

/-- The words of the bundle at an address, or the subcause of BUNDLE_FORM: OUTSIDE before NOSTOP (R190, R193). -/
def bundleWords (s : State) (k : Nat) (a : W64) : Nat → Except Nat (List W32)
  | 0 => .error 2
  | n + 1 =>
    match codeWord s k a with
    | none => .error 4
    | some w =>
      if w.getLsbD 31 then .ok [w]
      else match bundleWords s k (a + 4) n with
        | .ok ws => .ok (w :: ws)
        | .error c => .error c

/-- The words of the bundle at a context's pc, or the subcause of BUNDLE_FORM (R190, R193). -/
def fetchBundle (s : State) (k : Nat) : Except Nat (List W32) :=
  let pc := (s.ctx k).pc
  if pc.toNat % 4 != 0 then .error 5
  else match bundleWords s k pc 8 with
    | .error c => .error c
    | .ok ws => if ws.length < 4 then .error 1 else .ok ws

/-- Why a slot fails before anything issues (R193 step 2). -/
inductive SlotFault where
  /-- its word is no instruction -/
  | word (x : Illegal) (w : W32)
  /-- OPERAND before any operand is read: it writes a register that an earlier slot writes (R184), or it is a ctl.loop whose block
  is too short (R242) -/
  | operand
  /-- its own operand or modifier check, which its issue repeats -/
  | own (i : Instr)

/-- A slot is a ctl.loop whose block is too short (R242). -/
def shortBlock (s : State) (k : Nat) (pc : W64) (i : Instr) : Bool :=
  match i with
  | .ctlLoop o => loopShort s k pc o
  | _ => false

/-- The first slot that fails a check of R193 step 2, or the instructions. DEDUCED, log 76. -/
def checkSlots (s : State) (k : Nat) (pc : W64) : Nat → List Nat → List W32 → Except (Nat × SlotFault) (List Instr)
  | _, _, [] => .ok []
  | j, seen, w :: rest =>
    match decodeSlot w with
    | .error x => .error (j, .word x w)
    | .ok i =>
      let mine := writesOf i
      if mine.any seen.contains || shortBlock s k pc i then .error (j, .operand)
      else if (formFault i).isSome then .error (j, .own i)
      else match checkSlots s k pc (j + 1) (seen ++ mine) rest with
        | .ok is => .ok (i :: is)
        | .error e => .error e

/-- A slot that is to issue as slot `j` with nothing before it. -/
def atSlot (s : State) (k j : Nat) : State := if j == 0 then s else { s with bundle := some ⟨k, j, [], false, false⟩ }

/-- The slot of a bundle that an earlier drain of the unit holds back: the first of the memory or wait class (R252). -/
def drainHolds (c : Ctx) (is : List Instr) : Option Nat :=
  if drainPending c then is.findIdx? fun i => classOf i == .memory || classOf i == .wait else none

/-- A context begins the bundle at its pc: the first slot issues, or the bundle traps (R193 steps 1 to 3) or waits for a drain
(R252). -/
def pickBundle (s : State) (k : Nat) : Pick :=
  match fetchBundle s k with
  | .error c => .done (bundleForm s k c)
  | .ok ws =>
    match checkSlots s k (s.ctx k).pc 0 [] ws with
    | .error (j, .word x w) => .run (.unassignedEncoding x w) (atSlot s k j)
    | .error (j, .operand) => .done (takeTrap s k j ⟨0x02, 4, none⟩)
    | .error (j, .own i) => .run i (atSlot s k j)
    | .ok is =>
      if !classesOk (is.map classOf) then .done (bundleForm s k 3)
      else match drainHolds (s.ctx k) is, is with
        | some j, _ => .done (hold s k j (.block .drain))
        | none, i :: _ => .run i s
        | none, [] => .done s

/-- The next slot of the bundle in progress. -/
def pickSlot (s : State) (p : Progress) : Pick :=
  match codeWord s p.ctx ((s.ctx p.ctx).pc + BitVec.ofNat 64 (4 * p.slot)) with
  | none => .done (bundleForm s p.ctx 4)
  | some w => match decodeSlot w with
    | .ok i => .run i s
    | .error x => .run (.unassignedEncoding x w) s

/-- Heat has not stopped the core's die (R416), and the core has an issuing context that does not wait, or whose wait is
over. -/
def canIssue (s : State) (core : Nat) : Bool :=
  !heatStops s (core / 64) && match (s.core core).cur with
    | none => false
    | some x => match (s.ctx (core * 4 + x)).wait with
      | none => true
      | some w => waitOver s (core * 4 + x) w

/-- A core's turn (R349). -/
def pickIssue (s : State) (core : Nat) : Pick :=
  let s := { s with focus := core }
  if heatStops s (core / 64) then .done s
  else match (s.core core).cur with
    | none => .done s
    | some x => pickBundle s (core * 4 + x)

/-- An engine's turn (R307). -/
def pickMicro (s : State) (e : Nat) : Pick :=
  match nextMicro s e with
  | some i => .run i s
  | none => .done (microUop s e)

/-- A collective run's turn (R331 to R333): a word that is no step, or none at all, ends the run with STATUS 4; it waits for
the releases of the gives that named its tiles (R134). DEDUCED, log 83. -/
def pickColl (s : State) (run : Nat) : Pick :=
  match s.run? run with
  | none => .done s
  | some r =>
    if r.status.isSome then .run (.collEnd run) s
    else if cdf r.desc 4 16 16 ≤ r.step then .done (s.putRun (r.ended 4))
    else if runHeld s r then .done s
    else match collWord s r r.step with
      | (.val v, s) => match decodeStep run (BitVec.ofNat 64 v) with
        | some i => .run i s
        | none => .done (s.putRun (r.ended 4))
      | (.trap _, s) => .done (s.putRun (r.ended 4))
      | (.dead f, s) => .done (commandError s r.launch r.core r.ctx f)
      | (.wait, s) => .done s

end Sys2Proof.Machine
end

