-- ==== Sys2Proof/Machine/Turns.lean ====
section
/-! DEFINITION. Whose move comes next (log 1): the bundle in progress, then the agenda, then what the device does of
itself. Every order that the agenda can name is an order the device may take; where it names none, internal events come
before the issue of bundles. -/
namespace Sys2Proof.Machine

/-- An event that changes nothing is not enabled. -/
def changed (s t : State) : Option State := if t = s then none else some t

/-- A pending entry that can go on: an access that another device is to answer cannot. -/
def goesOn (s : State) (k : Nat) (ps : List Pend) (p : Pend) : Bool :=
  mayPerform s k (pendBefore ps p.id) p && match p.kind with
    | .access a => !a.sent
    | _ => true

/-- What a context has still to do after commit: results arrive (R181), its list performs (R104), its wait or monitor ends
(R150, R265), firmware finishes its bundle (R392), it leaves (R167, R174), or it is saved (R400). -/
def autoCtx (s : State) (k : Nat) (c : Ctx) : Option State :=
  match c.results with
  | r :: _ => some (arrive s k r.id)
  | [] =>
    match c.pend.find? (goesOn s k c.pend) with
    | some p => changed s (perform s k p.id)
    | none =>
      match c.status with
      | .running | .handler => match (if preState s k == 1 then changed s (stopForSave s k) else none) with
        | some t => some t
        | none => match c.wait with
          | some (.block b) => if b.kept then changed s (chooseCtx s (k / 4))
            else if c.executes && blockOver s k b then changed s (wake s k) else changed s (monitorTimeout s k)
          | _ => none
      | .emulating => some (finishEmulation s k)
      | .retiring => changed s (retireUnit s k)
      | .stopping => changed s (leaveUnit s k)
      | .saving => (changed s (finishSave s k)).orElse fun _ => if preState s k == 3 then changed s (restoreContext s k) else none
      | .reserved => (changed s (loadOverlay s k)).orElse fun _ => changed s (startUnit s k)
      | .free => none

/-- A core's directory gives up a retired view (R50), or its SPLIT is converted (R62). -/
def autoCore (s : State) (core : Nat) (c : Core) : Option State :=
  match c.dir.find? fun (i, e) => e.retired.isSome && freeView s core i != s with
  | some (i, _) => some (freeView s core i)
  | none => none

/-- The column of a placed unit is converted (R61, R62). -/
def autoSplit (s : State) (core : Nat) : Option State :=
  match splitRequest s core with
  | some n => changed s (convertSplit s core n)
  | none => none

/-- A copy entry goes on (R146, R323). -/
def autoCopy (s : State) (c : CopyCmd) : Option State :=
  match c.state with
  | .queued => changed s (copyStart s c.id)
  | .backlog => changed s (backlogDrain s (c.core / 8))
  | .running => changed s (copyStep s c.id .clean)
  | .preempted => changed s (copyStep s c.id .clean)
  | .suspended _ => none
  | _ => changed s (if c.step == 0 then copyComplete s c.id else copyRecordWait s c.id)

/-- A micro-operation would only wait. -/
def microWaits (s : State) (e : Nat) (i : Instr) : Bool :=
  match s.running e with
  | none => false
  | some c =>
    let c := { c with word := c.word + 1 }
    match i with
    | .muLdb _ m => waits (doLdb s e c m)
    | .muLda _ m => waits (doLda s e c m)
    | .muLdacc _ m => waits (doLdacc s e c m)
    | .muStacc _ m => waits (doStacc s e c m)
    | _ => false
where
  /-- the answer is that it must wait -/
  waits {α : Type} : Except MicroStop α → Bool
    | .error .wait => true
    | _ => false

/-- An engine goes on: calls are saved or restored (R402), the head starts (R300), or its next micro-word runs. -/
def autoEngine (s : State) (e : Nat) : Option Pick :=
  match (changed s (saveCalls s e)).orElse fun _ => changed s (restoreCalls s e) with
  | some t => some (.done t)
  | none => match s.running e with
    | none => (changed s (callStart s e)).map .done
    | some _ => match nextMicro s e with
      | some i => if microWaits s e i then none else some (.run i s)
      | none => some (.done (microUop s e))

/-- A collective step would only wait. -/
def collWaits (s : State) (r : CollRun) (i : Instr) : Bool :=
  r.started && (clashes s r).isEmpty && match i with
    | .collSend _ w => (doSend s w r).isNone && namesPeer s w r == r
    | .collRecv _ w => (doRecv s w r).isNone && namesPeer s w r == r
    | .collRrs _ w => (doRrs s w r).isNone && namesBoth s w r == r
    | .collCopy _ w => (doCopy s w r).isNone
    | .collWait _ w => (doWait s w r).isNone
    | .collLoop _ w => (doLoop s w r).isNone
    | _ => endRun s r.id == s

/-- A collective run goes on. -/
def autoColl (s : State) (r : CollRun) : Option Pick :=
  match pickColl s r.id with
  | .run i t => if collWaits t r i then (changed s t).map .done else some (.run i t)
  | .done t => (changed s t).map .done

/-- The events of the device as a whole: bring-up (R414), page walks (R68), fault records (R394), table writes (R35), a
locked port (R409), mailboxes (R171), the log (R378, R381), staggered signals (R358). -/
def autoDevice (s : State) : Option State :=
  if !s.devReady then some (bringUp s (Config.selfTest 0))
  else if s.ticked < tickNow s then some (tick s)
  else if !s.walks.isEmpty then some (endWalk s 0)
  else match changed s (writeFault s) with
    | some t => some t
    | none => match s.tableWrites with
      | (off, n, v) :: _ => some (applyTable s off n v)
      | [] => match lostPort s with
        | some p => changed s (linkLost s p)
        | none => match (s.mailboxes.findSome? fun (key, _) => changed s (startHandler s (key / 64) (key % 64))) with
          | some t => some t
          | none => match ((changed s (retryShipments s)).orElse fun _ => (List.range s.staggers.length).findSome? fun i => changed s (staggerSend s i)) with
            | some t => some t
            | none => if !logEn s && logState s == 0 then none
              else (changed s (voidTimeout s)).orElse fun _ => (changed s (gapStep s)).orElse fun _ => changed s (mordantStep s)

/-- The scheduler and the cores: views leave their directory (R50), a SPLIT is converted (R62), a record whose stage table has
come is validated (R156), pipelines have their cores assigned and rebalanced (R351, R352), units are placed (R346). -/
def autoCores (s : State) : Option State :=
  match (s.cores.findSome? fun (n, c) => autoCore s n c) with
  | some t => some t
  | none => match ((s.ctxs.map (·.1 / 4)).eraseDups.findSome? (autoSplit s)) with
    | some t => some t
    | none => match (s.validating.findSome? fun l => changed s (validate s l)) with
      | some t => some t
      | none => match (changed s (assignPipes s)).orElse fun _ => s.launches.findSome? fun l => changed s (rebalance s l.id) with
        | some t => some t
        | none => ((List.range 4).findSome? (placeChoice s)).map (place s)

/-- The commands of the engines (R146, R324, R325). -/
def autoCommands (s : State) : Option State :=
  match s.copies.findSome? (autoCopy s) with
  | some t => some t
  | none => match (s.batches.findSome? fun b => changed s (batchStep s b.id)) with
    | some t => some t
    | none => s.rreads.findSome? fun r => changed s (rreadStep s r.id)

/-- What the device does of itself next, if anything. -/
def auto (s : State) : Option Pick :=
  match autoDevice s with
  | some t => some (.done t)
  | none => if sampleDue s then some (.done (takeSample s)) else match (s.ctxs.findSome? fun (k, c) => autoCtx s k c) with
    | some t => some (.done t)
    | none => match autoCores s with
      | some t => some (.done t)
      | none => match autoCommands s with
        | some t => some (.done t)
        | none => match (s.engines.findSome? fun (e, _) => autoEngine s e) with
          | some p => some p
          | none => s.runs.findSome? (autoColl s)

/-- The core that issues where nothing else happens: the first from `focus` on that can. -/
def nextCore (s : State) : Option Nat :=
  match s.cores.find? fun (n, _) => s.focus ≤ n && canIssue s n with
  | some (n, _) => some n
  | none => (s.cores.find? fun (n, _) => canIssue s n).map (·.1)

/-- The agenda is empty: an internal event, the issue of a bundle, or the passing of one clk. -/
def pickIdle (s : State) : Pick :=
  match auto s with
  | some p => p
  | none => match nextCore s with
    | some n => pickIssue s n
    | none => .done (passClk s 1)

/-- A turn that the agenda names. -/
def pickTurn (s : State) (t : Turn) : Pick :=
  match t with
  | .issue core => pickIssue s core
  | .micro e => pickMicro s e
  | .coll run => pickColl s run
  | .event i => .run i s
  | .wait n => .done (passClk s n)
  | .llcEvict line => .done (llcEvict s line)
  | .badLine line bad => .done { s with badLines := if bad then sinsert s.badLines line else serase s.badLines line }
  | .hostError addr bad => .done { s with hostBad := if bad then sinsert s.hostBad addr else serase s.hostBad addr }
  | .refuse id => .done (deliverAnswer s id false 0)
  | .noRoutine k => .done (noRoutine s k)

/-- Whose move comes next. -/
def pick (s : State) : Pick :=
  match s.bundle with
  | some p => pickSlot s p
  | none => match s.agenda with
    | t :: rest => pickTurn { s with agenda := rest } t
    | [] => pickIdle s

end Sys2Proof.Machine
end

