-- ==== Sys2Proof/Machine/Load.lean ====
section
/-! DEFINITION. A state in which a chosen instruction is fetched next (log 9): the loads that bring-up, a launch and its
overlay make on the device, stood in for. -/
namespace Sys2Proof.Machine

/-- DEV_READY is set and FAIL is clear (R414). -/
def ready (s : State) : State := s.setMmio 0 0 (setFld (devStatus s) 0 2 1)

/-- A bundle of core 0 whose slots up to `slot` have issued nothing: its word at `slot` is `w`, every other slot is
`ctl.nop`, and its last has S = 1. -/
def bundleWith (w : W32) (slot : Nat) : List W32 :=
  List.replicate slot 0x20000000 ++ w :: if slot == 3 then [] else [0x20000000, 0x20000000, 0xA0000000]

/-- Slot `w` issues next, for a unit in context 0: as the first slot, or as the fourth where it ends its bundle. -/
def placeSlot (s : State) (w : W32) : State :=
  let slot := if w.getLsbD 31 then 3 else 0
  let c := s.core 0
  let s := s.setCore 0 { c with cur := some 0, last := 0, ovlTag := 0, ovlCode := 0, ovlWords := bundleWith w slot, ovlLaunch := none }
  let s := s.setCtx 0 { s.ctx 0 with status := .running, unit := .reset, pc := 0, handling := false, wait := none }
  { ready s with bundle := some ⟨0, slot, [], false, false⟩, focus := 0, launches := s.launches.filter (·.id != 0) }

/-- A call of routine 0 that has passed its DECL. -/
def bareCall : MatCall :=
  ⟨0, 0, 0, 0, Vector.replicate 8 0, 0, 0, 0, none, 0, 63, 0, true, 1, 0, 0, 0, 0, [], [], false⟩

/-- Micro-word `w` is the next of a call that runs on engine 0. -/
def placeMicro (s : State) (w : W64) : State :=
  let s := s.setEngine 0 { s.engine 0 with queue := bareCall :: (s.engine 0).queue }
  let s := (s.setMmio 0 0x1800000 (BitVec.ofNat 64 (2 ^ 25 + 2 <<< 12))).setMmio 0 0x1000008 w
  { ready s with bundle := none, agenda := .micro 0 :: s.agenda }

end Sys2Proof.Machine
end

