-- ==== Sys2Proof/Machine/Step.lean ====
section
/-! DEFINITION. One step of the machine: one slot of a bundle, one micro-word, one collective step, or one event. -/
namespace Sys2Proof.Machine
open Host (Outcome)

/-- What is picked takes place. -/
def runPick (p : Pick) : Outcome State Fault Refusal :=
  match p with
  | .run i s => exec i s
  | .done s => .next s

/-- One step. A device whose bring-up failed has stopped (R414). -/
def step (s : State) : Outcome State Fault Refusal :=
  if (devStatus s).getLsbD 1 then .fault .bringUpFailed else runPick (pick s)

/-- The state with the instruction of bits `w` as the next that `step` fetches. -/
def State.withFetchWord (s : State) (nbits w : Nat) : State :=
  if nbits ≤ 32 then placeSlot s (BitVec.ofNat 32 w) else placeMicro s (BitVec.ofNat 64 w)

end Sys2Proof.Machine
end

