-- ==== Sys2Proof/Safety.lean ====
section
/-! DEFINITION. What the claims speak of: memory as a program sees it, the end of a bundle, the parts of a state that an
operation leaves alone, and the invariant that every step keeps. -/
namespace Sys2Proof.Machine

/-- Every byte of memory, scratchpads included, reads as before. -/
def sameMem (s t : State) : Prop := ∀ a, memGet t.mem a = memGet s.mem a

/-- Every byte of host memory reads as before. -/
def sameHost (s t : State) : Prop := ∀ a, memGet t.hostMem a = memGet s.hostMem a

/-- The canonical form of a state: addresses rise in both memories and no listed byte is 0, the keys of the memory-mapped
registers and of the SPLITs rise, and a bundle in progress stands at one of eight slots (R190). -/
def State.canonical (s : State) : Prop :=
  Memory.wf s.mem = true ∧ Memory.wf s.hostMem = true ∧ Tbl.rising s.mmio ∧ Tbl.rising s.splits ∧ ∀ p, s.bundle = some p → p.slot < 8

/-- The bring-up of the device failed and it stopped (R414). -/
def State.failed (s : State) : Bool := (devStatus s).getLsbD 1

/-- What the slots of context `k` see of its registers: the handler's bank in the place of g0 to g31 where handler code runs
(R390). -/
def State.seen (s : State) (k : Nat) : Ctx := (s.ctx k).seen

/-- Context `k` issues slot `n` of a bundle whose earlier slots asked for nothing. -/
def State.issues (s : State) (k n : Nat) : Prop := s.bundle = some ⟨k, n, [], false, false⟩

/-- The slot that context `k` issues as slot `n` has S = 1 and ends a bundle of at least four slots (R190); the earlier
slots asked for nothing. -/
def State.ends (s : State) (k n : Nat) (stop : BitVec 1) : Prop := s.issues k n ∧ stop = 1 ∧ 3 ≤ n

/-- A bundle of context `k` has committed with its registers at `c` (R101): handler code leaves the registers of the unit as
they were (R390), the context waits for nothing, one clk has passed and the next core issues. -/
def State.over (s : State) (k : Nat) (c : Ctx) : State :=
  dropFetches { passClk (s.setCtx k ((s.ctx k).keep { c with wait := none, bundleNo := c.bundleNo + 1 })) 1 with
    bundle := none, focus := (s.focus + 1) % 256 } k

/-- A bundle of `n + 1` slots has committed in context `k` (R101): it changed the registers by `f`, and the context goes on at
the address that the loops leave (R239, R243). -/
def State.endBundle (s : State) (k n : Nat) (f : Ctx → Ctx) : State :=
  let r := closeLoops (f (s.seen k)) (s.ctx k).pc ((s.ctx k).pc + BitVec.ofNat 64 (4 * (n + 1)))
  s.over k { r.1 with pc := r.2 }

/-- A bundle has committed in context `k` and the context goes on at `pc`, past any loop end (R239, R243). -/
def State.endBundleAt (s : State) (k : Nat) (pc : W64) (f : Ctx → Ctx) : State := s.over k { f (s.seen k) with pc := pc }

/-- A result of number `id` is on its way to `d`, which is empty until it arrives (R181, R183). -/
def Ctx.expect (c : Ctx) (d : Dest) (isVec : Bool) (id : Nat) (v : Vec) : Ctx :=
  { c.setDest d isVec 0 (some id) with results := c.results ++ [⟨id, v, 0⟩] }

/-- A bundle whose one effect is a variable-latency result with its flags has committed (R87, R181). -/
def State.endLate (s : State) (k n : Nat) (d : Dest) (isVec : Bool) (v : Vec) (fl : Flags) : State :=
  { s with nextId := s.nextId + 1 }.endBundle k n fun c =>
    { c.expect d isVec s.nextId v with fpflags := c.fpflags ||| fl }

/-- A bundle of `n + 1` slots has committed in context `k` (R101, R192): `before` is what its slots did, then the address
moved on as the loops leave it (R239, R243), then `after` is what its control slot did. -/
def State.commitWith (s : State) (k n : Nat) (before after : State → State) : State :=
  let old := s.ctx k
  let t := before (s.setCtx k old.seen)
  let r := closeLoops (t.ctx k) old.pc (old.pc + BitVec.ofNat 64 (4 * (n + 1)))
  endCommit (after (t.setCtx k { r.1 with pc := r.2, wait := none })) k old 0

/-- A bundle has committed whose one effect is an access with a result for `d` (R102, R181, R250): the result's place is
empty, and the access, which will fill it, is pending. -/
def State.queueFilling (s : State) (k n : Nat) (a : Access) (d : Dest) (isVec : Bool) : State :=
  s.commitWith k n (fun s =>
    queueAccess ({ s with nextId := s.nextId + 1 }.onCtx k (·.setDest d isVec 0 (some s.nextId))) k
      { a with res := some s.nextId, slot := n }) id

/-- A bundle has committed whose one effect is an access without a result (R102, R250): it is pending. -/
def State.queueStore (s : State) (k n : Nat) (a : Access) : State :=
  s.commitWith k n (fun s => queueAccess s k a) id

end Sys2Proof.Machine
end

