-- ==== Sys2Proof/Certificates/Slice0/Obligations.lean ====
section
/-! DEFINITION. The statements for the provers: what each instruction and event does, what the machine keeps, and that decoding
and encoding agree. Each docstring names the rules it rests on. -/

namespace Sys2Proof.Machine

/-- D := f A B at the end of the bundle, and nothing else but the end of the bundle. -/
def ImmTwo (i : C3 → Instr) (f : W64 → W64 → W64) : Prop :=
  ∀ (s : State) (k n : Nat) (o : C3) (d : Dest) (a b : W64), s.ends k n o.s → formFault (i o) = none → destS o.d = .ok d →
    readS (s.seen k) o.a o.f = .ok a → readS (s.seen k) o.b o.g = .ok b →
    exec (i o) s = .next (s.endBundle k n (·.setDest d false (asVec (f a b)) none))

/-- D := f A at the end of the bundle, and nothing else. -/
def ImmOne (i : C2 → Instr) (f : W64 → W64) : Prop :=
  ∀ (s : State) (k n : Nat) (o : C2) (d : Dest) (a : W64), s.ends k n o.s → formFault (i o) = none → destS o.d = .ok d →
    readS (s.seen k) o.a o.f = .ok a →
    exec (i o) s = .next (s.endBundle k n (·.setDest d false (asVec (f a)) none))

/-- D receives f A B as a variable-latency result with its flags, and nothing else. -/
def LateTwo (i : C3 → Instr) (f : W64 → W64 → W64 × Flags) : Prop :=
  ∀ (s : State) (k n : Nat) (o : C3) (d : Dest) (a b : W64), s.ends k n o.s → formFault (i o) = none → destS o.d = .ok d →
    readS (s.seen k) o.a o.f = .ok a → readS (s.seen k) o.b o.g = .ok b →
    exec (i o) s = .next (s.endLate k n d false (asVec (f a b).1) (f a b).2)

/-- D receives f A as a variable-latency result with its flags, and nothing else. -/
def LateOne (i : C2 → Instr) (f : W64 → W64 × Flags) : Prop :=
  ∀ (s : State) (k n : Nat) (o : C2) (d : Dest) (a : W64), s.ends k n o.s → formFault (i o) = none → destS o.d = .ok d →
    readS (s.seen k) o.a o.f = .ok a →
    exec (i o) s = .next (s.endLate k n d false (asVec (f a).1) (f a).2)

/-- The low `n` bits of a word from bit `lo` as a number; bits at 64 and above read 0. -/
def bitsFrom (a : W64) (lo n : Nat) : Nat := a.toNat / 2 ^ lo % 2 ^ n

/-- 1 where a relation holds, else 0. -/
def oneIf (p : Prop) [Decidable p] : W64 := if p then 1 else 0

end Sys2Proof.Machine

open Sys2Proof Sys2Proof.Machine

/-- R224, R225: the arithmetic rows of major 0x00 and 0x01 that give an immediate result, modulo 2^64. -/
def Sys2Proof.Claim.IntegerArithmeticResults : Prop :=
  ImmTwo .aluAdd (fun a b => a + b) ∧ ImmTwo .aluSub (fun a b => a - b) ∧ ImmTwo .aluMul (fun a b => a * b)
  ∧ ImmTwo .aluMulhu (fun a b => (a.setWidth 128 * b.setWidth 128).extractLsb' 64 64)
  ∧ ImmTwo .aluMulhs (fun a b => (a.signExtend 128 * b.signExtend 128).extractLsb' 64 64)
  ∧ ImmTwo .aluMin (fun a b => if a.toInt ≤ b.toInt then a else b) ∧ ImmTwo .aluMax (fun a b => if a.toInt ≤ b.toInt then b else a)
  ∧ ImmTwo .aluMinu (fun a b => if a.toNat ≤ b.toNat then a else b) ∧ ImmTwo .aluMaxu (fun a b => if a.toNat ≤ b.toNat then b else a)

/-- R225: division truncates toward zero; a zero divisor gives all ones and leaves the dividend as the remainder. -/
def Sys2Proof.Claim.IntegerDivisionResults : Prop :=
  LateTwo .aluDiv (fun a b => (if b = 0 then -1 else BitVec.ofInt 64 (Int.tdiv a.toInt b.toInt), 0))
  ∧ LateTwo .aluRem (fun a b => (if b = 0 then a else BitVec.ofInt 64 (Int.tmod a.toInt b.toInt), 0))
  ∧ LateTwo .aluDivu (fun a b => (if b = 0 then -1 else a / b, 0)) ∧ LateTwo .aluRemu (fun a b => (a % b, 0))

/-- R226: the logic, shift, rotate and count rows. -/
def Sys2Proof.Claim.IntegerLogicResults : Prop :=
  ImmTwo .aluAnd (fun a b => a &&& b) ∧ ImmTwo .aluOr (fun a b => a ||| b) ∧ ImmTwo .aluXor (fun a b => a ^^^ b)
  ∧ ImmTwo .aluAndn (fun a b => a &&& ~~~b) ∧ ImmTwo .aluShl (fun a b => a <<< (b.toNat % 64)) ∧ ImmTwo .aluShr (fun a b => a >>> (b.toNat % 64))
  ∧ ImmTwo .aluSar (fun a b => a.sshiftRight (b.toNat % 64)) ∧ ImmTwo .aluRotl (fun a b => a.rotateLeft (b.toNat % 64))
  ∧ ImmTwo .aluRotr (fun a b => a.rotateRight (b.toNat % 64))
  ∧ ImmOne .aluClz (fun a => a.clz) ∧ ImmOne .aluCtz (fun a => a.ctz)
  ∧ ImmOne .aluPopc (fun a => BitVec.ofNat 64 ((List.range 64).countP fun n => a.getLsbD n))
  ∧ ImmOne .aluBswap (fun a => BitVec.ofNat 64 (((List.range 8).map fun n => bitsFrom a (8 * n) 8 * 2 ^ (8 * (7 - n))).sum))
  ∧ ImmOne .aluMov (fun a => a)

/-- R228: bit fields. B bits 5:0 hold the position, bits 13:8 the length minus one. -/
def Sys2Proof.Claim.BitFieldResults : Prop :=
  ImmTwo .bitExtu (fun a b => BitVec.ofNat 64 (bitsFrom a (bitsFrom b 0 6) (bitsFrom b 8 6 + 1)))
  ∧ ImmTwo .bitExt (fun a b =>
      let n := bitsFrom b 8 6 + 1
      let v := bitsFrom a (bitsFrom b 0 6) n
      BitVec.ofInt 64 (if 2 ^ (n - 1) ≤ v then (v : Int) - 2 ^ n else v))
  ∧ ImmTwo .bitSet (fun a b => a ||| 1#64 <<< (b.toNat % 64)) ∧ ImmTwo .bitClr (fun a b => a &&& ~~~(1#64 <<< (b.toNat % 64)))
  ∧ ImmTwo .bitTst (fun a b => if a.getLsbD (b.toNat % 64) then 1 else 0)
  ∧ ∀ (s : State) (k n : Nat) (o : C3) (d : Dest) (a b v : W64), s.ends k n o.s → formFault (.bitIns o) = none →
      destS o.d = .ok d → readS (s.seen k) o.a o.f = .ok a → readS (s.seen k) o.b o.g = .ok b → readS (s.seen k) o.d 0 = .ok v →
      ∃ r : W64, exec (.bitIns o) s = .next (s.endBundle k n (·.setDest d false (asVec r) none)) ∧
        ∀ j < 64, r.getLsbD j =
          if bitsFrom b 0 6 ≤ j ∧ j < bitsFrom b 0 6 + bitsFrom b 8 6 + 1 then a.getLsbD (j - bitsFrom b 0 6) else v.getLsbD j

/-- R229: compares give 1 or 0. -/
def Sys2Proof.Claim.CompareResults : Prop :=
  ImmTwo .cmpEq (fun a b => oneIf (a = b)) ∧ ImmTwo .cmpNe (fun a b => oneIf (a ≠ b)) ∧ ImmTwo .cmpLt (fun a b => oneIf (a.toInt < b.toInt))
  ∧ ImmTwo .cmpLe (fun a b => oneIf (a.toInt ≤ b.toInt)) ∧ ImmTwo .cmpLtu (fun a b => oneIf (a.toNat < b.toNat))
  ∧ ImmTwo .cmpLeu (fun a b => oneIf (a.toNat ≤ b.toNat))

/-- R227, R232 to R235: immediates, pointers, constants and select. -/
def Sys2Proof.Claim.ConstantAndPointerResults : Prop :=
  ImmTwo .addrSpl (fun a b => BitVec.ofNat 64 (2 ^ 60 + bitsFrom a 0 2 * 2 ^ 22 + bitsFrom b 0 22))
  ∧ ImmTwo .addrSpd (fun a b => BitVec.ofNat 64 (2 * 2 ^ 60 + bitsFrom a 8 2 * 2 ^ 56 + bitsFrom a 2 6 * 2 ^ 50 + bitsFrom a 0 2 * 2 ^ 22 + bitsFrom b 0 22))
  ∧ ImmTwo .addrPdv (fun a b => BitVec.ofNat 64 (4 * 2 ^ 60 + bitsFrom a 6 2 * 2 ^ 56 + bitsFrom a 0 6 * 2 ^ 50 + bitsFrom b 0 30))
  ∧ ImmTwo .addrPeer (fun a b => BitVec.ofNat 64 (8 * 2 ^ 60 + bitsFrom a 0 16 * 2 ^ 44 + bitsFrom b 0 44))
  ∧ ImmOne .addrTag (fun a => BitVec.ofNat 64 (a.toNat / 2 ^ 60)) ∧ ImmOne .addrOff (fun a => BitVec.ofNat 64 (a.toNat % 2 ^ 60))
  ∧ (∀ (s : State) (k n : Nat) (o : TagI) (d : Dest) (a : W64), s.ends k n o.s → formFault (.addrTagi o) = none → destS o.d = .ok d →
      readS (s.seen k) o.a o.f = .ok a →
      exec (.addrTagi o) s = .next (s.endBundle k n (·.setDest d false (asVec (BitVec.ofNat 64 (o.t.toNat * 2 ^ 60 + a.toNat % 2 ^ 60))) none)))
  ∧ (∀ (s : State) (k n : Nat) (o : FI) (d : Dest) (a : W64), s.ends k n o.s → destS o.d = .ok d →
      readS (s.seen k) o.a o.f = .ok a →
      (formFault (.aluAddi o) = none →
        exec (.aluAddi o) s = .next (s.endBundle k n (·.setDest d false (asVec (a + o.i.signExtend 64)) none)))
      ∧ (formFault (.aluAndi o) = none →
        exec (.aluAndi o) s = .next (s.endBundle k n (·.setDest d false (asVec (a &&& o.i.signExtend 64)) none))))
  ∧ (∀ (s : State) (k n : Nat) (o : L) (d : Dest), s.ends k n o.s → destS o.d = .ok d →
      (formFault (.immLo o) = none →
        exec (.immLo o) s = .next (s.endBundle k n (·.setDest d false (asVec (o.i.signExtend 64)) none)))
      ∧ (∀ v, formFault (.immHi o) = none → readS (s.seen k) o.d 0 = .ok v →
        exec (.immHi o) s = .next (s.endBundle k n
          (·.setDest d false (asVec (BitVec.ofNat 64 (v.toNat * 2 ^ 19 + o.i.toNat))) none))))
  ∧ ∀ (s : State) (k n : Nat) (o : Sel) (d : Dest) (a b : W64), s.ends k n o.s → formFault (.sel o) = none → destS o.d = .ok d →
      readS (s.seen k) o.a o.f = .ok a → readS (s.seen k) o.b o.g = .ok b →
      exec (.sel o) s = .next (s.endBundle k n
        (·.setDest d false (asVec (if (vget (s.seen k).c o.c.toNat 0).getLsbD 0 then a else b)) none))

/-- R230, R231: the predicate rows change one predicate, or read one. -/
def Sys2Proof.Claim.PredicateResults : Prop :=
  (∀ (s : State) (k n : Nat) (o : PrS) (a : W64), s.ends k n o.s → formFault (.prSet o) = none → readS (s.seen k) o.a o.f = .ok a →
    exec (.prSet o) s = .next (s.endBundle k n fun c => { c with c := vset c.c o.c.toNat a }))
  ∧ (∀ (s : State) (k n : Nat) (o : PrG) (d : Dest), s.ends k n o.s → formFault (.prGet o) = none → destS o.d = .ok d →
    exec (.prGet o) s = .next (s.endBundle k n (·.setDest d false (asVec (vget (s.seen k).c o.c.toNat 0)) none)))
  ∧ (∀ (s : State) (k n : Nat) (o : Pr3), s.ends k n o.s →
    exec (.prAnd o) s = .next (s.endBundle k n fun c => { c with c := vset c.c o.c.toNat (vget c.c o.x.toNat 0 &&& vget c.c o.y.toNat 0) })
    ∧ exec (.prOr o) s = .next (s.endBundle k n fun c => { c with c := vset c.c o.c.toNat (vget c.c o.x.toNat 0 ||| vget c.c o.y.toNat 0) }))
  ∧ ∀ (s : State) (k n : Nat) (o : Pr2), s.ends k n o.s →
    exec (.prNot o) s = .next (s.endBundle k n fun c => { c with c := vset c.c o.c.toNat (~~~vget c.c o.x.toNat 0) })

/-- R179 to R183: what writing a result does. g0 takes nothing, a push makes the result the newest queue entry and drops the
oldest, a named register alone changes, and nothing else of the context does. -/
def Sys2Proof.Claim.ResultDestinations : Prop :=
  ∀ (c : Ctx) (isVec : Bool) (v : Vec) (p : Option Nat),
    (c.setDest .drop isVec v p = c ∧ c.setDest (.g 0) isVec v p = c)
    ∧ (∀ j < 32, j ≠ 0 → vget (c.setDest (.g j) isVec v p).g j ⟨0, none⟩ = ⟨v.setWidth 64, p⟩
        ∧ ∀ i, i ≠ j → vget (c.setDest (.g j) isVec v p).g i ⟨0, none⟩ = vget c.g i ⟨0, none⟩)
    ∧ (∀ j < 16, vget (c.setDest (.h j) isVec v p).h j ⟨0, none⟩ = ⟨v, p⟩
        ∧ ∀ i, i ≠ j → vget (c.setDest (.h j) isVec v p).h i ⟨0, none⟩ = vget c.h i ⟨0, none⟩)
    ∧ (vget (c.setDest .push isVec v p).q 0 ⟨false, 0, none⟩ = ⟨isVec, v, p⟩
        ∧ ∀ i < 15, vget (c.setDest .push isVec v p).q (i + 1) ⟨false, 0, none⟩ = vget c.q i ⟨false, 0, none⟩)
    ∧ ∀ d : Dest, { c.setDest d isVec v p with q := c.q, g := c.g, h := c.h } = c

/-- R182, R185, R188: reading a scalar operand. An empty register or entry stalls under F = 0 and raises EMPTY under F = 1; a
vector entry raises ILLEGAL with QTYPE; g0 reads 0. -/
def Sys2Proof.Claim.ScalarOperandReads : Prop :=
  ∀ (c : Ctx) (code : BitVec 6) (f : BitVec 1),
    (code = 16 → readS c code f = .ok 0)
    ∧ (∀ j, code.toNat = 16 + j → 0 < j → j < 32 →
        readS c code f = match (vget c.g j ⟨0, none⟩).pend with
          | none => .ok (vget c.g j ⟨0, none⟩).val
          | some _ => if f = 1 then .error (.trap ⟨0x07, 0, none⟩) else .error (.wait .reg))
    ∧ (∀ j, code.toNat = j → j < 16 →
        readS c code f =
          if (vget c.q j ⟨false, 0, none⟩).isVec then .error (.trap ⟨0x02, 7, none⟩)
          else match (vget c.q j ⟨false, 0, none⟩).pend with
            | none => .ok ((vget c.q j ⟨false, 0, none⟩).val.setWidth 64)
            | some _ => if f = 1 then .error (.trap ⟨0x07, 0, none⟩) else .error (.wait .reg))
    ∧ (48 ≤ code.toNat → readS c code f = .error (.trap ⟨0x02, 4, none⟩))

/-- The FP32 value in bits 31:0 of a scalar. -/
def lowHalf (a : W64) : W32 := a.setWidth 32

/-- A scalar FP32 operation on the low halves, with its flags (R222, R236). -/
def onLow (f : W32 → W32 → W32 × Flags) (a b : W64) : W64 × Flags := ((f (lowHalf a) (lowHalf b)).1.setWidth 64, (f (lowHalf a) (lowHalf b)).2)

/-- An FP32 relation as 1 or 0; IV for a NaN where the relation signals (R236). -/
def relation (signals : Bool) (onNan : Bool) (p : Machine.Num → Machine.Num → Bool) (a b : W32) : W32 × Flags :=
  if (fp32 a).isNan || (fp32 b).isNan then (if onNan then 1 else 0, if signals then flagIV else 0)
  else (if p (fp32 a) (fp32 b) then 1 else 0, 0)

/-- R236: FP32 arithmetic computes the exact result of the two FP32 values and rounds it once; every NaN result is
0x7FC0_0000. -/
def Sys2Proof.Claim.FpArithmeticResults : Prop :=
  LateTwo .fpAdd (onLow fpAdd) ∧ LateTwo .fpSub (onLow fpSub) ∧ LateTwo .fpMul (onLow fpMul) ∧ LateTwo .fpDiv (onLow fpDiv)
  ∧ LateOne .fpSqrt (fun a => ((fpSqrt (lowHalf a)).1.setWidth 64, (fpSqrt (lowHalf a)).2))
  ∧ (∀ (s : State) (k n : Nat) (o : C3) (d : Dest) (a b v : W64), s.ends k n o.s → formFault (.fpFma o) = none → destS o.d = .ok d →
      readS (s.seen k) o.a o.f = .ok a → readS (s.seen k) o.b o.g = .ok b → readS (s.seen k) o.d 0 = .ok v →
      exec (.fpFma o) s = .next (s.endLate k n d false (asVec ((fpFma (lowHalf a) (lowHalf b) (lowHalf v)).1.setWidth 64))
        (fpFma (lowHalf a) (lowHalf b) (lowHalf v)).2))
  ∧ LateOne .fpAbs (fun a => (if (fp32 (lowHalf a)).isNan then 0x7FC00000 else (lowHalf a).setWidth 64 &&& 0x7FFFFFFF, 0))
  ∧ LateOne .fpNeg (fun a => (if (fp32 (lowHalf a)).isNan then 0x7FC00000 else (lowHalf a).setWidth 64 ^^^ 0x80000000, 0))


/-- R237: minimumNumber and maximumNumber. A NaN operand gives way to the other, and -0 lies below +0. -/
def Sys2Proof.Claim.FpMinMaxResults : Prop :=
  let below (a b : W32) : Bool := (fp32 a).lt (fp32 b) || ((fp32 a).eq (fp32 b) && a.getLsbD 31)
  LateTwo .fpMin (onLow fun a b =>
    (if (fp32 a).isNan && (fp32 b).isNan then 0x7FC00000 else if (fp32 a).isNan then b else if (fp32 b).isNan then a
      else if below a b then a else b, 0))
  ∧ LateTwo .fpMax (onLow fun a b =>
    (if (fp32 a).isNan && (fp32 b).isNan then 0x7FC00000 else if (fp32 a).isNan then b else if (fp32 b).isNan then a
      else if below a b then b else a, 0))

/-- R236: the FP32 compares give 1 or 0. With a NaN operand fp.eq, fp.lt and fp.le give 0 and fp.un gives 1; only fp.lt and
fp.le then raise IV. -/
def Sys2Proof.Claim.FpCompareResults : Prop :=
  LateTwo .fpEq (onLow (relation false false Num.eq)) ∧ LateTwo .fpLt (onLow (relation true false Num.lt))
  ∧ LateTwo .fpLe (onLow (relation true false fun x y => x.lt y || x.eq y)) ∧ LateTwo .fpUn (onLow (relation false true fun _ _ => false))

/-- R238: the scalar conversions, with R87's flags. A conversion to an integer rounds the FP32 value in A once and saturates;
one from an integer or a narrow format decodes the low bits of A. -/
def Sys2Proof.Claim.ScalarConversionResults : Prop :=
  (∀ (s : State) (k n : Nat) (o : S2B) (d : Dest) (a : W64), s.ends k n o.s → destS o.d = .ok d → readS (s.seen k) o.a o.f = .ok a →
    (formFault (.cvtSf2i o) = none →
      exec (.cvtSf2i o) s = .next (s.endLate k n d false (asVec (scalarToInt o.t a).1) (scalarToInt o.t a).2))
    ∧ (formFault (.cvtSi2f o) = none →
      exec (.cvtSi2f o) s = .next (s.endLate k n d false (asVec (intToScalar o.t a).1) (intToScalar o.t a).2)))
  ∧ (∀ (s : State) (k n : Nat) (o : S2B) (d : Dest) (a : W64), s.ends k n o.s → formFault (.cvtSf2b o) = none → destS o.d = .ok d →
      readS (s.seen k) o.a o.f = .ok a →
      (o.r = 1 → exec (.cvtSf2b o) s = .next (s.endLate k n d false (asVec (scalarWiden o.t a)) 0))
      ∧ (o.r = 0 → exec (.cvtSf2b o) s =
          .next (s.endLate k n d false (asVec (scalarNarrow o.t (o.q == 1) a).1) (scalarNarrow o.t (o.q == 1) a).2)))
  ∧ (∀ (t : BitVec 4) (a : W64), 7 ≤ t.toNat → t.toNat ≤ 14 →
      let v : Int := if t.toNat ≤ 10 then signed (a.toNat % 2 ^ elemBits t) (elemBits t) else (a.toNat % 2 ^ elemBits t : Nat)
      intToScalar t a = ((roundFp32 (.fin (decide (v < 0)) v.natAbs 0)).1.setWidth 64, (roundFp32 (.fin (decide (v < 0)) v.natAbs 0)).2))
  ∧ ∀ (t : BitVec 4) (a : W64) (neg : Bool) (m : Nat) (e : Int), 7 ≤ t.toNat → t.toNat ≤ 14 → fp32 (lowHalf a) = .fin neg m e →
      let q : Nat := if 0 ≤ e then m * 2 ^ e.toNat else (roundShift m (-e).toNat).1
      let v : Int := if neg then -q else q
      let lo : Int := if t.toNat ≤ 10 then -2 ^ (elemBits t - 1) else 0
      let hi : Int := if t.toNat ≤ 10 then 2 ^ (elemBits t - 1) - 1 else 2 ^ elemBits t - 1
      scalarToInt t a = (BitVec.ofInt 64 (max lo (min hi v)),
        if v < lo ∨ hi < v then flagIV else if 0 ≤ e ∨ 2 ^ (-e).toNat ∣ m then 0 else flagNX)

/-- R86: a mantissa divided by a power of two goes to the nearest integer, and halfway to the even one; bits are lost exactly where the
power does not divide it. -/
def Sys2Proof.Claim.RoundingIsNearestEven : Prop :=
  ∀ m k : Nat,
    let q := (roundShift m k).1
    2 * m ≤ (2 * q + 1) * 2 ^ k ∧ 2 * q * 2 ^ k ≤ 2 * m + 2 ^ k
    ∧ ((2 * m = (2 * q + 1) * 2 ^ k ∨ 2 * q * 2 ^ k = 2 * m + 2 ^ k) → 0 < k → q % 2 = 0)
    ∧ ((roundShift m k).2 = false ↔ 2 ^ k ∣ m)

/-- R80, R97: an FP32 word decodes to its value and rounds back to itself without a flag, unless it is a NaN. -/
def Sys2Proof.Claim.Fp32RoundTrip : Prop :=
  ∀ w : W32, (fp32 w).isNan = false → roundFp32 (fp32 w) = (w, 0)

namespace Sys2Proof.Machine

/-- The flags that any of the 64 lanes raises (R276). -/
def anyLane (f : Nat → Flags) : Flags := (List.range 64).foldl (fun acc j => acc ||| f j) 0

/-- D receives, lane by lane, f of A and B as a variable-latency vector, with the flags of the lanes, and nothing else; a
scalar B stands in every lane (R275, R276). -/
def LanesTwo (i : C3 → Instr) (f : W32 → W32 → W32 × Flags) : Prop :=
  ∀ (s : State) (k n : Nat) (o : C3) (d : Dest) (a b : Vec), s.ends k n o.s → formFault (i o) = none → destV o.d = .ok d →
    readV (s.seen k) o.a o.f = .ok a → readVB (s.seen k) o.b o.g = .ok b →
    ∃ v : Vec, exec (i o) s = .next (s.endLate k n d true v (anyLane fun j => (f (lane a j) (lane b j)).2))
      ∧ ∀ j < 64, lane v j = (f (lane a j) (lane b j)).1

/-- D receives, lane by lane, f of A as a variable-latency vector, with the flags of the lanes, and nothing else. -/
def LanesOne (i : C2 → Instr) (f : W32 → W32 × Flags) : Prop :=
  ∀ (s : State) (k n : Nat) (o : C2) (d : Dest) (a : Vec), s.ends k n o.s → formFault (i o) = none → destV o.d = .ok d →
    readV (s.seen k) o.a o.f = .ok a →
    ∃ v : Vec, exec (i o) s = .next (s.endLate k n d true v (anyLane fun j => (f (lane a j)).2))
      ∧ ∀ j < 64, lane v j = (f (lane a j)).1

/-- Bit j of predicate C tells whether lanes j of A and B stand in a relation, C's old value is lost, the flags of the lanes
are raised, and nothing else changes (R276, R279). -/
def LanesCompare (i : VC → Instr) (r : W32 → W32 → Bool) (fl : W32 → W32 → Flags) : Prop :=
  ∀ (s : State) (k n : Nat) (o : VC) (a b : Vec), s.ends k n o.s → formFault (i o) = none →
    readV (s.seen k) o.a o.f = .ok a → readVB (s.seen k) o.b o.g = .ok b →
    ∃ p : W64, exec (i o) s = .next (s.endBundle k n fun c =>
        { c with c := vset c.c o.c.toNat p, fpflags := c.fpflags ||| anyLane fun j => fl (lane a j) (lane b j) })
      ∧ ∀ j < 64, p.getLsbD j = r (lane a j) (lane b j)

/-- The flag of an FP32 relation that signals: IV for a NaN (R279). -/
def nanFlag (a b : W32) : Flags := if (fp32 a).isNan || (fp32 b).isNan then flagIV else 0

end Sys2Proof.Machine

/-- R277: lane-wise FP32 arithmetic. -/
def Sys2Proof.Claim.VectorFloatResults : Prop :=
  LanesTwo .vecAdd fpAdd ∧ LanesTwo .vecSub fpSub ∧ LanesTwo .vecMul fpMul ∧ LanesTwo .vecDiv fpDiv ∧ LanesOne .vecSqrt fpSqrt
  ∧ LanesTwo .vecMin (fun a b => (fpMin a b, 0)) ∧ LanesTwo .vecMax (fun a b => (fpMax a b, 0))
  ∧ LanesOne .vecAbs (fun a => (if (fp32 a).isNan then 0x7FC00000 else a &&& 0x7FFFFFFF, 0))
  ∧ LanesOne .vecNeg (fun a => (if (fp32 a).isNan then 0x7FC00000 else a ^^^ 0x80000000, 0))
  ∧ ∀ (s : State) (k n : Nat) (o : C3) (d : Dest) (a b v : Vec), s.ends k n o.s → formFault (.vecFma o) = none → destV o.d = .ok d →
      readV (s.seen k) o.a o.f = .ok a → readVB (s.seen k) o.b o.g = .ok b → readV (s.seen k) o.d 0 = .ok v →
      ∃ r : Vec, exec (.vecFma o) s = .next (s.endLate k n d true r (anyLane fun j => (fpFma (lane a j) (lane b j) (lane v j)).2))
        ∧ ∀ j < 64, lane r j = (fpFma (lane a j) (lane b j) (lane v j)).1

/-- R278: lane-wise 32-bit integer arithmetic and logic; a shift takes its amount from bits 4:0 of the lane of B. No flag. -/
def Sys2Proof.Claim.VectorIntegerResults : Prop :=
  LanesTwo .vecIadd (fun a b => (a + b, 0)) ∧ LanesTwo .vecIsub (fun a b => (a - b, 0)) ∧ LanesTwo .vecImul (fun a b => (a * b, 0))
  ∧ LanesTwo .vecAnd (fun a b => (a &&& b, 0)) ∧ LanesTwo .vecOr (fun a b => (a ||| b, 0)) ∧ LanesTwo .vecXor (fun a b => (a ^^^ b, 0))
  ∧ LanesTwo .vecShl (fun a b => (a <<< (b.toNat % 32), 0)) ∧ LanesTwo .vecShr (fun a b => (a >>> (b.toNat % 32), 0))
  ∧ LanesTwo .vecSar (fun a b => (a.sshiftRight (b.toNat % 32), 0))
  ∧ LanesTwo .vecImin (fun a b => (if a.toInt ≤ b.toInt then a else b, 0)) ∧ LanesTwo .vecImax (fun a b => (if a.toInt ≤ b.toInt then b else a, 0))

/-- R279: vector compares write a predicate; vec.lt and vec.le alone raise IV for a NaN lane. -/
def Sys2Proof.Claim.VectorCompareResults : Prop :=
  LanesCompare .vecEq (fun a b => (fp32 a).eq (fp32 b)) (fun _ _ => 0) ∧ LanesCompare .vecNe (fun a b => !(fp32 a).eq (fp32 b)) (fun _ _ => 0)
  ∧ LanesCompare .vecLt (fun a b => (fp32 a).lt (fp32 b)) nanFlag
  ∧ LanesCompare .vecLe (fun a b => (fp32 a).lt (fp32 b) || (fp32 a).eq (fp32 b)) nanFlag
  ∧ LanesCompare .vecIeq (fun a b => a == b) (fun _ _ => 0) ∧ LanesCompare .vecIlt (fun a b => decide (a.toInt < b.toInt)) (fun _ _ => 0)

/-- R283 to R288: the defined functions lane by lane, and their values and flags at NaN, the infinities, zeros and negative
operands. What an algorithm of R284 to R288 gives on other inputs is the model's function; exp2 rounds its remainder once (log 21). -/
def Obligations.VectorFunctions : Prop :=
  LanesOne .vecSigm (fun a => (fnSigm a, 0)) ∧ LanesOne .vecExp2 fnExp2 ∧ LanesOne .vecRcp fnRcp ∧ LanesOne .vecRsq fnRsq
  ∧ LanesOne .vecLog2 fnLog2 ∧ LanesOne .vecTanh (fun a => (fnTanh a, 0))
  ∧ (∀ x : W32, (fp32 x).isNan = true → fnSigm x = 0x7FC00000 ∧ fnExp2 x = (0x7FC00000, 0) ∧ fnRcp x = (0x7FC00000, 0)
      ∧ fnRsq x = (0x7FC00000, 0) ∧ fnLog2 x = (0x7FC00000, 0) ∧ fnTanh x = 0x7FC00000)
  ∧ (fnSigm 0x7F800000 = 0x3F800000 ∧ fnSigm 0xFF800000 = 0 ∧ fnExp2 0x7F800000 = (0x7F800000, 0) ∧ fnExp2 0xFF800000 = (0, 0)
      ∧ fnRcp 0x7F800000 = (0, 0) ∧ fnRcp 0xFF800000 = (0x80000000, 0) ∧ fnRsq 0x7F800000 = (0, 0) ∧ fnRsq 0xFF800000 = (0x7FC00000, flagIV)
      ∧ fnLog2 0x7F800000 = (0x7F800000, 0) ∧ fnLog2 0xFF800000 = (0x7FC00000, flagIV)
      ∧ fnTanh 0x7F800000 = 0x3F800000 ∧ fnTanh 0xFF800000 = 0xBF800000)
  ∧ (fnRcp 0 = (0x7F800000, flagDZ) ∧ fnRcp 0x80000000 = (0xFF800000, flagDZ) ∧ fnRsq 0 = (0x7F800000, flagDZ)
      ∧ fnRsq 0x80000000 = (0xFF800000, flagDZ) ∧ fnLog2 0 = (0xFF800000, flagDZ) ∧ fnLog2 0x80000000 = (0xFF800000, flagDZ))
  ∧ ∀ (x : W32) (m : Nat) (e : Int), fp32 x = .fin true m e → m ≠ 0 → fnRsq x = (0x7FC00000, flagIV) ∧ fnLog2 x = (0x7FC00000, flagIV)

namespace Sys2Proof.Machine

/-- 2^r values, each with its flags, combined two by two in r rounds, value 2j with value 2j + 1; the flags are ORed
(R276, R281). -/
def pairwise (op : W32 → W32 → W32 × Flags) : Nat → (Nat → W32 × Flags) → W32 × Flags
  | 0, f => f 0
  | r + 1, f => pairwise op r fun j =>
      ((op (f (2 * j)).1 (f (2 * j + 1)).1).1, (f (2 * j)).2 ||| (f (2 * j + 1)).2 ||| (op (f (2 * j)).1 (f (2 * j + 1)).1).2)

end Sys2Proof.Machine

/-- R281: the reductions combine the lanes in a fixed binary tree; under P a lane whose predicate bit is 0 takes part as the
identity of the row. -/
def Sys2Proof.Claim.VectorReductionResults : Prop :=
  let row (i : Red → Instr) (op : W32 → W32 → W32 × Flags) (masked : W32) : Prop :=
    ∀ (s : State) (k n : Nat) (o : Red) (d : Dest) (a : Vec), s.ends k n o.s → formFault (i o) = none → destS o.d = .ok d →
      readV (s.seen k) o.a o.f = .ok a →
      let r := pairwise op 6 fun j =>
        (if o.p = 1 ∧ (vget (s.seen k).c o.c.toNat 0).getLsbD j = false then masked else lane a j, 0)
      exec (i o) s = .next (s.endLate k n d false (asVec (r.1.setWidth 64)) r.2)
  row .vecRsum fpAdd 0x80000000 ∧ row .vecRmax (fun a b => (fpMax a b, 0)) 0x7FC00000 ∧ row .vecRmin (fun a b => (fpMin a b, 0)) 0x7FC00000

/-- R280: vector moves, broadcast, permute, select, lane extract and lane insert. -/
def Sys2Proof.Claim.VectorMoveResults : Prop :=
  (∀ (s : State) (k n : Nat) (o : C2) (d : Dest) (a : Vec), s.ends k n o.s → formFault (.vecMov o) = none → destV o.d = .ok d →
      readV (s.seen k) o.a o.f = .ok a → exec (.vecMov o) s = .next (s.endLate k n d true a 0))
  ∧ (∀ (s : State) (k n : Nat) (o : C2) (d : Dest) (a : W64), s.ends k n o.s → formFault (.vecBcast o) = none → destV o.d = .ok d →
      readS (s.seen k) o.a o.f = .ok a →
      ∃ v : Vec, exec (.vecBcast o) s = .next (s.endLate k n d true v 0) ∧ ∀ j < 64, lane v j = a.setWidth 32)
  ∧ (∀ (s : State) (k n : Nat) (o : C3) (d : Dest) (a b : Vec), s.ends k n o.s → formFault (.vecPerm o) = none → destV o.d = .ok d →
      readV (s.seen k) o.a o.f = .ok a → readV (s.seen k) o.b o.g = .ok b →
      ∃ v : Vec, exec (.vecPerm o) s = .next (s.endLate k n d true v 0) ∧ ∀ j < 64, lane v j = lane a ((lane b j).toNat % 64))
  ∧ (∀ (s : State) (k n : Nat) (o : VSel) (d : Dest) (a old : Vec), s.ends k n o.s → formFault (.vecSel o) = none → destV o.d = .ok d →
      readV (s.seen k) o.a o.f = .ok a → readV (s.seen k) o.d 0 = .ok old →
      ∃ v : Vec, exec (.vecSel o) s = .next (s.endLate k n d true v 0) ∧
        ∀ j < 64, lane v j = if (vget (s.seen k).c o.c.toNat 0).getLsbD j then lane a j else lane old j)
  ∧ (∀ (s : State) (k n : Nat) (o : Ln) (d : Dest) (a : Vec), s.ends k n o.s → formFault (.vecLane o) = none → destS o.d = .ok d →
      readV (s.seen k) o.a o.f = .ok a →
      exec (.vecLane o) s = .next (s.endLate k n d false (asVec ((lane a o.k.toNat).setWidth 64)) 0))
  ∧ ∀ (s : State) (k n : Nat) (o : Ln) (d : Dest) (a : W64) (old : Vec), s.ends k n o.s → formFault (.vecIns o) = none →
      destV o.d = .ok d → readS (s.seen k) o.a o.f = .ok a → readV (s.seen k) o.d 0 = .ok old →
      ∃ v : Vec, exec (.vecIns o) s = .next (s.endLate k n d true v 0) ∧
        ∀ j < 64, lane v j = if j = o.k.toNat then a.setWidth 32 else lane old j

/-- R282, R289: vec.dotg adds the dot product of a register pair to D; acc.rd and acc.rdk read 64 accumulators of a full tile,
acc.rdk after rounding to K19. vec.dotg in FP16 first goes to firmware (R99). -/
def Sys2Proof.Claim.DotProductAndAccumulatorReads : Prop :=
  (∀ (s : State) (k n : Nat) (o : Fm) (d : Dest) (a b : Vec) (v : W64), s.ends k n o.s → formFault (.vecDotg o) = none →
      destS o.d = .ok d → readV (s.seen k) o.a o.f = .ok a → readV (s.seen k) (o.a + 1) o.f = .ok b → readS (s.seen k) o.d 0 = .ok v →
      ((o.t ≠ 5 ∨ (s.ctx k).wait = some (.block .emulation)) →
        exec (.vecDotg o) s = .next (s.endLate k n d false (asVec ((vectorDot o.t (lowHalf v) a b).1.setWidth 64))
          (vectorDot o.t (lowHalf v) a b).2))
      ∧ (o.t = 5 → (s.ctx k).wait ≠ some (.block .emulation) →
        exec (.vecDotg o) s = .next (hold s k n (.block .emulation))))
  ∧ ∀ (s : State) (k n : Nat) (o : Acc) (d : Dest) (a : W64), s.ends k n o.s → destV o.d = .ok d →
      readS (s.seen k) o.a o.f = .ok a →
      let t := vget (s.engine (k / 4 * 2 + o.e.toNat)).acc o.n.toNat ⟨true, []⟩
      let at' (j : Nat) : W32 := (tget t.elems (128 * bitsFrom a 0 7 + 64 * bitsFrom a 7 1 + j)).getD 0
      t.full = true →
      (formFault (.accRd o) = none →
        ∃ v : Vec, exec (.accRd o) s = .next (s.endLate k n d true v 0) ∧ ∀ j < 64, lane v j = at' j)
      ∧ (formFault (.accRdk o) = none →
        ∃ v : Vec, exec (.accRdk o) s = .next (s.endLate k n d true v 0) ∧ ∀ j < 64, lane v j = k19Word (fp32 (at' j)))

/-- R290 to R293: the vector conversions under their control word. A narrowing replaces 64 elements of D and keeps the others; a widening
gives 64 FP32 values. -/
def Sys2Proof.Claim.VectorConversionResults : Prop :=
  let narrows (i : C3 → Instr) (set : CvtSet) : Prop :=
    ∀ (s : State) (k n : Nat) (o : C3) (d : Dest) (a old : Vec) (w : W64), s.ends k n o.s → formFault (i o) = none → destV o.d = .ok d →
      readV (s.seen k) o.a o.f = .ok a → readS (s.seen k) o.b o.g = .ok w → (CvtCtl.ofWord w).legal set = true →
      readV (s.seen k) o.d 0 = .ok old →
      let c := CvtCtl.ofWord w
      let r (j : Nat) := encodeElem c.code c.sat ((fp32 (lane a j)).unscaleE8 c.ts)
      ∃ v : Vec, exec (i o) s = .next (s.endLate k n d true v (anyLane fun j => (r j).flags ||| if c.ts = 0xFF then flagIV else 0))
        ∧ (∀ j < 64, packed v (elemBits c.code) (64 * c.part + j) = (r j).code)
        ∧ ∀ j, (j < 64 * c.part ∨ 64 * c.part + 64 ≤ j) → j * elemBits c.code < 2048 →
            packed v (elemBits c.code) j = packed old (elemBits c.code) j
  let widens (i : C3 → Instr) (set : CvtSet) : Prop :=
    ∀ (s : State) (k n : Nat) (o : C3) (d : Dest) (a : Vec) (w : W64), s.ends k n o.s → formFault (i o) = none → destV o.d = .ok d →
      readV (s.seen k) o.a o.f = .ok a → readS (s.seen k) o.b o.g = .ok w → (CvtCtl.ofWord w).legal set = true →
      let c := CvtCtl.ofWord w
      let x (j : Nat) := (decodeElem c.code (packed a (elemBits c.code) (64 * c.part + j))).scaleE8 c.ts
      ∃ v : Vec, exec (i o) s = .next (s.endLate k n d true v (anyLane fun j => if (x j).isNan then 0 else (roundFp32 (x j)).2))
        ∧ ∀ j < 64, lane v j = if (x j).isNan then 0x7FC00000 else (roundFp32 (x j)).1
  narrows .cvtNar .narrow ∧ narrows .cvtF2i .integer ∧ widens .cvtWid .widen ∧ widens .cvtI2f .integer
  ∧ ∀ (s : State) (k n : Nat) (o : C2) (d : Dest) (a : Vec), s.ends k n o.s → formFault (.cvtE8 o) = none → destV o.d = .ok d →
      readV (s.seen k) o.a o.f = .ok a →
      ∃ v : Vec, exec (.cvtE8 o) s = .next (s.endLate k n d true v 0) ∧
        ∀ j < 64, lane v j = BitVec.ofNat 32 (encodeE8M0 (fp32 (lane a j))).code

/-- R202, R240, R241, R247: a nop only ends its bundle; a branch goes to the bundle's address plus 4 × IMM where its condition
holds, and on where it does not; jumps and calls go to their target, calls with the next sequential address as result. -/
def Sys2Proof.Claim.ControlTransferResults : Prop :=
  (∀ (s : State) (k n : Nat) (o : N), s.ends k n o.s → formFault (.ctlNop o) = none → exec (.ctlNop o) s = .next (s.endBundle k n id))
  ∧ (∀ (s : State) (k n : Nat) (o : Br), s.ends k n o.s → formFault (.ctlBr o) = none →
      let taken := o.c = 0 ∨ (8 ≤ o.c.toNat ∧ o.c.toNat < 16 ∧ (vget (s.seen k).c (o.c.toNat - 8) 0).getLsbD 0 = true)
        ∨ (24 ≤ o.c.toNat ∧ (vget (s.seen k).c (o.c.toNat - 24) 0).getLsbD 0 = false)
      (taken → exec (.ctlBr o) s = .next (s.endBundleAt k ((s.ctx k).pc + 4 * o.i.signExtend 64) id))
      ∧ (¬ taken → exec (.ctlBr o) s = .next (s.endBundle k n id)))
  ∧ (∀ (s : State) (k n : Nat) (o : A1) (a : W64), s.ends k n o.s → readS (s.seen k) o.a o.f = .ok a →
      (formFault (.ctlJr o) = none → exec (.ctlJr o) s = .next (s.endBundleAt k a id))
      ∧ (formFault (.ctlRet o) = none → exec (.ctlRet o) s = .next (s.endBundleAt k a id)))
  ∧ (∀ (s : State) (k n : Nat) (o : L) (d : Dest), s.ends k n o.s → formFault (.ctlCall o) = none → destS o.d = .ok d →
      exec (.ctlCall o) s = .next ({ s with nextId := s.nextId + 1 }.endBundleAt k ((s.ctx k).pc + 4 * o.i.signExtend 64)
        (·.expect d false s.nextId (asVec (afterBundle s k (s.ctx k).pc)))))
  ∧ (∀ (s : State) (k n : Nat) (o : C2) (d : Dest) (a : W64), s.ends k n o.s → formFault (.ctlCallr o) = none → destS o.d = .ok d →
      readS (s.seen k) o.a o.f = .ok a →
      exec (.ctlCallr o) s = .next ({ s with nextId := s.nextId + 1 }.endBundleAt k a
        (·.expect d false s.nextId (asVec (afterBundle s k (s.ctx k).pc)))))
  ∧ ∀ (s : State) (k n : Nat) (a : W64), n < 8 → (∀ j < n, ∃ w, codeWord s k (a + BitVec.ofNat 64 (4 * j)) = some w ∧ w.getLsbD 31 = false) →
      (∃ w, codeWord s k (a + BitVec.ofNat 64 (4 * n)) = some w ∧ w.getLsbD 31 = true) →
      afterBundle s k a = a + BitVec.ofNat 64 (4 * (n + 1))

/-- R247, R174: ctl.end stops fetch; the unit begins to retire at the address after its bundle with no view open, and neither
memory nor any other context changes, but for the counts by which the core chooses its next context (R349). -/
def Sys2Proof.Claim.UnitEndBeginsRetire : Prop :=
  ∀ (s : State) (k n : Nat) (o : N), s.ends k n o.s → formFault (.ctlEnd o) = none →
    ∃ t, exec (.ctlEnd o) s = .next t ∧ (t.ctx k).status = .retiring
      ∧ (t.ctx k).pc = (s.ctx k).pc + BitVec.ofNat 64 (4 * (n + 1)) ∧ openViews (t.ctx k) = []
      ∧ (t.ctx k).q = (s.ctx k).q ∧ (t.ctx k).g = (s.ctx k).g ∧ (t.ctx k).h = (s.ctx k).h ∧ (t.ctx k).unit = (s.ctx k).unit
      ∧ t.mem = s.mem ∧ t.hostMem = s.hostMem ∧ ∀ j, j ≠ k → ∃ m, t.ctx j = { s.ctx j with skip := m }

/-- R242: ctl.loop sets a level to its count, the next sequential address and the end; a count of 0 makes the level inactive and goes to
the address after the bundle at the end. An end inside its own bundle raises OPERAND. -/
def Sys2Proof.Claim.LoopStart : Prop :=
  ∀ (s : State) (k n : Nat) (o : Lp) (a : W64), s.ends k n o.s → formFault (.ctlLoop o) = none → readS (s.seen k) o.a o.f = .ok a →
    let pc := (s.ctx k).pc
    let endAt := pc + BitVec.ofNat 64 (4 * o.i.toNat)
    (loopShort s k pc o = true → exec (.ctlLoop o) s = .next (takeTrap s k n ⟨0x02, 4, none⟩))
    ∧ (loopShort s k pc o = false → a ≠ 0 → exec (.ctlLoop o) s =
        .next (s.commitWith k n id (·.onCtx k (·.setLoop o.d.toNat ⟨true, pc + BitVec.ofNat 64 (4 * (n + 1)), endAt, a⟩))))
    ∧ (loopShort s k pc o = false → a = 0 → exec (.ctlLoop o) s =
        .next (s.commitWith k n id (·.onCtx k fun c =>
          { (c.setLoop o.d.toNat { (if o.d.toNat = 0 then c.lp0 else c.lp1) with active := false }) with pc := afterBundle s k endAt })))

/-- R243: at the end address of an active loop the count goes down by one; at 0 the level becomes inactive and the address moves on, else it goes back to the
start. The inner level closes first, and the outer one only where the inner does not go back. -/
def Sys2Proof.Claim.LoopClose : Prop :=
  ∀ (c : Ctx) (pc next : W64),
    let ends (l : Loop) : Prop := l.active = true ∧ l.endAt = pc
    (ends c.lp1 → c.lp1.count ≠ 1 →
      closeLoops c pc next = ({ c with lp1 := { c.lp1 with count := c.lp1.count - 1 } }, c.lp1.start))
    ∧ (¬ ends c.lp1 → ends c.lp0 → c.lp0.count ≠ 1 →
      closeLoops c pc next = ({ c with lp0 := { c.lp0 with count := c.lp0.count - 1 } }, c.lp0.start))
    ∧ (ends c.lp1 → c.lp1.count = 1 → ends c.lp0 → c.lp0.count ≠ 1 →
      closeLoops c pc next = ({ c with lp1 := { c.lp1 with active := false, count := 0 }, lp0 := { c.lp0 with count := c.lp0.count - 1 } }, c.lp0.start))
    ∧ (ends c.lp1 → c.lp1.count = 1 → ¬ ends c.lp0 →
      closeLoops c pc next = ({ c with lp1 := { c.lp1 with active := false, count := 0 } }, next))
    ∧ (¬ ends c.lp1 → ends c.lp0 → c.lp0.count = 1 →
      closeLoops c pc next = ({ c with lp0 := { c.lp0 with active := false, count := 0 } }, next))
    ∧ (ends c.lp1 → c.lp1.count = 1 → ends c.lp0 → c.lp0.count = 1 →
      closeLoops c pc next = ({ c with lp1 := { c.lp1 with active := false, count := 0 }, lp0 := { c.lp0 with active := false, count := 0 } }, next))
    ∧ (¬ ends c.lp1 → ¬ ends c.lp0 → closeLoops c pc next = (c, next))

/-- R244 to R246: ctl.setmpc sets mpc; ctl.kadd adds a signed amount and raises SEMRANGE where the sum leaves 0 to 2^32 - 1; ctl.wait
takes its amount where the semaphore holds it and blocks where it does not, and an amount of 2^32 or more raises SEMRANGE. No engine
completion holds units of the semaphore. -/
def Sys2Proof.Claim.SemaphoreResults : Prop :=
  (∀ (s : State) (k n : Nat) (o : A1) (a : W64), s.ends k n o.s → formFault (.ctlSetmpc o) = none → readS (s.seen k) o.a o.f = .ok a →
    exec (.ctlSetmpc o) s = .next (s.commitWith k n id (·.onCtx k fun c => { c with mpc := a })))
  ∧ (∀ (s : State) (k n : Nat) (o : Ka) (a : W64), s.ends k n o.s → formFault (.ctlKadd o) = none → readS (s.seen k) o.a o.f = .ok a →
      vget (s.seen k).kHeld o.k.toNat 0 = 0 → waitAmount ⟨s, k, s.seen k, n⟩ o.k.toNat (s.ctx k).pc 8 = some 0 →
      let sum : Int := (vget (s.seen k).k o.k.toNat 0).toNat + a.toInt
      (0 ≤ sum → sum < 2 ^ 32 → exec (.ctlKadd o) s = .next (s.commitWith k n id (·.onCtx k fun c =>
          { c with k := vset c.k o.k.toNat (BitVec.ofInt 32 ((vget c.k o.k.toNat 0).toNat + a.toInt)) })))
      ∧ (sum < 0 ∨ 2 ^ 32 ≤ sum → exec (.ctlKadd o) s = .next (takeTrap s k n ⟨0x08, 0, none⟩)))
  ∧ ∀ (s : State) (k n : Nat) (o : Kw) (b : W64), s.ends k n o.s → formFault (.ctlWait o) = none → readS (s.seen k) o.b o.g = .ok b →
      drainPending (s.seen k) = false → (s.ctx k).task = none → vget (s.seen k).kHeld o.k.toNat 0 = 0 →
      let held := (vget (s.seen k).k o.k.toNat 0).toNat
      (b.toNat ≤ held → exec (.ctlWait o) s = .next (s.commitWith k n (fun s =>
          acquireL1 (s.onCtx k fun c => { c with k := vset c.k o.k.toNat (BitVec.ofNat 32 (held - b.toNat)) }) (k / 4)
            (s.ctx k).asid.toNat o.c.toNat) id))
      ∧ (held < b.toNat → b.toNat < 2 ^ 32 → exec (.ctlWait o) s = .next (hold s k n (.block (.semaphore o.k.toNat b.toNat))))
      ∧ (2 ^ 32 ≤ b.toNat → exec (.ctlWait o) s = .next (takeTrap s k n ⟨0x08, 0, none⟩))

namespace Sys2Proof.Machine

/-- The access of a load or atomic in slot `n` of context `k`, before its result has a number (R101, R189). -/
def accessOf (s : State) (k n : Nat) (op : MemOp) (ord : Ord) (data : Vec) (ps : List Piece) : Access :=
  ⟨op, ord.strong, ord.hint, ord.acquire, n, (s.ctx k).asid.toNat, data, ps, 0, none, none, none, false, none, 0⟩

/-- An access of `sz` bytes at `ea` passes the checks of R29, and where it writes that of R133; then `r` is the access with every
piece that the L1 does not serve translated, and it reads no empty line (R20, R68, R101, R139). -/
def accessReady (s : State) (k n : Nat) (op : MemOp) (ord : Ord) (v : Vec) (base ea : W64) (sz : Nat) (atomic : Bool) (r : Access) : Prop :=
  ∃ sp place, checkAddr s (who s k) base ea sz atomic = .ok (sp, place) ∧ (opWrites op = true → ownerOk s place = true)
    ∧ readyAccess s k true (accessOf s k n op ord v (piecesOf place sz)) = .ok r

/-- A load of slot `n` is pending and the place of its result is empty; nothing else but the end of the bundle. -/
def LoadIssues (i : Instr) (stop : BitVec 1) (d : BitVec 6) (isVec : Bool) (sz : Nat) (ord : Ord) (s : State) (k n : Nat) (base ea : W64) : Prop :=
  ∀ (dst : Dest) (r : Access), s.ends k n stop → formFault i = none → drainPending (s.seen k) = false → destOf d isVec = .ok dst →
    accessReady s k n .load ord 0 base ea sz false r → exec i s = .next (s.queueFilling k n r dst isVec)

/-- A store of slot `n` is pending with the value of its data operand; nothing else but the end of the bundle. -/
def StoreIssues (i : Instr) (stop : BitVec 1) (d : BitVec 6) (isVec : Bool) (sz : Nat) (ord : Ord) (s : State) (k n : Nat) (base ea : W64) : Prop :=
  ∀ (v : Vec) (r : Access), s.ends k n stop → formFault i = none → drainPending (s.seen k) = false → dataOf (s.seen k) d isVec = .ok v →
    accessReady s k n .store ord v base ea sz false r → exec i s = .next (s.queueStore k n r)

end Sys2Proof.Machine

/-- R250, R251: loads compute their address from A and OFF times the size, or from A and B, and are pending from commit on. -/
def Sys2Proof.Claim.LoadsArePending : Prop :=
  (∀ (s : State) (k n : Nat) (o : E) (a : W64) (sz : Nat) (isVec : Bool) (ord : Ord), readS (s.seen k) o.a 0 = .ok a →
      sizeOf' o.z = some (sz, isVec) → ordOf o.o true = some ord →
      LoadIssues (.memLd o) o.s o.d isVec sz ord s k n a (a + BitVec.ofNat 64 (o.n.toNat * sz)))
  ∧ ∀ (s : State) (k n : Nat) (o : C3) (a b : W64), readS (s.seen k) o.a o.f = .ok a → readS (s.seen k) o.b o.g = .ok b →
      LoadIssues (.memLdxb o) o.s o.d false 1 weak s k n a (a + b) ∧ LoadIssues (.memLdxh o) o.s o.d false 2 weak s k n a (a + b)
      ∧ LoadIssues (.memLdxw o) o.s o.d false 4 weak s k n a (a + b) ∧ LoadIssues (.memLdxd o) o.s o.d false 8 weak s k n a (a + b)
      ∧ LoadIssues (.memLdxv o) o.s o.d true 256 weak s k n a (a + b)

/-- R250, R251: stores compute their address from A and OFF times the size, or from A and B, and are pending from commit on. -/
def Sys2Proof.Claim.StoresArePending : Prop :=
  (∀ (s : State) (k n : Nat) (o : E) (a : W64) (sz : Nat) (isVec : Bool) (ord : Ord), readS (s.seen k) o.a 0 = .ok a →
      sizeOf' o.z = some (sz, isVec) → ordOf o.o false = some ord →
      StoreIssues (.memSt o) o.s o.d isVec sz ord s k n a (a + BitVec.ofNat 64 (o.n.toNat * sz)))
  ∧ ∀ (s : State) (k n : Nat) (o : C3) (a b : W64), readS (s.seen k) o.a o.f = .ok a → readS (s.seen k) o.b o.g = .ok b →
      StoreIssues (.memStxb o) o.s o.d false 1 weak s k n a (a + b) ∧ StoreIssues (.memStxh o) o.s o.d false 2 weak s k n a (a + b)
      ∧ StoreIssues (.memStxw o) o.s o.d false 4 weak s k n a (a + b) ∧ StoreIssues (.memStxd o) o.s o.d false 8 weak s k n a (a + b)
      ∧ StoreIssues (.memStxv o) o.s o.d true 256 weak s k n a (a + b)

/-- R260 to R262: an atomic names one naturally aligned word at A; its operand is D, which receives the old value. -/
def Sys2Proof.Claim.AtomicsArePending : Prop :=
  (∀ (s : State) (k n : Nat) (o : At) (ord : Ord) (dst : Dest) (p v : W64) (r : Access), s.ends k n o.s →
      drainPending (s.seen k) = false → ordOf o.o false = some ord → destS o.d = .ok dst → readS (s.seen k) o.a 0 = .ok p →
      readS (s.seen k) o.d 0 = .ok v →
      let op (j : Nat) (i : Instr) : Prop := formFault i = none → accessReady s k n (.atom j) ord (asVec v) p p (if o.z = 2 then 4 else 8) true r →
        exec i s = .next (s.queueFilling k n r dst false)
      op 0 (.atomAdd o) ∧ op 1 (.atomAnd o) ∧ op 2 (.atomOr o) ∧ op 3 (.atomXor o) ∧ op 4 (.atomSmin o) ∧ op 5 (.atomSmax o)
        ∧ op 6 (.atomUmin o) ∧ op 7 (.atomUmax o) ∧ op 8 (.atomSwap o))
  ∧ (∀ (s : State) (k n : Nat) (o : AtF) (ord : Ord) (dst : Dest) (p v : W64) (r : Access), s.ends k n o.s →
      drainPending (s.seen k) = false → ordOf o.o false = some ord → destS o.d = .ok dst → readS (s.seen k) o.a 0 = .ok p →
      readS (s.seen k) o.d 0 = .ok v →
      let op (j : Nat) (i : Instr) : Prop := formFault i = none → accessReady s k n (.atom j) ord (asVec v) p p 4 true r →
        exec i s = .next (s.queueFilling k n r dst false)
      op 9 (.atomFadd o) ∧ op 10 (.atomFmin o) ∧ op 11 (.atomFmax o))
  ∧ ∀ (s : State) (k n : Nat) (o : Cas) (ord : Ord) (dst : Dest) (p v cmp : W64) (r : Access), s.ends k n o.s →
      formFault (.atomCas o) = none → drainPending (s.seen k) = false → ordOf o.o false = some ord → destS o.d = .ok dst →
      readS (s.seen k) o.a 0 = .ok p → readS (s.seen k) o.d 0 = .ok v → readS (s.seen k) o.c 0 = .ok cmp →
      accessReady s k n (.cas cmp) ord (asVec v) p p (if o.z = 2 then 4 else 8) true r →
      exec (.atomCas o) s = .next (s.queueFilling k n r dst false)

/-- R252, R253: a drain is pending from commit on and acquires at its scope; a prefetch whose address fails a check has no
effect, and none changes a byte of memory. -/
def Sys2Proof.Claim.DrainAndPrefetch : Prop :=
  (∀ (s : State) (k n : Nat) (o : Dr), s.ends k n o.s → formFault (.memDrain o) = none → drainPending (s.seen k) = false →
      exec (.memDrain o) s = .next (s.commitWith k n (fun s =>
        acquireL1 (addPend s k (.drain o.c.toNat)) (k / 4) (s.ctx k).asid.toNat o.c.toNat) id))
  ∧ (∀ (s : State) (k n : Nat) (o : A2) (a b : W64), s.ends k n o.s → formFault (.memPf o) = none → drainPending (s.seen k) = false →
      readS (s.seen k) o.a o.f = .ok a → readS (s.seen k) o.b o.g = .ok b →
      (∀ sp place, checkAddr s (who s k) a (a + b) 1 false = .ok (sp, place) →
        exec (.memPf o) s = .next (s.commitWith k n (prefetch · k place) id))
      ∧ (∀ t, checkAddr s (who s k) a (a + b) 1 false = .error t → exec (.memPf o) s = .next (s.endBundle k n id)))
  ∧ ∀ (s : State) (k : Nat) (p : Place), (prefetch s k p).mem = s.mem

/-- R29, R26, R8 to R13, R22, R23, R27, R28: the issue checks of an access, the first cause that applies; TAGCARRY reports the
base register, every other cause the effective address. -/
def Sys2Proof.Claim.AddressChecksInOrder : Prop :=
  ∀ (s : State) (w : Who) (base ea : W64) (n : Nat) (atomic : Bool),
    let tag := bitsFrom base 60 4
    let own := bitsFrom ea 56 2 * 64 + bitsFrom ea 50 6 = w.core
    let column := if tag = 2 ∨ tag = 4 then bitsFrom ea 56 2 * 64 + bitsFrom ea 50 6 else w.core
    let causes : List (Prop × Nat) := [
      (¬ (tag ≤ 4 ∨ tag = 8 ∨ tag = 12 ∨ tag = 14), 0x1),
      (bitsFrom ea 60 4 ≠ tag, 0x2),
      ((tag = 0 ∧ bitsFrom ea 48 12 ≠ 0) ∨ (tag = 1 ∧ bitsFrom ea 24 36 ≠ 0) ∨ (tag = 2 ∧ (bitsFrom ea 58 2 ≠ 0 ∨ bitsFrom ea 24 26 ≠ 0))
        ∨ (tag = 3 ∧ bitsFrom ea 30 30 ≠ 0) ∨ (tag = 4 ∧ (bitsFrom ea 58 2 ≠ 0 ∨ bitsFrom ea 30 20 ≠ 0))
        ∨ (tag = 12 ∧ bitsFrom ea 57 3 ≠ 0) ∨ (tag = 14 ∧ (bitsFrom ea 58 2 ≠ 0 ∨ bitsFrom ea 32 24 ≠ 0)), 0x3),
      (tag = 14 ∧ w.priv = false, 0x4),
      ((tag = 2 ∧ ¬ own ∧ w.asperm.getLsbD 1 = false) ∨ (tag = 4 ∧ ¬ own ∧ w.asperm.getLsbD 2 = false)
        ∨ (tag = 8 ∧ w.asperm.getLsbD 3 = false) ∨ (tag = 12 ∧ w.asperm.getLsbD 4 = false), 0x5),
      (tag = 14 ∧ n ≠ 4 ∧ n ≠ 8, 0x6),
      (atomic = true ∧ (tag = 8 ∨ tag = 12 ∨ tag = 14), 0x7),
      (ea.toNat % n ≠ 0, 0x8),
      ((tag = 1 ∨ tag = 2) ∧ s.spSize column < bitsFrom ea 0 22 + n ∨ (tag = 3 ∨ tag = 4) ∧ 0x30000000 < bitsFrom ea 0 30 + n, 0x9),
      (tag = 8 ∧ bitsFrom ea 44 16 ≠ s.deviceId ∧ s.route (bitsFrom ea 44 16) = none, 0xA)]
    (∀ j : Nat, ∀ p c, causes[j]? = some (p, c) → p → (∀ i < j, ∀ q d, causes[i]? = some (q, d) → ¬ q) →
        checkAddr s w base ea n atomic = .error ⟨0x03, c, some (if c = 2 then base else ea)⟩)
    ∧ ((∀ x ∈ causes, ¬ x.1) → ∃ sp place, checkAddr s w base ea n atomic = .ok (sp, place)
        ∧ place = (if tag = 0 then .untranslated (bitsFrom ea 0 48) else if tag ≤ 2 then .mem (spKey column (bitsFrom ea 22 2) (bitsFrom ea 0 22))
            else if tag ≤ 4 then .mem (dramKey column (bitsFrom ea 0 30)) else if tag = 8 then .peer (bitsFrom ea 44 16) (bitsFrom ea 0 44)
            else if tag = 12 then .host (bitsFrom ea 0 57) else .mmio (bitsFrom ea 56 2) (bitsFrom ea 0 32)))

/-- R29, R30, R133: a load or a store whose address fails a check has its bundle trap with that cause, and nothing of the bundle
commits; a store to a tile of the engine side raises the owner fault STORE. -/
def Sys2Proof.Claim.AddressFaultsTrap : Prop :=
  ∀ (s : State) (k n : Nat) (o : E) (a : W64) (sz : Nat) (isVec : Bool) (ord : Ord), s.issues k n → drainPending (s.seen k) = false →
    readS (s.seen k) o.a 0 = .ok a → sizeOf' o.z = some (sz, isVec) →
    let ea := a + BitVec.ofNat 64 (o.n.toNat * sz)
    (∀ t dst, formFault (.memLd o) = none → ordOf o.o true = some ord → destOf o.d isVec = .ok dst →
      checkAddr s (who s k) a ea sz false = .error t → exec (.memLd o) s = .next (takeTrap s k n t))
    ∧ (∀ t v, formFault (.memSt o) = none → ordOf o.o false = some ord → dataOf (s.seen k) o.d isVec = .ok v →
      checkAddr s (who s k) a ea sz false = .error t → exec (.memSt o) s = .next (takeTrap s k n t))
    ∧ ∀ v sp key, formFault (.memSt o) = none → ordOf o.o false = some ord → dataOf (s.seen k) o.d isVec = .ok v →
      checkAddr s (who s k) a ea sz false = .ok (sp, .mem key) → isSp key = true → engineSide s key = true →
      exec (.memSt o) s = .next (takeTrap s k n ⟨0x06, 1, some ea⟩)

/-- R33, R115 to R117, R181, R388: a pending access that the order rules allow performs. A load leaves memory as it is and its result,
with the VA stores that its core has still to hand on, is on its way; a store changes exactly the bytes at its address; a load that meets
a line with an uncorrectable error discards its launch. -/
def Sys2Proof.Claim.PerformedLoadsAndStores : Prop :=
  ∀ (s : State) (k id : Nat) (e : Pend) (a : Access) (p : Piece) (key : Nat), s.canonical → (s.ctx k).pend.find? (·.id == id) = some e →
    mayPerform s k (pendBefore (s.ctx k).pend id) e = true → e.kind = .access a → a.pieces = [p] → p.place = .mem key →
    (∀ l, a.op = .load → badLine? s key p.bytes = some l →
      exec (.accessPerform k id) s = .next (failAccess s k id (memoryFault l)))
    ∧ ((a.op = .load ∧ badLine? s key p.bytes = none) ∨ a.op = .store → ∃ t, exec (.accessPerform k id) s = .next t
      ∧ (t.ctx k).pend = (s.ctx k).pend.filter (·.id != id) ∧ t.hostMem = s.hostMem
      ∧ (a.op = .load → t.mem = s.mem ∧ (t.ctx k).results = (s.ctx k).results ++ (a.res.toList.map fun r =>
          ⟨r, a.got ||| BitVec.ofNat 2048 (bits (coreRead s (k / 4) key p.bytes) p.bit p.bits * 2 ^ p.lo), 0⟩)
          ∧ ((s.core (k / 4)).fwd = [] → coreRead s (k / 4) key p.bytes = memRead s.mem key p.bytes))
      ∧ (a.op = .store → p.bit = 0 → p.bits = 8 * p.bytes → ∀ x, memGet t.mem x =
          if key ≤ x ∧ x < key + p.bytes then BitVec.ofNat 8 ((a.data >>> p.lo).toNat / 2 ^ (8 * (x - key))) else memGet s.mem x))

/-- R260, R261, R117: an atomic that performs gives the old value and writes the new one of its row; a compare-and-swap writes only
where the word equals the comparand. No other byte changes. -/
def Sys2Proof.Claim.PerformedAtomics : Prop :=
  (∀ (s : State) (k id : Nat) (e : Pend) (a : Access) (p : Piece) (key : Nat), s.canonical → (s.ctx k).pend.find? (·.id == id) = some e →
    mayPerform s k (pendBefore (s.ctx k).pend id) e = true → e.kind = .access a → a.pieces = [p] → p.place = .mem key →
    p.bit = 0 → p.bits = 8 * p.bytes → p.lo = 0 → badLine? s key p.bytes = none →
    let old := memRead s.mem key p.bytes
    let v := a.data.toNat % 2 ^ (8 * p.bytes)
    ∃ t, exec (.accessPerform k id) s = .next t
      ∧ (∀ j, a.op = .atom j → memRead t.mem key p.bytes = (atomicNew j (8 * p.bytes) old v).1 % 2 ^ (8 * p.bytes)
          ∧ (t.ctx k).results = (s.ctx k).results ++ (a.res.toList.map fun r => ⟨r, a.got ||| BitVec.ofNat 2048 old, (atomicNew j (8 * p.bytes) old v).2⟩)
          ∧ ∀ x, ¬ (key ≤ x ∧ x < key + p.bytes) → memGet t.mem x = memGet s.mem x)
      ∧ (∀ cmp, a.op = .cas cmp →
          memRead t.mem key p.bytes = (if old = cmp.toNat % 2 ^ (8 * p.bytes) then v else old)
          ∧ (t.ctx k).results = (s.ctx k).results ++ (a.res.toList.map fun r => ⟨r, a.got ||| BitVec.ofNat 2048 old, 0⟩)
          ∧ ∀ x, ¬ (key ≤ x ∧ x < key + p.bytes) → memGet t.mem x = memGet s.mem x))
  ∧ ∀ n old v : Nat, 0 < n → old < 2 ^ n → v < 2 ^ n →
      let sg (x : Nat) : Int := if 2 ^ (n - 1) ≤ x then (x : Int) - 2 ^ n else x
      (atomicNew 0 n old v).1 = (old + v) % 2 ^ n ∧ (atomicNew 1 n old v).1 = old &&& v ∧ (atomicNew 2 n old v).1 = old ||| v
      ∧ (atomicNew 3 n old v).1 = old ^^^ v ∧ (atomicNew 4 n old v).1 = (if sg old ≤ sg v then old else v)
      ∧ (atomicNew 5 n old v).1 = (if sg old ≤ sg v then v else old) ∧ (atomicNew 6 n old v).1 = min old v
      ∧ (atomicNew 7 n old v).1 = max old v ∧ (atomicNew 8 n old v).1 = v ∧ ∀ j ≤ 8, (atomicNew j n old v).2 = 0

/-- R49, R102, R104, R118, R119, R123, R127: an access does not perform while an earlier pending access of its unit holds it back: one of its own bundle, for a
write or a chase of nodes; one of an earlier bundle that shares a byte with it where either writes, both without views; a local one, for a local one; a write to
the own column, for another; a strong store, for a strong store; an acquire. The earlier one has not yet performed at core scope. -/
def Sys2Proof.Claim.EarlierAccessesHoldBack : Prop :=
  ∀ (s : State) (k : Nat) (before mid after : List Pend) (e p : Pend) (x a : Access) (q : Piece) (rest : List Piece),
    (s.ctx k).pend = before ++ e :: mid ++ p :: after → (∀ z ∈ before ++ e :: mid, z.id ≠ p.id) →
    e.kind = .access x → p.kind = .access a → a.pieces = q :: rest → x.atCore = false →
    let core := k / 4
    ((e.bundle = p.bundle ∧ (opWrites a.op = true ∨ walksNodes a.op = true))
      ∨ (e.bundle ≠ p.bundle ∧ (opWrites x.op = true ∨ opWrites a.op = true) ∧ x.foot = none ∧ a.foot = none ∧ ∃ y ∈ x.pieces, y.overlap q = true)
      ∨ (e.bundle ≠ p.bundle ∧ ownLocal core q = true ∧ ∃ y ∈ x.pieces, ownLocal core y = true)
      ∨ (opWrites x.op = true ∧ opWrites a.op = true ∧ ownColumn core q = true ∧ ∃ y ∈ x.pieces, ownColumn core y = true)
      ∨ (opWrites x.op = true ∧ opWrites a.op = true ∧ x.strong ≠ none ∧ a.strong ≠ none ∧ x.off = false ∧ ∃ key, q.place = .mem key)
      ∨ (e.bundle ≠ p.bundle ∧ x.acquire = true ∧ x.off = false ∧ offDevice q = false)) →
    exec (.accessPerform k p.id) s = .next s

/-- R116, R122, R123, R127, R252, R255, R420, R421: a release or a drain does not take effect while an earlier access of its unit has not performed at its scope;
accesses of other devices and the host count for a drain and a retire at sys alone. A drain and an acquire hold back every later access that stays on
the device, a drain at sys every other as well, a release every later write that stays on it, and a drop that counts as a signal every later access. A drop that does not
count is no release. -/
def Sys2Proof.Claim.ReleasesAndDrainsWait : Prop :=
  ∀ (s : State) (k : Nat) (before mid after : List Pend) (e p : Pend),
    (s.ctx k).pend = before ++ e :: mid ++ p :: after → (∀ z ∈ before ++ e :: mid, z.id ≠ p.id) →
    (∀ x scope, e.kind = .access x → x.off = false → (scope ≠ 0 ∨ x.atCore = false) →
      (p.kind = .drain scope ∨ ∃ r, p.kind = .release scope r
        ∧ ∀ n slot, r = .signal n slot true → (s.phaser n slot).dropCounts (k / 4) (k % 4) = true) →
      exec (.accessPerform k p.id) s = .next s)
    ∧ (∀ x, e.kind = .access x → (p.kind = .drain 3 ∨ ∃ entry, p.kind = .release 3 (.view entry)) → exec (.accessPerform k p.id) s = .next s)
    ∧ ∀ (a : Access) (q : Piece) (rest : List Piece), p.kind = .access a → a.pieces = q :: rest → e.bundle ≠ p.bundle →
      ((offDevice q = false ∧ ((∃ sc, e.kind = .drain sc) ∨ (∃ sc, e.kind = .acquire sc)
          ∨ ((∃ sc r, e.kind = .release sc r) ∧ opWrites a.op = true)))
        ∨ e.kind = .drain 3 ∨ ∃ sc n slot, e.kind = .release sc (.signal n slot true)) →
      exec (.accessPerform k p.id) s = .next s

/-- R118, R127: nothing else holds an access back. With nothing earlier of its unit, and no store of its core between the L2 boundary and its point of
coherence, every entry of the pending list may perform; and after one earlier access of another bundle an access may perform that shares no byte with it,
where the earlier one is no acquire and outside the own column, one of the two is weak, neither goes through a view, and neither walks nodes. -/
def Sys2Proof.Claim.OtherAccessesMayPass : Prop :=
  ∀ (s : State) (k : Nat), (s.core (k / 4)).fwd = [] →
    (∀ p : Pend, mayPerform s k [] p = true)
    ∧ ∀ (e p : Pend) (x a : Access) (q : Piece) (rest : List Piece), e.kind = .access x → p.kind = .access a → a.pieces = q :: rest → e.bundle ≠ p.bundle →
        x.acquire = false → (x.strong = none ∨ a.strong = none) → x.foot = none → a.foot = none → walksNodes x.op = false → walksNodes a.op = false →
        (∀ y ∈ x.pieces, y.overlap q = false ∧ ownColumn (k / 4) y = false) → mayPerform s k [e] p = true

/-- R181, R183: a result that arrives fills exactly the places that wait for it, its flags are raised, and it is no longer on its
way. -/
def Sys2Proof.Claim.ResultsArrive : Prop :=
  ∀ (s : State) (k id : Nat) (r : Result), (s.ctx k).results.find? (·.id == id) = some r →
    ∃ c, exec (.resultArrive k id) s = .next (s.setCtx k c)
      ∧ c.results = (s.ctx k).results.filter (·.id != id) ∧ c.fpflags = (s.ctx k).fpflags ||| r.flags
      ∧ (∀ j < 32, vget c.g j ⟨0, none⟩ = if (vget (s.ctx k).g j ⟨0, none⟩).pend = some id then ⟨r.val.setWidth 64, none⟩ else vget (s.ctx k).g j ⟨0, none⟩)
      ∧ (∀ j < 32, vget c.bank j ⟨0, none⟩ = if (vget (s.ctx k).bank j ⟨0, none⟩).pend = some id then ⟨r.val.setWidth 64, none⟩ else vget (s.ctx k).bank j ⟨0, none⟩)
      ∧ (∀ j < 16, vget c.h j ⟨0, none⟩ = if (vget (s.ctx k).h j ⟨0, none⟩).pend = some id then ⟨r.val, none⟩ else vget (s.ctx k).h j ⟨0, none⟩)
      ∧ (∀ j < 16, vget c.q j ⟨false, 0, none⟩ = if (vget (s.ctx k).q j ⟨false, 0, none⟩).pend = some id
          then ⟨(vget (s.ctx k).q j ⟨false, 0, none⟩).isVec, r.val, none⟩ else vget (s.ctx k).q j ⟨false, 0, none⟩)
      ∧ { c with q := (s.ctx k).q, g := (s.ctx k).g, h := (s.ctx k).h, bank := (s.ctx k).bank, fpflags := (s.ctx k).fpflags, results := (s.ctx k).results } = s.ctx k

/-- R68, R71, R20, R388: one of the 16 oldest walks of a die may end. It inserts its translation and changes no byte of memory; where it
finds none the bundle that waits for it, under the ASID and the root of the walk, traps with the cause and the effective address, and
where a table line holds an uncorrectable error the launch is discarded. -/
def Sys2Proof.Claim.WalksEnd : Prop :=
  ∀ (s : State) (i : Nat) (w : Walk), s.walks[i]? = some w →
    let s' := { s with walks := s.walks.eraseIdx i }
    let r := walkThrough s' (w.ctx / 4) w.root w.va w.write
    let stands := (s.ctx w.ctx).wait = some (.walk w.va w.addr w.write)
    let waits := stands ∧ (s.ctx w.ctx).asid.toNat = w.asid ∧ (s.ctx w.ctx).ptroot.toNat = w.root
    (16 ≤ ((s.walks.take i).filter fun x => x.ctx / 256 = w.ctx / 256).length → exec (.walkComplete i) s = .next s)
    ∧ (((s.walks.take i).filter fun x => x.ctx / 256 = w.ctx / 256).length < 16 →
      (∀ size frame wr, r.1 = .page size frame wr →
        ∃ t, exec (.walkComplete i) s = .next t ∧ t.mem = s.mem ∧ t.walks = s'.walks
          ∧ (tlbFind t (w.ctx / 4) w.asid w.va = some ⟨w.ctx / 4, bits w.va 16 2, w.asid, size, w.va / size, frame, wr⟩)
          ∧ (stands → (t.ctx w.ctx).wait = none))
      ∧ (waits →
        (∀ c, r.1 = .fault c → exec (.walkComplete i) s = .next (takeTrap r.2 w.ctx w.slot ⟨0x04, c, some (BitVec.ofNat 64 w.addr)⟩))
        ∧ (r.1 = .phys → exec (.walkComplete i) s = .next (takeTrap r.2 w.ctx w.slot ⟨0x03, 0xB, some (BitVec.ofNat 64 w.addr)⟩))
        ∧ (∀ l, r.1 = .bad l → exec (.walkComplete i) s = .next (discardUnit r.2 w.ctx
            { memoryFault l with core := w.ctx / 4, ctx := w.ctx % 4, pc := (s.ctx w.ctx).pc })))
      ∧ (¬ waits → (∀ size frame wr, r.1 ≠ .page size frame wr) → exec (.walkComplete i) s = .next r.2)
      ∧ r.1 = walkNow s w.root w.va w.write ∧ r.2.mem = s.mem)

/-- R150: a blocked context whose condition has cleared is runnable again and changes in nothing else. -/
def Sys2Proof.Claim.BlockedContextsWake : Prop :=
  ∀ (s : State) (k : Nat) (b : Block), (s.ctx k).status = .running → (s.ctx k).wait = some (.block b) → b ≠ .emulation → (∀ core slot, b ≠ .passed core slot) →
    (blockOver s k b = true →
      exec (.contextWake k) s = .next (chooseCtx (s.setCtx k { s.ctx k with wait := none }) (k / 4)))
    ∧ (blockOver s k b = false → exec (.contextWake k) s = .next s)

/-- R254, R50, R36: outside handler code view.open of a valid descriptor, with room in the directory where WR = 1, sets TID, RANK, WR, OSCOPE and
OPEN and the shadow, and leaves the rest of the register, every other view and memory; an invalid descriptor raises DESC. -/
def Sys2Proof.Claim.ViewOpenResults : Prop :=
  ∀ (s : State) (k n : Nat) (o : Vo) (a : W64), (s.ctx k).handling = false → formFault (.viewOpen o) = none → drainPending (s.seen k) = false →
    readS (s.seen k) o.a o.f = .ok a →
    let d := s.descriptor (bitsFrom a 0 12)
    (s.ends k n o.s → descValid (bitsFrom a 0 12) d = true → (o.r = 1 → (s.core (k / 4)).dir.length < 64) →
      ∃ t, exec (.viewOpen o) s = .next t ∧ vget (t.ctx k).shadow o.w.toNat 0 = d
        ∧ (∀ j < 512, (vget (t.ctx k).w o.w.toNat 0).getLsbD j =
            if j < 12 then (dTid d).testBit j else if j < 15 then (dRank d).testBit (j - 12) else if j = 19 then true
            else if j = 20 then o.r == 1 else if j = 22 ∨ j = 23 then o.c.getLsbD (j - 22)
            else (vget (s.seen k).w o.w.toNat 0).getLsbD j)
        ∧ (∀ v, v ≠ o.w.toNat → vget (t.ctx k).w v 0 = vget (s.seen k).w v 0 ∧ vget (t.ctx k).shadow v 0 = vget (s.seen k).shadow v 0)
        ∧ (t.ctx k).g = (s.ctx k).g ∧ (t.ctx k).h = (s.ctx k).h ∧ (t.ctx k).q = (s.ctx k).q ∧ t.mem = s.mem)
    ∧ (s.issues k n → descValid (bitsFrom a 0 12) d = false → exec (.viewOpen o) s = .next (takeTrap s k n ⟨0x05, 1, none⟩))

/-- R255 to R257, R43: outside handler code view.retire clears OPEN; it is a pending release; view.set writes one origin, or the template's VEXT, M,
ORIGIN, VDIMS and EDGE, once no access through an open view is pending, and the template's line goes through the caches as a weak load's
does; view.get reads 64 bits of the register. -/
def Sys2Proof.Claim.ViewRegisterResults : Prop :=
  (∀ (s : State) (k n : Nat) (o : Vr), s.ends k n o.s → (s.ctx k).handling = false → formFault (.viewRetire o) = none → drainPending (s.seen k) = false →
    ∃ t p, exec (.viewRetire o) s = .next t
      ∧ (∀ v, vget (t.ctx k).w v 0 = if v = o.w.toNat then vget (s.seen k).w v 0 &&& ~~~openBit else vget (s.seen k).w v 0)
      ∧ (t.ctx k).pend = (s.ctx k).pend ++ [p] ∧ (∃ e, p.kind = .release o.c.toNat (.view e)) ∧ t.mem = s.mem)
  ∧ (∀ (s : State) (k n : Nat) (o : Vs) (a : W64), s.ends k n o.s → formFault (.viewSet o) = none → drainPending (s.seen k) = false →
      readS (s.seen k) o.a o.f = .ok a → (vOpen (vget (s.seen k).w o.w.toNat 0) && viewBusy (s.seen k) o.w.toNat) = false →
      let origin (w : BitVec 512) (j : Nat) : BitVec 512 :=
        (w &&& ~~~((0xFFFFFFFF : BitVec 512) <<< (64 + 32 * j))) ||| ((a.setWidth 32).setWidth 512 <<< (64 + 32 * j))
      (∀ j, o.t.toNat = j + 1 →
        exec (.viewSet o) s = .next (s.endBundle k n fun c => { c with w := vset c.w o.w.toNat (origin (vget c.w o.w.toNat 0) j) }))
      ∧ ∀ x, o.t = 0 → readRecord s k a 64 = .ok x →
          let v := BitVec.ofNat 512 x
          (1 ≤ vDims v → vDims v ≤ 4 → ∃ r : BitVec 512,
            exec (.viewSet o) s = .next (s.commitWith k n (fun s =>
              (recordTouch s k a 64).onCtx k fun c => { c with w := vset c.w o.w.toNat r }) id)
            ∧ ∀ j < 512, r.getLsbD j = if 64 ≤ j ∨ j = 16 ∨ j = 17 ∨ j = 18 ∨ j = 21 then v.getLsbD j
                else (vget (s.seen k).w o.w.toNat 0).getLsbD j)
          ∧ ((vDims v = 0 ∨ 4 < vDims v) → exec (.viewSet o) s = .next (takeTrap s k n ⟨0x05, 2, none⟩)))
  ∧ ∀ (s : State) (k n : Nat) (o : Vg) (d : Dest), s.ends k n o.s → formFault (.viewGet o) = none → drainPending (s.seen k) = false →
      destS o.d = .ok d →
      exec (.viewGet o) s = .next (s.endLate k n d false (asVec ((vget (s.seen k).w o.w.toNat 0).extractLsb' (64 * o.k.toNat) 64)) 0)

/-- R258, R259, R44, R41: a tensor access whose elements all resolve is pending with their pieces, its view and its footprint; the
checks of the view come in the order VDIMS, CLOSED, size, RDONLY. -/
def Obligations.TensorAccesses : Prop :=
  ∀ (s : State) (k n : Nat) (o : Ten) (ord : Ord) (sz : Nat) (isVec : Bool) (a : W64), drainPending (s.seen k) = false →
    sizeOf' o.z = some (sz, isVec) → readS (s.seen k) o.a 0 = .ok a →
    let v := vget (s.seen k).w o.w.toNat 0
    let d := vget (s.seen k).shadow o.w.toNat 0
    let count := if isVec then 8 * sz / elemBits (dFmt d) else 1
    let fits := isVec = true ∨ o.z = elementSize (elemBits (dFmt d))
    (s.ends k n o.s → 1 ≤ vDims v → vDims v ≤ 4 → vOpen v = true → fits →
      let through (acc : Access) : Access := { acc with view := some o.w.toNat, foot := some (v, d), index := a }
      (∀ dst ps r, formFault (.tenLd o) = none → ordOf o.o true = some ord → destOf o.d isVec = .ok dst →
        elementPieces ⟨s, k, s.seen k, n⟩ v d a false 0 count = .ok ps →
        readyAccess s k true (through (accessOf s k n .load ord 0 ps)) = .ok r →
        exec (.tenLd o) s = .next (s.queueFilling k n r dst isVec))
      ∧ ∀ x ps r, formFault (.tenSt o) = none → ordOf o.o false = some ord → vWr v = true → dataOf (s.seen k) o.d isVec = .ok x →
        elementPieces ⟨s, k, s.seen k, n⟩ v d a true 0 count = .ok ps →
        readyAccess s k true (through (accessOf s k n .store ord x ps)) = .ok r →
        exec (.tenSt o) s = .next (s.queueStore k n r))
    ∧ (s.issues k n → formFault (.tenLd o) = none → ordOf o.o true = some ord →
      ((vDims v = 0 ∨ 4 < vDims v) → exec (.tenLd o) s = .next (takeTrap s k n ⟨0x05, 2, some a⟩))
      ∧ (1 ≤ vDims v → vDims v ≤ 4 → vOpen v = false → exec (.tenLd o) s = .next (takeTrap s k n ⟨0x05, 3, some a⟩))
      ∧ (1 ≤ vDims v → vDims v ≤ 4 → vOpen v = true → ¬ fits → exec (.tenLd o) s = .next (takeTrap s k n ⟨0x02, 5, none⟩)))
    ∧ ∀ x, s.issues k n → formFault (.tenSt o) = none → ordOf o.o false = some ord → dataOf (s.seen k) o.d isVec = .ok x →
      1 ≤ vDims v → vDims v ≤ 4 → vOpen v = true → fits → vWr v = false →
      exec (.tenSt o) s = .next (takeTrap s k n ⟨0x05, 4, some a⟩)

namespace Sys2Proof.Machine

/-- A monitored wait has committed with a cause (R264): the cause is on its way to `d`, and an acquiring read acquires at its scope. -/
def State.waitCommits (s : State) (k n : Nat) (ord : Ord) (d : Dest) (cause : Nat) : State :=
  { s with nextId := s.nextId + 1 }.commitWith k n (fun t =>
    let t := t.onCtx k (·.expect d false s.nextId (asVec (BitVec.ofNat 64 cause)))
    if ord.acquire then acquireL1 t (k / 4) (s.ctx k).asid.toNat (ord.strong.getD 0) else t) id

end Sys2Proof.Machine

/-- R264, R49, R115, R133, R388: a monitored wait, acquiring or not, on scratchpad, a vault or a VA, reads the word at its point of
coherence with the VA stores that its core has still to hand on: where it differs from D the bundle commits with DIFF; where it does not,
the monitor is armed on its line and the bundle is blocked. A line with an uncorrectable error discards the launch. Once woken, the bundle
commits with the cause and reads nothing; until then it stays blocked. A context that holds a task raises WLBLOCK (R368). -/
def Sys2Proof.Claim.MonitoredWaitResults : Prop :=
  ∀ (s : State) (k n : Nat) (o : Mon) (ord : Ord) (d : Dest) (p cmp : W64), formFault (.monWait o) = none →
    drainPending (s.seen k) = false → ordOf o.o true = some ord → destS o.d = .ok d → readS (s.seen k) o.a 0 = .ok p →
    readS (s.seen k) o.d 0 = .ok cmp →
    let sz := if o.z = 2 then 4 else 8
    (s.ends k n o.s → (s.ctx k).task = none →
      (∀ m, (s.ctx k).monitor = some m → m.pc = (s.ctx k).pc →
        (∀ cause, m.woken = some cause →
          exec (.monWait o) s = .next ((s.setCtx k { s.ctx k with monitor := none }).waitCommits k n ord d cause))
        ∧ (m.woken = none → exec (.monWait o) s = .next (hold s k n (.block .monitor))))
      ∧ ∀ sp place r q key, (∀ m, (s.ctx k).monitor = some m → m.pc ≠ (s.ctx k).pc) →
          checkAddr s (who s k) p p sz true = .ok (sp, place) → ownerOk s place = true →
          readyAccess s k false (accessOf s k n .load ord 0 (piecesOf place sz)) = .ok r → r.pieces = [q] →
          (q.place = .mem key ∨ ∃ va, q.place = .va va key) →
          mayPerform s k (s.ctx k).pend ⟨0, (s.ctx k).bundleNo, .access { r with slot := n }⟩ = true →
          let t := touchCaches s (k / 4) key false false
          let cur := coreRead s (k / 4) key sz % 2 ^ (8 * sz)
          (∀ l, badLine? s key sz = some l → exec (.monWait o) s = .next (stopAt t k n (.dead (memoryFault (key / 128)))))
          ∧ (badLine? s key sz = none →
            (cur ≠ cmp.toNat % 2 ^ (8 * sz) → exec (.monWait o) s = .next (t.waitCommits k n ord d 0))
            ∧ (cur = cmp.toNat % 2 ^ (8 * sz) → exec (.monWait o) s = .next (hold (t.setCtx k { t.ctx k with
                monitor := some ⟨key / 128, s.clk, if o.t = 0 then none else some (s.clk + 2 ^ o.t.toNat), none, (s.ctx k).pc⟩ }) k n
                (.block .monitor)))))
    ∧ (s.issues k n → (s.ctx k).task.isSome = true → exec (.monWait o) s = .next (takeTrap s k n ⟨0x0C, 0, none⟩))

/-- R62, R67, R264, R265: the first wake cause of an armed monitor is kept: a timeout once its time has come, a spurious wake at any time,
every write that performs on its line, and EVICT where the line leaves an L2 slice or the LLC, or the SPLIT of the column is converted whose
scratchpad, vault or L2 holds it. -/
def Sys2Proof.Claim.MonitorsWake : Prop :=
  (∀ (s : State) (k : Nat) (m : Monitor), (s.ctx k).monitor = some m → m.woken = none →
    (∃ t, exec (.spuriousWake k) s = .next t ∧ (t.ctx k).monitor = some { m with woken := some 5 } ∧ t.mem = s.mem)
    ∧ (∀ u, m.until' = some u → u ≤ s.clk →
      ∃ t, exec (.monTimeout k) s = .next t ∧ (t.ctx k).monitor = some { m with woken := some 3 } ∧ t.mem = s.mem)
    ∧ ((∀ u, m.until' = some u → s.clk < u) → exec (.monTimeout k) s = .next s)
    ∧ (∀ key n v : Nat, m.line ∈ linesOf key n → ((performWrite s key n v).ctx k).monitor = some { m with woken := some 1 })
    ∧ (∀ l : L2Line, l.line = m.line → ((l2Gone s l).ctx k).monitor = some { m with woken := some 2 })
    ∧ ((∃ l ∈ s.llc, l.line = m.line) → ((llcEvict s m.line).ctx k).monitor = some { m with woken := some 2 })
    ∧ ∀ core new : Nat, splitRequest s core = some new → columnQuiet s core = true → new ≠ s.split core → new ≤ 12 →
        let key := m.line * 128
        ((isSp key = true ∧ spCore key = core) ∨ (isDram key = true ∧ dramCore key = core)
          ∨ (isLpddr key = true ∧ ∃ l ∈ s.l2, l.column = core ∧ l.line = m.line)) →
        ∃ t, exec (.splitConversion core new) s = .next t ∧ (t.ctx k).monitor = some { m with woken := some 2 })
  ∧ ∀ (s : State) (k : Nat) (m : Monitor) (c : Nat), (s.ctx k).monitor = some m → m.woken = some c →
      exec (.spuriousWake k) s = .next s ∧ exec (.monTimeout k) s = .next s

/-- R267 to R269: a phase completes exactly when nothing is pending, every active signaller has signalled, and there is a signaller
or an expectation; the next phase then opens with the signals that joining members held, and the members that were leaving, or had dropped
while they joined, are gone. -/
def Sys2Proof.Claim.PhaserPhaseCompletes : Prop :=
  ∀ p : Phaser,
    (¬ (p.pend = 0 ∧ p.arr = p.nsig ∧ (0 < p.nsig ∨ p.expd = true)) → p.complete = p)
    ∧ (p.pend = 0 → p.arr = p.nsig → (0 < p.nsig ∨ p.expd = true) →
      let stay := p.members.filter fun m => m.state == .active || m.state == .joining
      p.complete.phase = (p.phase + 1) % 65536 ∧ p.complete.expd = false ∧ p.complete.pend = p.pend ∧ p.complete.credit = p.credit
      ∧ p.complete.arr = stay.countP (fun m => m.state == .joining && m.held)
      ∧ p.complete.nsig = stay.countP (fun m => m.mode == 1 || m.mode == 3)
      ∧ p.complete.members = stay.map fun m => if m.state = .joining then { m with state := .active, sigd := m.held, held := false }
          else { m with sigd := false })

/-- R141, R269, R273: an engine signal lowers PEND, or is banked where PEND is 0 up to 65,535; an expectation takes from the credit
first. -/
def Sys2Proof.Claim.PhaserExpectations : Prop :=
  ∀ (p : Phaser) (count : Nat),
    (p.pend = 0 → p.credit ≤ 65535 → p.engineSignal = { p with credit := if p.credit = 65535 then 65535 else p.credit + 1 })
    ∧ (0 < p.pend → p.engineSignal = ({ p with pend := p.pend - 1 } : Phaser).settle 4)
    ∧ (let left := if count ≤ p.credit then 0 else count - p.credit
      (65535 < p.pend + left → p.expect count = none)
      ∧ (p.pend + left ≤ 65535 →
        p.expect count = some (({ p with credit := if count ≤ p.credit then p.credit - count else 0, pend := p.pend + left, expd := true } : Phaser).settle 4)))

/-- R268 to R273: the phaser slots, for the phaser that the place operand names and the issuing context's membership. ph.sig is a pending
release; ph.wait is blocked until phase LOCAL has completed, and that of a member which the completion has removed commits. A drop that
counts as a signal, or that follows one still to be counted, is a pending release; any other drop acts at once: it removes an active member
of a quiet slot, marks one of another slot leaving, and discards what a joining member held, which goes at the next completion. -/
def Sys2Proof.Claim.PhaserSlotResults : Prop :=
  ∀ (s : State) (k n : Nat) (b : W64),
    let core := if b.getLsbD 8 then bitsFrom b 0 8 else k / 4
    (∀ o : Ph, s.ends k n o.s → readS (s.seen k) o.b o.g = .ok b →
      let p := s.phaser core o.p.toNat
      let waited := s.commitWith k n (fun s => acquireL1 (waitedSlot s k core o.p.toNat) (k / 4) (s.ctx k).asid.toNat o.c.toNat) id
      (formFault (.phWait o) = none → drainPending (s.seen k) = false → (s.ctx k).task = none →
        ((s.ctx k).wait = some (.block (.passed core o.p.toNat)) → exec (.phWait o) s = .next waited)
        ∧ ∀ m, p.member? (k / 4) (k % 4) = some m → m.mode = 2 ∨ m.mode = 3 →
          (phaseDone p.phase m.local' = true → exec (.phWait o) s = .next waited)
          ∧ (phaseDone p.phase m.local' = false → m.mode = 2 ∨ m.local' ≠ p.phase ∨ m.sigd = true ∨ m.pending = true ∨ m.held = true →
            (s.ctx k).wait ≠ some (.block (.passed core o.p.toNat)) →
            exec (.phWait o) s = .next (hold s k n (.block (.phase core o.p.toNat m.local')))))
      ∧ (∀ m, p.member? (k / 4) (k % 4) = some m → formFault (.phSig o) = none → m.mode = 1 ∨ m.mode = 3 →
        m.sigd = false → m.pending = false → m.held = false →
        exec (.phSig o) s = .next (s.commitWith k n id fun s => addPend (s.setPhaser core o.p.toNat
          ((s.phaser core o.p.toNat).update (k / 4) (k % 4) fun m => { m with pending := true })) k
          (.release o.c.toNat (.signal core o.p.toNat false))))
      ∧ ∀ m, p.member? (k / 4) (k % 4) = some m → formFault (.phDrop o) = none →
        let quiet := p.arr = 0 ∧ p.pend = 0 ∧ p.expd = false
        let counts := m.state = .active ∧ ¬ quiet ∧ (m.mode = 1 ∨ m.mode = 3) ∧ m.sigd = false
        let joins := m.state = .joining ∨ m.state = .quitting
        let slot (f : Phaser → Phaser) : Host.Outcome State Fault Refusal :=
          .next (s.commitWith k n id fun s => s.putPhaser core o.p.toNat (f (s.phaser core o.p.toNat)))
        (slotBusy (s.ctx k) core o.p.toNat = true →
          exec (.phDrop o) s = .next (s.commitWith k n id (addPend · k (.release o.c.toNat (.signal core o.p.toNat true)))))
        ∧ (slotBusy (s.ctx k) core o.p.toNat = false →
          (counts → exec (.phDrop o) s = .next (s.commitWith k n id fun s => addPend (s.setPhaser core o.p.toNat
            ((s.phaser core o.p.toNat).update (k / 4) (k % 4) fun m => { m with pending := true })) k
            (.release o.c.toNat (.signal core o.p.toNat true))))
          ∧ (joins → exec (.phDrop o) s = slot (·.update (k / 4) (k % 4) fun m => { m with state := .quitting, held := false }))
          ∧ (¬ joins → quiet → exec (.phDrop o) s = slot fun p =>
              let ms := p.members.filter fun m => ¬ (m.core = k / 4 ∧ m.ctx = k % 4)
              { p with members := ms, nsig := ms.countP fun m => (m.mode == 1 || m.mode == 3) && (m.state == .active || m.state == .leaving) })
          ∧ (¬ joins → ¬ quiet → m.mode = 2 ∨ m.sigd = true → exec (.phDrop o) s =
              slot (·.update (k / 4) (k % 4) fun m => { m with state := .leaving }))))
    ∧ (∀ o : PhR, s.ends k n o.s → readS (s.seen k) o.b o.g = .ok b → formFault (.phReg o) = none →
      let p := s.phaser core o.p.toNat
      p.member? (k / 4) (k % 4) = none → p.members.length < 16 →
      let with' (m : Member) (count : Bool) : Phaser := { p with members := p.members ++ [m], nsig :=
        (if count then (p.members ++ [m]).countP (fun m => (m.mode == 1 || m.mode == 3) && (m.state == .active || m.state == .leaving)) else p.nsig) }
      (p.arr = 0 → p.pend = 0 → p.expd = false → exec (.phReg o) s = .next (s.commitWith k n id
        (·.putPhaser core o.p.toNat (with' ⟨k / 4, k % 4, o.m.toNat, false, false, false, p.phase, .active⟩ true))))
      ∧ (¬ (p.arr = 0 ∧ p.pend = 0 ∧ p.expd = false) → exec (.phReg o) s = .next (s.commitWith k n id
        (·.putPhaser core o.p.toNat (with' ⟨k / 4, k % 4, o.m.toNat, false, false, false, (p.phase + 1) % 65536, .joining⟩ false)))))
    ∧ ∀ o : PhE, s.ends k n o.s → readS (s.seen k) o.b o.g = .ok b → formFault (.phExpect o) = none →
      ∀ q, (s.phaser core o.p.toNat).expect (bitsFrom b 16 16) = some q →
      exec (.phExpect o) s = .next (s.commitWith k n id (·.putPhaser core o.p.toNat q))

/-- R122, R269 to R271: a pending signal or drop that may act on a phaser slot counts: an active member's signal raises ARR and sets SIGD, a
joining member's is held for the phase that it joins, and a drop that counts as a signal does both and marks the member leaving. Where the
completion removes a leaving member that is blocked on the phase that has completed, its wait is over, and it alone among the contexts of the
slot's members changes. -/
def Sys2Proof.Claim.PhaserSignalResults : Prop :=
  (∀ (s : State) (k id : Nat) (e : Pend) (scope core slot : Nat) (drop : Bool) (m : Member), (s.ctx k).pend.find? (·.id == id) = some e →
    mayPerform s k (pendBefore (s.ctx k).pend id) e = true → e.kind = .release scope (.signal core slot drop) →
    (s.phaser core slot).member? (k / 4) (k % 4) = some m →
    let p := s.phaser core slot
    let acts (q : Phaser) : Prop := exec (.accessPerform k id) s = .next ((dropPend s k id).putPhaser core slot q)
    let raised (f : Member → Member) : Phaser := ({ p.update (k / 4) (k % 4) f with arr := p.arr + 1 } : Phaser).settle 4
    (drop = false → m.state = .active ∨ m.state = .leaving → acts (raised fun m => { m with sigd := true, pending := false }))
    ∧ (drop = false → m.state = .joining ∨ m.state = .quitting →
        acts (p.update (k / 4) (k % 4) fun m => { m with held := true, pending := false }))
    ∧ (drop = true → m.state = .active → ¬ (p.arr = 0 ∧ p.pend = 0 ∧ p.expd = false) → m.mode = 1 ∨ m.mode = 3 → m.sigd = false →
        acts (raised fun m => { m with state := .leaving, sigd := true, pending := false })))
  ∧ ∀ (s : State) (core slot : Nat) (p : Phaser) (k : Nat),
      let gone (m : Member) : Prop := m ∈ (s.phaser core slot).members ∧ m.state = .leaving ∧ p.member? m.core m.ctx = none ∧ m.ctx < 4
      ((∀ m, gone m → m.core * 4 + m.ctx ≠ k) → (satisfyLeft s core slot p).ctx k = s.ctx k)
      ∧ (∀ m, gone m → m.core * 4 + m.ctx = k → (s.ctx k).wait = some (.block (.phase core slot m.local')) → phaseDone p.phase m.local' = true →
        (satisfyLeft s core slot p).ctx k = { s.ctx k with wait := some (.block (.passed core slot)) })

/-- R274: the phaser traps and their causes, with nothing of the bundle committed. -/
def Sys2Proof.Claim.PhaserConditionsTrap : Prop :=
  ∀ (s : State) (k n : Nat) (b : W64), s.issues k n →
    let core := if b.getLsbD 8 then bitsFrom b 0 8 else k / 4
    let trap (c : Nat) : Host.Outcome State Fault Refusal := .next (takeTrap s k n ⟨0x09, c, none⟩)
    (∀ o : Ph, readS (s.seen k) o.b o.g = .ok b →
      let m? := (s.phaser core o.p.toNat).member? (k / 4) (k % 4)
      (formFault (.phSig o) = none → (∀ m, m? = some m → m.mode = 2) → exec (.phSig o) s = trap 1)
      ∧ (formFault (.phDrop o) = none → m? = none → exec (.phDrop o) s = trap 1)
      ∧ (formFault (.phWait o) = none → drainPending (s.seen k) = false → (s.ctx k).task = none → (∀ m, m? = some m → m.mode = 1) →
        (s.ctx k).wait ≠ some (.block (.passed core o.p.toNat)) → exec (.phWait o) s = trap 1)
      ∧ (∀ m, m? = some m → formFault (.phSig o) = none → m.mode = 1 ∨ m.mode = 3 → m.sigd = true ∨ m.pending = true ∨ m.held = true →
        exec (.phSig o) s = trap 2)
      ∧ (∀ m, m? = some m → formFault (.phWait o) = none → drainPending (s.seen k) = false → (s.ctx k).task = none → m.mode = 3 →
        m.local' = (s.phaser core o.p.toNat).phase → m.sigd = false → m.pending = false → m.held = false → m.local' < 65536 →
        (s.ctx k).wait ≠ some (.block (.passed core o.p.toNat)) → exec (.phWait o) s = trap 3))
    ∧ (∀ o : PhR, readS (s.seen k) o.b o.g = .ok b → formFault (.phReg o) = none →
      let p := s.phaser core o.p.toNat
      (∀ m, p.member? (k / 4) (k % 4) = some m → exec (.phReg o) s = trap 5)
      ∧ (p.member? (k / 4) (k % 4) = none → 16 ≤ p.members.length → exec (.phReg o) s = trap 4))
    ∧ ∀ o : PhE, readS (s.seen k) o.b o.g = .ok b → formFault (.phExpect o) = none →
      (s.phaser core o.p.toNat).expect (bitsFrom b 16 16) = none → exec (.phExpect o) s = trap 6

/-- R301 to R304: the engine parameters and registers, and the engine's drain. mat.cfg and mat.pert need a drained engine. -/
def Obligations.MatrixParameters : Prop :=
  (∀ (s : State) (k n : Nat) (o : PnS) (a : W64), s.ends k n o.s → formFault (.matSetp o) = none → readS (s.seen k) o.a o.f = .ok a →
    exec (.matSetp o) s = .next (s.endBundle k n fun c => { c with p := vset c.p o.n.toNat a }))
  ∧ (∀ (s : State) (k n : Nat) (o : PnG) (d : Dest), s.ends k n o.s → formFault (.matGetp o) = none → destS o.d = .ok d →
      exec (.matGetp o) s = .next (s.endLate k n d false (asVec (vget (s.seen k).p o.n.toNat 0)) 0))
  ∧ (∀ (s : State) (k n : Nat) (o : En), s.ends k n o.s → formFault (.matDrain o) = none →
      let me := k / 4 * 2 + o.e.toNat
      let idle := (s.engine me).queue = [] ∧ ∀ v ∈ s.savedCalls, v.engine ≠ me
      (idle → exec (.matDrain o) s = .next (s.commitWith k n (fun s =>
        acquireL1 (s.setEngine me { s.engine me with drained := true }) (k / 4) (s.ctx k).asid.toNat 2) id))
      ∧ (¬ idle → exec (.matDrain o) s = .next (hold s k n (.block (.engineIdle me)))))
  ∧ (∀ (s : State) (k n : Nat) (o : EnA) (a : W64), formFault (.matCfg o) = none → readS (s.seen k) o.a o.f = .ok a →
      let me := k / 4 * 2 + o.e.toNat
      let fits (f : Nat) : Prop := f ≤ 5 ∨ f = 7
      let legal := a.toNat < 256 ∧ fits (bitsFrom a 0 4) ∧ fits (bitsFrom a 4 4)
      (s.ends k n o.s → legal → (s.engine me).drained = true →
        exec (.matCfg o) s = .next (s.commitWith k n (fun s => s.setEngine me { s.engine me with mfmt := a }) id))
      ∧ (s.issues k n → ¬ legal → exec (.matCfg o) s = .next (takeTrap s k n ⟨0x02, 5, none⟩))
      ∧ (s.issues k n → legal → (s.engine me).drained = false → exec (.matCfg o) s = .next (takeTrap s k n ⟨0x0A, 1, none⟩)))
  ∧ ∀ (s : State) (k n : Nat) (o : EnA2) (a b : W64), formFault (.matPert o) = none → readS (s.seen k) o.a o.f = .ok a →
      readS (s.seen k) o.b o.g = .ok b →
      let me := k / 4 * 2 + o.e.toNat
      let legal := bitsFrom a 0 2 ≠ 3 ∧ bitsFrom a 2 1 = 0 ∧ bitsFrom a 4 16 = 0 ∧ bitsFrom b 23 8 ≠ 255
      (s.ends k n o.s → legal → (s.engine me).drained = true → exec (.matPert o) s = .next (s.commitWith k n (fun s =>
        s.setEngine me { s.engine me with pert := a, sigma := b.setWidth 32 }) id))
      ∧ (s.issues k n → ¬ legal → exec (.matPert o) s = .next (takeTrap s k n ⟨0x02, 5, none⟩))
      ∧ (s.issues k n → legal → (s.engine me).drained = false → exec (.matPert o) s = .next (takeTrap s k n ⟨0x0A, 1, none⟩))

/-- R299, R99, R308: a call that passes its checks, with room in the engine's queue beside the calls that a pre-emption has saved, is accepted
with a snapshot of the parameters and registers; its declared accumulators and the lines of its declared tiles become empty, the engine is no longer
drained, and a sparse call moves mpc on by 32 (not that of a unit whose handler runs). A pair with an FP16 side goes to firmware first, which lets the
call go on. A routine that is not valid or has no declaration traps, and a full queue blocks. -/
def Obligations.MatrixCalls : Prop :=
  ∀ (s : State) (k n : Nat) (o : MC), formFault (.matCall o) = none →
    let me := k / 4 * 2 + o.e.toNat
    let x := s.engine me
    let p := (s.ctx k).p
    let fp16 := bitsFrom x.mfmt 0 4 = 5 ∨ bitsFrom x.mfmt 4 4 = 5
    let used := x.queue.length + s.savedCalls.countP (·.engine == me)
    (s.issues k n → fp16 → (s.ctx k).wait ≠ some (.block .emulation) → exec (.matCall o) s = .next (hold s k n (.block .emulation)))
    ∧ ((¬ fp16 ∨ (s.ctx k).wait = some (.block .emulation)) →
    (∀ (accw parw : Nat) (mask : Option (BitVec 256)), s.ends k n o.s → callDecl s me o.r.toNat = .ok (accw, parw) →
      callMask ⟨s, k, s.seen k, n⟩ (o.x == 1) = .ok mask → (∀ j < 8, parw.testBit j = true → tileOk s (k / 4) p j 128 = true) →
      (∀ l ∈ declLines (k / 4) p parw, l / 32 ∈ s.engineTiles) →
      (used < 8 → x.writes = [] → ∃ t c, exec (.matCall o) s = .next t
        ∧ (t.engine me).queue = x.queue ++ [c] ∧ (t.engine me).drained = false ∧ t.mem = s.mem
        ∧ c.params = p ∧ c.pert = x.pert ∧ c.sigma = x.sigma ∧ c.mfmt = x.mfmt ∧ c.mask = mask ∧ c.routine = o.r.toNat
        ∧ c.launch = (s.ctx k).unit.launch ∧ c.core = k / 4 ∧ c.ctx = k % 4 ∧ c.started = false ∧ c.word = 0 ∧ c.accw = accw ∧ c.parw = parw
        ∧ (o.p.toNat < 48 → c.ph = o.p.toNat ∧ c.phase = (s.phaser (k / 4) o.p.toNat).phase)
        ∧ (∀ j < 8, accw.testBit j = true → (vget (t.engine me).acc j ⟨true, []⟩).full = false)
        ∧ (∀ l ∈ declLines (k / 4) p parw, l ∈ t.emptyLines)
        ∧ ((s.ctx k).handling = false → (t.ctx k).mpc = (s.ctx k).mpc + if o.x = 1 then 32 else 0))
      ∧ (8 ≤ used ∨ x.writes ≠ [] → exec (.matCall o) s = .next (hold s k n (.block (.engineQueue me)))))
    ∧ ∀ cause, s.issues k n → callDecl s me o.r.toNat = .error cause → exec (.matCall o) s = .next (takeTrap s k n ⟨0x0A, cause, none⟩))

namespace Sys2Proof.Machine

/-- The call `c` runs on engine `e`, and nothing has asked it to stop. -/
def microRuns (s : State) (e : Nat) (c : MatCall) : Prop := s.running e = some c ∧ c.stop = false

/-- A micro-operation has given engine `e` the contents `x` and the running call the form `c`, and nothing else. -/
def afterMicro (s : State) (e : Nat) (x : Engine) (c : MatCall) : State := s.setEngine e (setHead x c)

/-- Element (i, j) of an accumulator tile. -/
def accAt (t : AccTile) (i j : Nat) : W32 := (tget t.elems (128 * i + j)).getD 0

end Sys2Proof.Machine

/-- R300, R307, R147, R316: the micro-operations of declaration, parameters, loop counters, signals and the end. A counter set or looped at 0
is the fault 0xD; a loop goes back until its counter reaches 0; the end removes the call and fills what it had emptied. A call that is to stop
does so before a word with IP = 1, be it the end, runs to its end where no such word comes, and sends no signal before: that it stops at no other
word is the model's choice (log 27). -/
def Obligations.MicroControl : Prop :=
  (∀ (s : State) (e : Nat) (m : Micro) (c : MatCall), s.running e = some c → c.stop = true →
    (m.ip = 1 → exec (.muEnd e m) s = .next (stopHead s e c) ∧ exec (.muSig e m) s = .next (stopHead s e c) ∧ exec (.muMac e m) s = .next (stopHead s e c)
      ∧ exec (.muLda e m) s = .next (stopHead s e c) ∧ exec (.muStacc e m) s = .next (stopHead s e c))
    ∧ (m.ip = 0 → m.imm.toNat % 64 < 48 → exec (.muSig e m) s =
        .next (afterMicro s e (s.engine e) { c with word := c.word + 1 })))
  ∧ (∀ (s : State) (e : Nat) (m : Micro) (c : MatCall), s.running e = some c → (c.stop = true → m.ip = 0) →
    let x := s.engine e
    x.writes = [] → ∃ t, exec (.muEnd e m) s = .next t ∧ (t.engine e).queue = x.queue.tail ∧ t.mem = s.mem
        ∧ (∀ l ∈ c.lines, l ∉ t.emptyLines) ∧ (∀ j < 8, c.accw.testBit j = true → (vget (t.engine e).acc j ⟨true, []⟩).full = true)
        ∧ (t.engine e).b = x.b ∧ (t.engine e).latches = x.latches ∧ (t.engine e).satcnt = x.satcnt)
  ∧ ∀ (s : State) (e : Nat) (m : Micro) (c : MatCall), microRuns s e c →
    let x := s.engine e
    let d := { c with word := c.word + 1 }
    (c.word = 0 → exec (.muDecl e m) s = .next (afterMicro s e x d))
    ∧ (c.word ≠ 0 → exec (.muDecl e m) s = .next (engineFault s e c 8))
    ∧ (∃ q, exec (.muPadd e m) s = .next (afterMicro s e x { d with params := vset c.params m.pa.toNat q })
        ∧ bitsFrom q 0 22 = (bitsFrom (c.p m.pa.toNat) 0 22 + m.imm.toNat) % 2 ^ 22
        ∧ ∀ j, 22 ≤ j → q.getLsbD j = (c.p m.pa.toNat).getLsbD j)
    ∧ (∃ q, exec (.muLbadd e m) s = .next (afterMicro s e x { d with params := vset c.params m.pb.toNat q })
        ∧ (bitsFrom q 0 40 : Int) = ((bitsFrom (c.p m.pb.toNat) 0 40 : Int) + m.imm.toInt) % 2 ^ 40
        ∧ ∀ j, 40 ≤ j → q.getLsbD j = (c.p m.pb.toNat).getLsbD j)
    ∧ (m.imm ≠ 0 → exec (.muCset e m) s = .next (afterMicro s e x (if m.x = 1 then { d with n1 := m.imm.toNat } else { d with n0 := m.imm.toNat })))
    ∧ (m.imm = 0 → exec (.muCset e m) s = .next (engineFault s e c 0xD))
    ∧ (let v := if m.x = 1 then c.n1 else c.n0
      let set (w : MatCall) (v : Nat) : MatCall := if m.x = 1 then { w with n1 := v } else { w with n0 := v }
      let target := m.imm.toNat % 4096
      (v = 0 → exec (.muCloop e m) s = .next (engineFault s e c 0xD))
      ∧ (v = 1 → exec (.muCloop e m) s = .next (afterMicro s e x (set d 0)))
      ∧ (1 < v → target < bitsFrom (s.mdir e c.routine) 12 13 →
        exec (.muCloop e m) s = .next (afterMicro s e x (set { d with word := target } (v - 1))))
      ∧ (1 < v → bitsFrom (s.mdir e c.routine) 12 13 ≤ target → exec (.muCloop e m) s = .next (engineFault s e c 8)))
    ∧ (m.imm.toNat % 64 < 48 → exec (.muSig e m) s =
        .next (let t := engineSignal s c.core (m.imm.toNat % 64); t.setEngine e (setHead (t.engine e) d)))
    ∧ (48 ≤ m.imm.toNat % 64 → exec (.muSig e m) s = .next (engineFault s e c 8))

/-- R307, R311, R94: the accumulator micro-operations change the declared tile that they name, element by element, and nothing else but the
call's place. A tile that the call did not declare is the fault 0xB. That a position beyond either operand gives a zero product against NaN and infinity too is a reading of the model (log 33). -/
def Obligations.MicroAccumulators : Prop :=
  ∀ (s : State) (e : Nat) (m : Micro) (c : MatCall), microRuns s e c →
    let x := s.engine e
    let d := { c with word := c.word + 1 }
    let a := m.acc.toNat
    let old := vget x.acc a ⟨true, []⟩
    (c.accw.testBit a = false → exec (.muZacc e m) s = .next (engineFault s e c 0xB) ∧ exec (.muMac e m) s = .next (engineFault s e c 0xB)
      ∧ exec (.muAccadd e m) s = .next (engineFault s e c 0xB) ∧ exec (.muLdacc e m) s = .next (engineFault s e c 0xB))
    ∧ (c.accw.testBit a = true → Tbl.rising old.elems →
      (exec (.muZacc e m) s = .next (afterMicro s e { x with acc := vset x.acc a { old with elems := [] } } d))
      ∧ (Tbl.rising (vget x.acc (m.imm.toNat % 8) ⟨true, []⟩).elems →
        ∃ new : AccTile, new.full = old.full ∧ exec (.muAccadd e m) s = .next (afterMicro s e { x with acc := vset x.acc a new } d)
          ∧ ∀ i j, i < 128 → j < 128 → accAt new i j = (fpAdd (accAt old i j) (accAt (vget x.acc (m.imm.toNat % 8) ⟨true, []⟩) i j)).1)
      ∧ (let l := vget x.latches m.la.toNat ⟨0, [], [], none⟩
        x.bCols ≤ 128 → l.rows ≤ 128 →
        ∃ new : AccTile, new.full = old.full ∧ exec (.muMac e m) s = .next (afterMicro s e { x with acc := vset x.acc a new } d)
          ∧ ∀ i j, i < 128 → j < 128 → accAt new i j =
            if i < l.rows ∧ j < x.bCols then
              (List.range (256 / (groupOf (widePair c.mfmt)).1)).foldl (fun acc q =>
                (dotGroup acc ((List.range (groupOf (widePair c.mfmt)).1).map fun z =>
                  match laElem l i (q * (groupOf (widePair c.mfmt)).1 + z), bElem x (q * (groupOf (widePair c.mfmt)).1 + z) j with
                  | some u, some v => (u, v)
                  | _, _ => (.fin false 0 0, .fin false 0 0)) (groupOf (widePair c.mfmt)).2).1) (if m.x = 1 then 0 else accAt old i j)
            else accAt old i j)
      ∧ (let p := c.p m.pa.toNat
        tileOk s c.core c.params m.pa.toNat 128 = true → tFmt p = 6 ∨ tFmt p = 4 → linesReady s (tileLinesOf c.core p) = true →
        ∃ new : AccTile, new.full = old.full ∧ exec (.muLdacc e m) s = .next (afterMicro s e { x with acc := vset x.acc a new } d)
          ∧ ∀ i j, i < 128 → j < 128 → accAt new i j =
            if i < tRows p ∧ j < tCols p then
              let v := (decodeElem (tFmt p) (tileElem s c.core p i j)).scaleE8 (tTs p)
              if v.isNan then 0x7FC00000 else (roundFp32 v).1
            else accAt old i j))

namespace Sys2Proof.Machine

/-- Logical position `q` is one that a pass of the call covers: below 128 where it is dense, set in the mask where it is sparse (R308, R309). -/
def MatCall.covers (c : MatCall) (sparse : Prop) [Decidable sparse] (q : Nat) : Prop :=
  if sparse then (c.mask.getD 0).getLsbD q = true else q < 128

/-- The stored row that holds logical position `q`: itself, or the number of kept positions below it (R309). -/
def MatCall.storedRow (c : MatCall) (sparse : Prop) [Decidable sparse] (q : Nat) : Nat :=
  if sparse then (List.range q).countP (c.mask.getD 0).getLsbD else q

/-- An element of stationary B at linear index `l` under PERT of the call (R310): W + σ × ε, rounded once; a NaN stays, an exact zero is +0. -/
def MatCall.perturbed (c : MatCall) (l : Nat) (w : Num) : W32 :=
  if bitsFrom c.pert 0 2 = 0 ∨ w.isNan = true then k19Word w
  else
    let sum := w.add ((fp32 c.sigma).mul (eps (c.pert.extractLsb' 32 32) (c.pert.extractLsb' 20 12) l (bitsFrom c.pert 0 2) (c.pert.getLsbD 3)))
    if sum.isZero = true then 0 else k19Word sum

end Sys2Proof.Machine

/-- R309, R310, R308, R93, R297: loads of stationary B and of a latch, dense and sparse, take every element of the tile, scaled and rounded to
K19, at its logical position, and stationary B perturbs it by the noise of its linear index; positions and columns that the tile does not cover hold
+0. A bad parameter, a wrong format, a mask that keeps too few positions and a tile that is not ready are the fault 9, the fault 0xA, the fault 0xC and
a wait. -/
def Obligations.MicroLoads : Prop :=
  ∀ (s : State) (e : Nat) (m : Micro) (c : MatCall), microRuns s e c → bitsFrom c.pert 0 2 ≠ 3 →
    let x := s.engine e
    let d := { c with word := c.word + 1 }
    let n := m.pa.toNat
    let p := c.p n
    let ready (rows : Nat) := linesReady s (tileLinesOf c.core p ++ scaleLines c.core c.params n rows)
    let index (q col : Nat) := (bitsFrom (c.p m.pb.toNat) 0 40 + q * bitsFrom (c.p m.pb.toNat) 40 24 + col) % 2 ^ 40
    let bPlace := tileOk s c.core c.params n 128 = true ∧ bitsFrom p 22 2 / 2 = e % 2
    let bFmt := (tFmt p).toNat = bitsFrom c.mfmt 4 4
    let kept := (List.range 256).countP (c.mask.getD 0).getLsbD
    let bMask := m.x = 1 → c.mask.isSome = true ∧ tRows p ≤ kept
    let aPlace := tileOk s c.core c.params n (if m.x = 1 then 256 else 128) = true
    let aFmt := (tFmt p).toNat = bitsFrom c.mfmt 0 4
    let aMask := m.x = 1 → c.mask.isSome = true
    (¬ bPlace → exec (.muLdb e m) s = .next (engineFault s e c 9))
    ∧ (bPlace → ¬ bFmt → exec (.muLdb e m) s = .next (engineFault s e c 0xA))
    ∧ (bPlace → bFmt → ¬ bMask → exec (.muLdb e m) s = .next (engineFault s e c 0xC))
    ∧ (bPlace → bFmt → bMask → ready (tCols p) = false → exec (.muLdb e m) s = .next s)
    ∧ (bPlace → bFmt → bMask → ready (tCols p) = true →
      ∃ (b : Tbl W32) (rows : List Nat), exec (.muLdb e m) s =
          .next (afterMicro s e { x with b := b, bRows := rows, bJunk := none, bCols := tCols p } d)
        ∧ (∀ q < 256, q ∈ rows ↔ c.covers (m.x = 1) q)
        ∧ ∀ q col, q < 256 → col < 128 →
          (c.covers (m.x = 1) q → c.storedRow (m.x = 1) q < tRows p → col < tCols p → (tget b (128 * q + col)).getD 0 =
            c.perturbed (index q col)
              (fetchK19 (tFmt p) (tTs p) (tileScale s c.core c.params n col q) (tileElem s c.core p (c.storedRow (m.x = 1) q) col)))
          ∧ (¬ c.covers (m.x = 1) q ∨ tRows p ≤ c.storedRow (m.x = 1) q ∨ tCols p ≤ col → (tget b (128 * q + col)).getD 0 = 0))
    ∧ (¬ aPlace → exec (.muLda e m) s = .next (engineFault s e c 9))
    ∧ (aPlace → ¬ aFmt → exec (.muLda e m) s = .next (engineFault s e c 0xA))
    ∧ (aPlace → aFmt → ¬ aMask → exec (.muLda e m) s = .next (engineFault s e c 0xC))
    ∧ (aPlace → aFmt → aMask → ready (tRows p) = false → exec (.muLda e m) s = .next s)
    ∧ (aPlace → aFmt → aMask → ready (tRows p) = true →
      ∃ l : Latch, exec (.muLda e m) s = .next (afterMicro s e { x with latches := vset x.latches m.la.toNat l } d)
        ∧ l.rows = tRows p ∧ l.junk = none ∧ (∀ q < 256, q ∈ l.kept ↔ c.covers (m.x = 1) q)
        ∧ ∀ r q, r < 128 → q < 256 →
          (r < tRows p → c.covers (m.x = 1) q → q < tCols p → (tget l.elems (256 * r + q)).getD 0 =
            k19Word (fetchK19 (tFmt p) (tTs p) (tileScale s c.core c.params n r q) (tileElem s c.core p r q)))
          ∧ (tRows p ≤ r ∨ ¬ c.covers (m.x = 1) q ∨ tCols p ≤ q → (tget l.elems (256 * r + q)).getD 0 = 0))

/-- R313, R297: mu.stacc writes the accumulators of a declared tile, encoded, to the tile's elements and to no other byte, makes its lines full and
counts the saturations. Its rows do not overlap. -/
def Obligations.MicroStores : Prop :=
  ∀ (s : State) (e : Nat) (m : Micro) (c : MatCall), s.canonical → microRuns s e c →
    let x := s.engine e
    let n := m.pa.toNat
    let p := c.p n
    let fits := tFmt p ≤ 7 ∨ tFmt p = 9
    let lines := tileLinesOf c.core p
    let enc (i j : Nat) := encodeElem (tFmt p) (m.x == 1) ((fp32 (accAt (vget x.acc m.acc.toNat ⟨true, []⟩) i j)).unscaleE8 (tTs p))
    (c.parw.testBit n = false → exec (.muStacc e m) s = .next (engineFault s e c 0xB))
    ∧ (c.parw.testBit n = true → tileOk s c.core c.params n 128 = false → exec (.muStacc e m) s = .next (engineFault s e c 9))
    ∧ (c.parw.testBit n = true → tileOk s c.core c.params n 128 = true → ¬ fits → exec (.muStacc e m) s = .next (engineFault s e c 0xA))
    ∧ (c.parw.testBit n = true → tileOk s c.core c.params n 128 = true → fits → (tilesOf lines).all (tileReady s) = true →
      tRowBytes p ≤ 128 * bitsFrom p 24 8 →
      ∃ t, exec (.muStacc e m) s = .next t ∧ t.emptyLines = seraseAll s.emptyLines lines
        ∧ (t.engine e).satcnt = x.satcnt + BitVec.ofNat 32 ((List.range (tRows p)).map fun i =>
            (List.range (tCols p)).countP fun j => (enc i j).saturated).sum
        ∧ (∀ i j, i < tRows p → j < tCols p → tileElem t c.core p i j = (enc i j).code)
        ∧ ∀ a, (∀ i < tRows p, ¬ (spKey c.core (bitsFrom p 22 2) (tRow p i) ≤ a ∧ a < spKey c.core (bitsFrom p 22 2) (tRow p i) + tRowBytes p)) →
            memGet t.mem a = memGet s.mem a)

namespace Sys2Proof.Machine

/-- A pointer names a whole tile of the own column: tile-aligned, on the scratchpad, passing the checks of R29 (R319). -/
def namesTile (s : State) (k : Nat) (a : W64) (t : Nat) : Prop :=
  ∃ sp key, checkAddr s (who s k) a a 1 false = .ok (sp, .mem key) ∧ isSp key = true ∧ spCore key = k / 4 ∧ bitsFrom a 0 12 = 0 ∧ key / 4096 = t

end Sys2Proof.Machine

/-- R134, R135, R319: own.give moves the tile to the engine side at once and is a release; own.take, once no command that names the tile
runs, moves it back with every line full, and is blocked before. A pointer to no tile of the own column is BADTILE. -/
def Sys2Proof.Claim.TileOwnershipResults : Prop :=
  ∀ (s : State) (k n : Nat) (o : A1) (a : W64), readS (s.seen k) o.a o.f = .ok a →
    (∀ t, s.ends k n o.s → namesTile s k a t → formFault (.ownGive o) = none →
      ∃ u p, exec (.ownGive o) s = .next u ∧ t ∈ u.engineTiles ∧ (∀ x, x ≠ t → (x ∈ u.engineTiles ↔ x ∈ s.engineTiles))
        ∧ u.emptyLines = s.emptyLines ∧ (u.ctx k).pend = (s.ctx k).pend ++ [p] ∧ p.kind = .release 2 (.give t) ∧ u.mem = s.mem)
    ∧ (∀ t, s.ends k n o.s → namesTile s k a t → formFault (.ownTake o) = none →
      (mayTake s t = true → ∃ u, exec (.ownTake o) s = .next u ∧ t ∉ u.engineTiles
        ∧ (∀ x, x ≠ t → (x ∈ u.engineTiles ↔ x ∈ s.engineTiles)) ∧ (∀ l, l ∈ u.emptyLines ↔ l ∈ s.emptyLines ∧ l / 32 ≠ t) ∧ u.mem = s.mem)
      ∧ (mayTake s t = false → exec (.ownTake o) s = .next (hold s k n (.block (.take t)))))
    ∧ ∀ sp key, s.issues k n → checkAddr s (who s k) a a 1 false = .ok (sp, .mem key) →
      (isSp key = false ∨ spCore key ≠ k / 4 ∨ bitsFrom a 0 12 ≠ 0) →
      (formFault (.ownGive o) = none → exec (.ownGive o) s = .next (takeTrap s k n ⟨0x0B, 0xD, none⟩))
      ∧ (formFault (.ownTake o) = none → exec (.ownTake o) s = .next (takeTrap s k n ⟨0x0B, 0xD, none⟩))

/-- R322, R324, R325, R137: the copy slots hand their work to the engine once every tile that they write is on the engine side, and
make the lines that they will fill empty, for a batch those of its results alone. cp.stage takes the entries of the unit's next stage and counts it. -/
def Sys2Proof.Claim.CopyCommandsAreAccepted : Prop :=
  (∀ (s : State) (k n : Nat) (o : N) (l : Launch) (es : List (Nat × BitVec 512)), s.ends k n o.s → formFault (.cpStage o) = none →
      unitLaunch s k = some l → (s.ctx k).stageCtr < bitsFrom (l.word 10) 16 8 →
      (∃ read, stageEntries ⟨s, k, s.seen k, n⟩ (l.word 9) 0 (bitsFrom (l.word 10) 0 16) = .ok (es, read)) →
      (es.all fun x => (tilesOf ((entLines (k / 4) x.2).map (·.1))).all s.engineTiles.contains) = true →
      (stageFits s (k / 4 / 8) es.length = true → ∃ t, exec (.cpStage o) s = .next t
        ∧ (t.ctx k).stageCtr = (s.ctx k).stageCtr + 1 ∧ t.mem = s.mem
        ∧ ∀ x ∈ es, ∀ y ∈ entLines (k / 4) x.2, y.1 ∈ t.emptyLines)
      ∧ (stageFits s (k / 4 / 8) es.length = false → exec (.cpStage o) s = .next (hold s k n (.block (.octant (k / 4 / 8) es.length)))))
  ∧ (∀ (s : State) (k n : Nat) (o : A2) (a b : W64) (t : Nat), s.ends k n o.s → formFault (.cpBatch o) = none →
      readS (s.seen k) o.a o.f = .ok a → readS (s.seen k) o.b o.g = .ok b → namesTile s k a t → batchOk b = true →
      let res := tileOf (spKey (k / 4) (bitsFrom b 38 2) (bitsFrom b 16 22))
      s.engineTiles.contains t = true → s.engineTiles.contains res = true →
      ∃ u c, exec (.cpBatch o) s = .next u ∧ u.batches = s.batches ++ [c] ∧ c.core = k / 4 ∧ c.ctx = k % 4 ∧ c.launch = (s.ctx k).unit.launch
        ∧ c.opnd = t ∧ c.res = res ∧ c.ctl = b ∧ u.mem = s.mem
        ∧ ∀ l, l ∈ u.emptyLines ↔ l ∈ s.emptyLines ∨ (32 * res ≤ l ∧ l ≤ 32 * res + bitsFrom b 8 8 / 16))
  ∧ ∀ (s : State) (k n : Nat) (o : A2) (a b : W64) (sp : Space) (place : Place), s.ends k n o.s → formFault (.cpRread o) = none →
      readS (s.seen k) o.a o.f = .ok a → readS (s.seen k) o.b o.g = .ok b → rreadOk b = true →
      let lines := bitsFrom b 24 5 + 1
      let dst := spKey (k / 4) (bitsFrom b 22 2) (bitsFrom b 0 22)
      bitsFrom b 12 10 * 4096 + 4096 ≤ s.spSize (k / 4) → checkAligned s (who s k) a a (128 * lines) 128 false = .ok (sp, place) →
      ∀ places, rreadPages ⟨s, k, s.seen k, n⟩ a lines = .ok places → s.engineTiles.contains (tileOf dst) = true →
      ∃ u c, exec (.cpRread o) s = .next u ∧ u.rreads = s.rreads ++ [c] ∧ c.core = k / 4 ∧ c.dst = dst ∧ c.count = lines
        ∧ c.waiting = (List.range lines).zip places
        ∧ c.ph = bitsFrom b 29 6 ∧ (∀ j < lines, dst / 128 + j ∈ u.emptyLines) ∧ u.mem = s.mem

/-- R326 to R329: a near-memory packet that its agent serves is one pending access of its vault, with its operands; a packet with a wrong
operand is NMARG before its address is translated, and a place that the agent does not serve is NMPLACE. That a header is checked as an access of
16 bytes and the link of a chase as one of 8, before anything else of the packet, and that a chase whose first link lies past its vault is no packet,
are readings of the model (log 72). -/
def Sys2Proof.Claim.NearMemoryPacketsArePending : Prop :=
  (∀ (s : State) (k n : Nat) (o : C3) (d : Dest) (a : W64) (b : Vec) (p : Place), formFault (.nmCas o) = none →
      drainPending (s.seen k) = false → destV o.d = .ok d → readS (s.seen k) o.a o.f = .ok a → readV (s.seen k) o.b o.g = .ok b →
      packetAddr ⟨s, k, s.seen k, n⟩ a 32 = .ok p →
      let w := bits b.toNat 512 3
      let legal := 1 ≤ w ∧ w ≤ 4 ∧ b.toNat < 2 ^ 515
      (∀ place, s.ends k n o.s → legal → packetPlace ⟨s, k, s.seen k, n⟩ a p true true = .ok place →
        exec (.nmCas o) s = .next (s.queueFilling k n
          (accessOf s k n (.nmCas w (b.setWidth 256)) weak (b >>> 256) [⟨place, 8 * w, 0, 64 * w, 0⟩]) d true))
      ∧ (s.issues k n → ¬ legal → exec (.nmCas o) s = .next (takeTrap s k n ⟨0x0B, 3, none⟩)))
  ∧ (∀ (s : State) (k n : Nat) (o : C3) (d : Dest) (a b : W64) (p : Place), formFault (.nmEnq o) = none →
      drainPending (s.seen k) = false → destS o.d = .ok d → readS (s.seen k) o.a o.f = .ok a → readS (s.seen k) o.b o.g = .ok b →
      packetAddr ⟨s, k, s.seen k, n⟩ a 16 = .ok p →
      let legal := bitsFrom b 0 3 = 0 ∧ (bitsFrom b 60 4 = 3 ∨ bitsFrom b 60 4 = 4)
      (s.issues k n → ¬ legal → exec (.nmEnq o) s = .next (takeTrap s k n ⟨0x0B, 4, none⟩))
      ∧ ∀ place, legal → packetPlace ⟨s, k, s.seen k, n⟩ a p true false = .ok place →
        (s.ends k n o.s → (nodeKey (k / 4) (dramCore place.key) b 0).isSome = true → exec (.nmEnq o) s = .next (s.queueFilling k n
          (accessOf s k n (.nmEnq b) weak 0 [⟨place, 16, 0, 128, 0⟩]) d false))
        ∧ (s.issues k n → nodeKey (k / 4) (dramCore place.key) b 0 = none → exec (.nmEnq o) s = .next (takeTrap s k n ⟨0x0B, 4, none⟩)))
  ∧ (∀ (s : State) (k n : Nat) (o : C2) (d : Dest) (a : W64) (p place : Place), s.ends k n o.s → formFault (.nmDeq o) = none →
      drainPending (s.seen k) = false → destS o.d = .ok d → readS (s.seen k) o.a o.f = .ok a →
      packetAddr ⟨s, k, s.seen k, n⟩ a 16 = .ok p → packetPlace ⟨s, k, s.seen k, n⟩ a p true false = .ok place →
      exec (.nmDeq o) s = .next (s.queueFilling k n (accessOf s k n .nmDeq weak 0 [⟨place, 16, 0, 128, 0⟩]) d false))
  ∧ ∀ (s : State) (k n : Nat) (o : C3) (d : Dest) (a b : W64) (p : Place), formFault (.nmChase o) = none →
      drainPending (s.seen k) = false → destS o.d = .ok d → readS (s.seen k) o.a o.f = .ok a → readS (s.seen k) o.b o.g = .ok b →
      packetAddr ⟨s, k, s.seen k, n⟩ a 8 = .ok p →
      (s.issues k n → 2 ^ 11 ≤ b.toNat → exec (.nmChase o) s = .next (takeTrap s k n ⟨0x0B, 3, none⟩))
      ∧ ∀ place, s.ends k n o.s → b.toNat < 2 ^ 11 → packetPlace ⟨s, k, s.seen k, n⟩ a p false false = .ok place →
        place.key % 0x40000000 + 8 * bitsFrom b 4 7 + 8 ≤ 0x30000000 →
        exec (.nmChase o) s = .next (s.queueFilling k n
          (accessOf s k n (.nmChase (bitsFrom b 0 4 + 1) (8 * bitsFrom b 4 7)) weak (asVec a) [⟨place, 8, 0, 64, 0⟩]) d false)

/-- R328: the agent's queue is a linked list. An enqueue makes the node the tail, behind the old tail, which it answers, or as the head too where
the queue is empty; a dequeue answers the head and leaves the node after it, and the tail is 0 where the last node leaves; an empty queue answers 0. A
stored pointer that names no node of the header's vault ends either with the answer 1 and no write. -/
def Sys2Proof.Claim.AgentQueues : Prop :=
  ∀ (s : State) (core key : Nat), s.canonical →
    let head := BitVec.ofNat 64 (memRead s.mem key 8)
    let tail := BitVec.ofNat 64 (memRead s.mem (key + 8) 8)
    let names (p : W64) (k : Nat) := p.toNat % 8 = 0 ∧ nodeKey core (dramCore key) p 0 = some k
    (∀ (node : W64) (nk : Nat), nodeKey core (dramCore key) node 0 = some nk → (nk + 8 ≤ key ∨ key + 16 ≤ nk) →
      let u := (enqueue s core key node).2.mem
      (tail = 0 → (enqueue s core key node).1 = 0
        ∧ memRead u key 8 = node.toNat ∧ memRead u (key + 8) 8 = node.toNat ∧ memRead u nk 8 = 0
        ∧ ∀ x, (x < key ∨ key + 16 ≤ x) → (x < nk ∨ nk + 8 ≤ x) → memGet u x = memGet s.mem x)
      ∧ (∀ tk, tail ≠ 0 → names tail tk → (tk + 8 ≤ key ∨ key + 16 ≤ tk) → (tk + 8 ≤ nk ∨ nk + 8 ≤ tk) →
        (enqueue s core key node).1 = tail.toNat
        ∧ memRead u key 8 = memRead s.mem key 8 ∧ memRead u (key + 8) 8 = node.toNat ∧ memRead u nk 8 = 0 ∧ memRead u tk 8 = node.toNat
        ∧ ∀ x, (x < key + 8 ∨ key + 16 ≤ x) → (x < nk ∨ nk + 8 ≤ x) → (x < tk ∨ tk + 8 ≤ x) → memGet u x = memGet s.mem x)
      ∧ (tail ≠ 0 → (∀ tk, ¬ names tail tk) → enqueue s core key node = (1, s)))
    ∧ (head = 0 → dequeue s core key = (0, s))
    ∧ (head ≠ 0 → (∀ hk, ¬ names head hk) → dequeue s core key = (1, s))
    ∧ ∀ hk, head ≠ 0 → names head hk →
      let link := memRead s.mem hk 8
      let u := (dequeue s core key).2.mem
      (link ≠ 0 → (∀ j, ¬ names (BitVec.ofNat 64 link) j) → dequeue s core key = (1, s))
      ∧ (∀ j, link ≠ 0 → names (BitVec.ofNat 64 link) j → (dequeue s core key).1 = head.toNat ∧ memRead u key 8 = link
        ∧ ∀ x, (x < key ∨ key + 8 ≤ x) → memGet u x = memGet s.mem x)
      ∧ (link = 0 → (dequeue s core key).1 = head.toNat ∧ memRead u key 8 = 0 ∧ memRead u (key + 8) 8 = 0
        ∧ ∀ x, (x < key ∨ key + 16 ≤ x) → memGet u x = memGet s.mem x)

/-- R331, R333, R335, R336: coll.run of a valid descriptor on a defined group, with BUF and OUT in tiles on the engine side and room on
the die, answers the group's sequence number, which goes up by one, makes the lines of OUT empty and starts a run at step 0; coll.abort ends every run of its group with STATUS 1;
coll.stat reads the group. That the descriptor is checked before the group is a reading of the model (log 74); 16 places of a die with no engine of
their own (log 79) and the lines of OUT that are set empty though BUF may share them (log 11) are its choices. -/
def Obligations.CollectiveSlots : Prop :=
  (∀ (s : State) (k n : Nat) (o : C2) (d : Dest) (a : W64) (v : Nat), s.ends k n o.s → formFault (.collRun o) = none → destS o.d = .ok d →
      readS (s.seen k) o.a o.f = .ok a → readRecord s k a 128 = .ok v →
      let x := BitVec.ofNat 1024 v
      let g := cdf x 4 0 6
      let valid := cdValid x = true ∧ cdPlaces x = true
      let staged := cdStaged s (k / 4) x = true
      (¬ valid → exec (.collRun o) s = .next (takeTrap s k n ⟨0x0B, 6, none⟩))
      ∧ (valid → bitsFrom (s.group g 0) 62 2 ≠ 2 → exec (.collRun o) s = .next (takeTrap s k n ⟨0x0B, 5, none⟩))
      ∧ (valid → bitsFrom (s.group g 0) 62 2 = 2 → ¬ staged → exec (.collRun o) s = .next (takeTrap s k n ⟨0x06, 2, none⟩))
      ∧ (valid → bitsFrom (s.group g 0) 62 2 = 2 → staged → (s.runs.filter (·.die == k / 4 / 64)).length < 16 →
        ∃ t r, exec (.collRun o) s = .next t ∧ (t.ctx k).results = (s.ctx k).results ++ [⟨s.nextId, asVec (BitVec.ofNat 64 (groupSeq s g)), 0⟩]
          ∧ t.runs = s.runs ++ [r] ∧ r.desc = x ∧ r.group = g ∧ r.seq = groupSeq s g ∧ r.step = 0 ∧ r.status = none ∧ r.core = k / 4
          ∧ (∀ l, l ∈ t.emptyLines ↔ l ∈ s.emptyLines ∨ l ∈ cdLines (k / 4) x (cdOut x))
          ∧ (s.canonical → groupSeq t g = (groupSeq s g + 1) % 65536) ∧ t.mem = s.mem)
      ∧ (valid → bitsFrom (s.group g 0) 62 2 = 2 → staged → 16 ≤ (s.runs.filter (·.die == k / 4 / 64)).length →
        exec (.collRun o) s = .next (hold s k n (.block (.collective (k / 4 / 64))))))
  ∧ (∀ (s : State) (k n : Nat) (o : A1) (a : W64), s.ends k n o.s → formFault (.collAbort o) = none → readS (s.seen k) o.a o.f = .ok a →
      let g := bitsFrom a 0 6
      ((s.group g 0).getLsbD 63 = true → exec (.collAbort o) s = .next (s.commitWith k n (abortGroup · g) id))
      ∧ ((s.group g 0).getLsbD 63 = false → exec (.collAbort o) s = .next (takeTrap s k n ⟨0x0B, 5, none⟩)))
  ∧ (∀ (s : State) (g : Nat), s.runs.Pairwise (fun x y => x.id ≠ y.id) →
      (abortGroup s g).runs = s.runs.map fun r => if r.group = g ∧ r.status = none then { r with status := some 1 } else r)
  ∧ ∀ (s : State) (k n : Nat) (o : C2) (d : Dest) (a : W64), s.ends k n o.s → formFault (.collStat o) = none → destS o.d = .ok d →
      readS (s.seen k) o.a o.f = .ok a →
      exec (.collStat o) s = .next (s.endLate k n d false (asVec (s.group (bitsFrom a 0 6) 0)) 0)

/-- R332, R333, R334: the collective steps. A run that meets a packet of another OPID takes no step: the packet is dropped and every run of the group
ends with STATUS 2. Each step waits until what it needs is there, then does its part and moves on; the loop step counts; the end
writes the run's record once, frees the run and signals its phaser. That a packet without a tag ends an rrs with STATUS 3 is a reading of the model
(log 83), and that the end fills what is left of the run's lines is its choice (log 11). Under ROP 0 the combined elements are free values (log 10). -/
def Obligations.CollectiveSteps : Prop :=
  ∀ (s : State) (r : CollRun) (w : StepWord), s.run? r.id = some r → r.status = none → runHeld s r = false →
    let run := r.id
    ((∃ p ∈ s.packets, p.group = r.group ∧ p.seq = r.seq ∧ p.opid ≠ r.opid) →
      ∀ i ∈ [Instr.collSend run w, .collRecv run w, .collRrs run w, .collCopy run w, .collWait run w, .collLoop run w], ∃ t, exec i s = .next t
        ∧ (∀ p, p ∈ t.packets ↔ p ∈ s.packets ∧ ¬ (p.group = r.group ∧ p.seq = r.seq ∧ p.opid ≠ r.opid))
        ∧ (∀ q ∈ t.runs, q.group = r.group → q.status ≠ none) ∧ (∃ q ∈ t.runs, q.id = run ∧ q.status = some 2) ∧ t.mem = s.mem)
    ∧ ((∀ p ∈ s.packets, p.group = r.group → p.seq = r.seq → p.opid = r.opid) →
      let c := stepChunk s r w
      let buf := word r.desc 1
      let far := rankAt s r.group (sdelta w.pd)
      let near := rankAt s r.group (-(sdelta w.pd))
      let goes (t : State) (q : CollRun) : Host.Outcome State Fault Refusal := .next (t.putRun { q with started := true })
      (chunkReady s r buf c = true → w.start = 0 → exec (.collSend run w) s =
          goes (sendPacket s r far none (toBytes (chunkRead s r buf c) (cdBytes r.desc))) (r.named far).next)
      ∧ (chunkReady s r buf c = true → w.start = 1 → exec (.collSend run w) s =
          goes (sendPacket s r far (some (groupRanks s r.group).2) (wordsBytes (packWords r.desc (chunkRead s r buf c)))) (r.named far).next)
      ∧ (chunkReady s r buf c = false → exec (.collSend run w) s = goes s (r.named far))
      ∧ (nextPacket s r far = none → exec (.collRecv run w) s = goes s (r.named far))
      ∧ (nextPacket s r near = none → exec (.collRrs run w) s = goes s ((r.named near).named far))
      ∧ (∀ p, nextPacket s r far = some p → p.tag = none → chunkWritable s r (cdOut r.desc) c = true →
          exec (.collRecv run w) s = goes (chunkWrite (dropPacket s p) r c (ofBytes p.data)) { ((r.named far).next).wrote c with satcnt := r.satcnt + 0 })
      ∧ (∀ p, nextPacket s r near = some p → p.tag ≠ some ((groupRanks s r.group).2 - 1) ∨ (groupRanks s r.group).2 = 0 →
          exec (.collRrs run w) s = goes (dropPacket s p) (((r.named near).named far).ended 3))
      ∧ (∀ p j, nextPacket s r near = some p → (groupRanks s r.group).2 = j + 1 → p.tag = some j → chunkReady s r buf c = true → w.store = 0 →
          let own := packWords r.desc (chunkRead s r buf c)
          let got := bytesWords (chunkElems r.desc) p.data
          ∃ t, exec (.collRrs run w) s = goes (sendPacket t r far (some (j + 1)) (wordsBytes ((List.range own.length).map fun i =>
              combine (cdRop r.desc) (cdFmt r.desc) (s.free + 4 * i) (got.getD i 0) (own.getD i 0)))) ((r.named near).named far).next
            ∧ t.mem = s.mem ∧ t.packets = s.packets.erase p)
      ∧ (chunkReady s r buf c = true → chunkWritable s r (cdOut r.desc) c = true →
          exec (.collCopy run w) s = goes (chunkWrite s r c (chunkRead s r buf c)) (r.next.wrote c))
      ∧ (r.phase = none → exec (.collWait run w) s = goes s { r with phase := some (w.arg.toNat % 64, (s.phaser r.core (w.arg.toNat % 64)).phase) })
      ∧ (∀ q p, r.phase = some (q, p) → phaseDone (s.phaser r.core (w.arg.toNat % 64)).phase p = false → exec (.collWait run w) s = goes s r)
      ∧ (∀ q p, r.phase = some (q, p) → phaseDone (s.phaser r.core (w.arg.toNat % 64)).phase p = true →
          ∃ t, exec (.collWait run w) s = goes t { r with step := r.step + 1, phase := none } ∧ t.mem = s.mem)
      ∧ (let v := if w.cnt = 1 then r.n1 else r.n0
        let set (q : CollRun) (v : Nat) : CollRun := if w.cnt = 1 then { q with n1 := v } else { q with n0 := v }
        (v + 1 < w.limit.toNat → exec (.collLoop run w) s = goes s (set { r with step := w.arg.toNat } (v + 1)))
        ∧ (w.limit.toNat ≤ v + 1 → exec (.collLoop run w) s = goes s (set { r with step := r.step + 1 } 0)))
      ∧ (word r.desc 3 = 0 → staggerDelay s r = none → r.event = none → r.phase = none → r.stop = false →
          ∃ t, exec (.collEnd run) s = .next (engineSignal t r.core (cdf r.desc 5 40 6)) ∧ t.runs = s.runs.filter (·.id != run)
            ∧ t.emptyLines = seraseAll s.emptyLines r.lines ∧ t.mem = s.mem))

/-- R337, R338, R374: the log slots need the log enabled under the unit's ASID. log.append answers the sequence number of its entry, which is pending
from commit on, and is blocked while its slot is taken; log.replay answers the cursor and raises the limit; log.resume is pending. That a number which only a pending append or a waiting released copy holds
is LOGDUP (log 38), and that numbers go modulo 2^48 (log 75), are readings of the model. -/
def Obligations.LogSlots : Prop :=
  ∀ (s : State) (k n : Nat),
    let opened := logEn s = true ∧ (s.ctx k).asid.toNat = logAsid s
    (∀ (o : C3) (d : Dest) (a b : W64), formFault (.logAppend o) = none → destS o.d = .ok d → readS (s.seen k) o.a o.f = .ok a →
      readS (s.seen k) o.b o.g = .ok b →
      let q := appendSeq s (bitsFrom b 32 16)
      (s.issues k n → ¬ opened → exec (.logAppend o) s = .next (takeTrap s k n ⟨0x0B, 7, none⟩))
      ∧ (s.issues k n → opened → logHeld s q = true → exec (.logAppend o) s = .next (takeTrap s k n ⟨0x0B, 9, none⟩))
      ∧ (s.ends k n o.s → opened → logHeld s q = false → slotFree s q = false → exec (.logAppend o) s = .next (hold s k n (.block (.logSlot q))))
      ∧ (s.ends k n o.s → opened → logHeld s q = false → slotFree s q = true →
        ∃ t p, exec (.logAppend o) s = .next t ∧ (t.ctx k).results = (s.ctx k).results ++ [⟨s.nextId, asVec (BitVec.ofNat 64 q), 0⟩]
          ∧ (t.ctx k).pend = (s.ctx k).pend ++ [p] ∧ t.mem = s.mem
          ∧ p.kind = .release 2 (.append q (postedEntry q (logN s) (logRank s) (bitsFrom a 0 32) (bitsFrom a 32 16) (bitsFrom b 0 32)))))
    ∧ (∀ (o : C2) (d : Dest) (a : W64), formFault (.logReplay o) = none → destS o.d = .ok d → readS (s.seen k) o.a o.f = .ok a →
      (s.issues k n → ¬ opened → exec (.logReplay o) s = .next (takeTrap s k n ⟨0x0B, 7, none⟩))
      ∧ (s.ends k n o.s → opened → ∃ t, exec (.logReplay o) s = .next t
          ∧ (t.ctx k).results = (s.ctx k).results ++ [⟨s.nextId, asVec (BitVec.ofNat 64 (logCursor s)), 0⟩]
          ∧ (s.canonical → logLimit t = max (bitsFrom a 0 48) (logLimit s)) ∧ t.mem = s.mem))
    ∧ ∀ (o : A1) (a : W64), formFault (.logResume o) = none → readS (s.seen k) o.a o.f = .ok a →
      (s.issues k n → ¬ opened → exec (.logResume o) s = .next (takeTrap s k n ⟨0x0B, 7, none⟩))
      ∧ (s.issues k n → opened → ¬ (logState s = 3 ∧ s.log.waitAt = a.toNat) → exec (.logResume o) s = .next (takeTrap s k n ⟨0x0B, 8, none⟩))
      ∧ (s.ends k n o.s → opened → logState s = 3 → s.log.waitAt = a.toNat →
        exec (.logResume o) s = .next (s.commitWith k n (fun s => addPend s k (.release 2 (.resume a.toNat))) id))

/-- R339, R359, R367, R368: wl.push counts its task, which may be popped once its release has performed, and is blocked while the unit is full;
wl.pop answers DONE where the job is marked done, else takes the task of the lowest startable bucket, and is blocked where there is none; wl.done ends the
held task. That a push counts at commit is a reading of the model (log 40). -/
def Sys2Proof.Claim.WorklistSlotResults : Prop :=
  ∀ (s : State) (k n : Nat),
    (∀ (o : A2) (a b : W64), formFault (.wlPush o) = none → readS (s.seen k) o.a o.f = .ok a → readS (s.seen k) o.b o.g = .ok b →
      (s.issues k n → bitsFrom a 54 10 = 1023 → exec (.wlPush o) s = .next (takeTrap s k n ⟨0x0B, 0xB, none⟩))
      ∧ (s.ends k n o.s → bitsFrom a 54 10 ≠ 1023 → taskCount s (k / 4) < 512 → exec (.wlPush o) s = .next (s.commitWith k n (fun s =>
          addPend (countPush s (k / 4) (s.ctx k).unit.job) k (.release 2 (.push (s.ctx k).unit.job (bitsFrom b 0 8) a))) id))
      ∧ (s.ends k n o.s → bitsFrom a 54 10 ≠ 1023 → 512 ≤ taskCount s (k / 4) → exec (.wlPush o) s = .next (hold s k n (.block .bucket))))
    ∧ (∀ (o : D1) (d : Dest), formFault (.wlPop o) = none → destS o.d = .ok d →
      (s.issues k n → (s.ctx k).task.isSome = true → exec (.wlPop o) s = .next (takeTrap s k n ⟨0x0B, 0xA, none⟩))
      ∧ (s.ends k n o.s → (s.ctx k).task = none → (s.core (k / 4)).wlDone.contains (s.ctx k).unit.job = true → ∃ t, exec (.wlPop o) s = .next t
          ∧ (t.ctx k).results = (s.ctx k).results ++ [⟨s.nextId, asVec (BitVec.allOnes 64), 0⟩] ∧ (t.ctx k).task = none)
      ∧ (s.ends k n o.s → (s.ctx k).task = none → (s.core (k / 4)).wlDone.contains (s.ctx k).unit.job = false →
        popChoice s (k / 4) (s.ctx k).unit.job = none → exec (.wlPop o) s = .next (hold s k n (.block .task)))
      ∧ (∀ m x, s.ends k n o.s → (s.ctx k).task = none → (s.core (k / 4)).wlDone.contains (s.ctx k).unit.job = false →
        popChoice s (k / 4) (s.ctx k).unit.job = some (m, x) → s.wlJobs = [] →
        (∀ c, spillBase s c = none) →
        ∃ t, exec (.wlPop o) s = .next t ∧ (t.ctx k).results = (s.ctx k).results ++ [⟨s.nextId, asVec x.word, 0⟩]
          ∧ (t.ctx k).task = some (x.word, x.bucket) ∧ (t.core m).tasks = (s.core m).tasks.erase ⟨x.job, x.bucket, x.word⟩))
    ∧ ∀ o : N, formFault (.wlDone o) = none →
      (s.issues k n → (s.ctx k).task = none → exec (.wlDone o) s = .next (takeTrap s k n ⟨0x0B, 0xA, none⟩))
      ∧ (s.ends k n o.s → (s.ctx k).task.isSome = true → exec (.wlDone o) s = .next (s.commitWith k n (fun s =>
          addPend (s.onCtx k fun c => { c with task := none }) k (.release 2 (.taskDone (s.ctx k).unit.job))) id))

/-- R359, R361: the task that a pop takes stands in the own unit or in one of the same die, belongs to the unit's job, is startable under the view and DELTA, and no
startable task of the job in that unit has a lower bucket; the own unit comes first. -/
def Sys2Proof.Claim.PopTakesTheLowestBucket : Prop :=
  ∀ (s : State) (core job n : Nat) (t : Task), popChoice s core job = some (n, t) →
    t ∈ (s.core n).tasks ∧ t.job = job ∧ t.bucket ≤ viewOf s core job + wlDeltaOf s core ∧ n / 64 = core / 64
    ∧ (∀ u ∈ (s.core n).tasks, u.job = job → u.bucket ≤ viewOf s core job + wlDeltaOf s core → t.bucket ≤ u.bucket)
    ∧ ((∃ u ∈ (s.core core).tasks, u.job = job ∧ u.bucket ≤ min (viewOf s core job + wlDeltaOf s core) 255) → n = core)

/-- R389, R390: taking a trap writes FAULT_INFO, FAULT_ADDR and TRAP_PC and puts the context in handler mode, which is privileged; every
other register of the unit, every other core's contexts and memory stay as they are; a record of KIND 1 awaits its decision. The context issues nothing until
then: its own pc stays, and what the handler does with the decision is stated with FRESUME (log 8). -/
def Sys2Proof.Claim.TrapEntrySaves : Prop :=
  ∀ (s : State) (k slot : Nat) (t : Trap), (s.ctx k).status ≠ .handler →
    let at' := if t.cls = 0x01 ∨ t.cls = 0x0E then 0 else slot
    (takeTrap s k slot t).ctx k = { s.ctx k with
      status := .handler, faultInfo := BitVec.ofNat 64 (at' <<< 20 ||| t.cls <<< 8 ||| t.cause), faultAddr := t.addr.getD (s.ctx k).pc,
      trapPc := (s.ctx k).pc, record := some s.faultSeq, wait := none, handling := false }
    ∧ (takeTrap s k slot t).decisions = s.decisions ++ [⟨s.faultSeq, none, some k, none⟩]
    ∧ (who (takeTrap s k slot t) k).priv = true
    ∧ (∀ j, j / 4 ≠ k / 4 → (takeTrap s k slot t).ctx j = s.ctx j) ∧ (takeTrap s k slot t).mem = s.mem ∧ (takeTrap s k slot t).hostMem = s.hostMem
    ∧ (∀ p, s.bundle = some p → p.ctx = k → (takeTrap s k slot t).bundle = none)
    ∧ ∃ r, (takeTrap s k slot t).faultQueue = s.faultQueue ++ [r] ∧ r.seq = s.faultSeq ∧ r.kind = 1 ∧ r.cls = t.cls ∧ r.cause = t.cause
        ∧ r.slot = at' ∧ r.addr = t.addr.getD (s.ctx k).pc ∧ r.pc = (s.ctx k).pc ∧ r.core = k / 4 ∧ r.ctx = k % 4
        ∧ r.launch = some (s.ctx k).unit.launch

/-- R390: a trap in handler mode discards the unit's launch with class DOUBLE and the second trap's class as its cause. -/
def Sys2Proof.Claim.SecondTrapDiscards : Prop :=
  ∀ (s : State) (k slot : Nat) (t : Trap) (l : Launch), (s.ctx k).status = .handler → s.launch? (s.ctx k).unit.launch = some l → l.done = false →
    ∃ u r, takeTrap s k slot t = stopLaunch u l.id 5 ∧ u.faultQueue = s.faultQueue ++ [r] ∧ u.mem = s.mem
      ∧ r.kind = 3 ∧ r.cls = 0x14 ∧ r.cause = t.cls ∧ r.launch = some (s.ctx k).unit.launch ∧ r.seq = s.faultSeq

/-- R344: trap.raise commits its bundle and then traps with class SOFT, FAULT_ADDR := A and the next bundle as TRAP_PC; trap.ret leaves the handler for
TRAP_PC with every register of the unit as it is. Outside a handler trap.ret raises SYSARG, and PRIV from code that is not privileged. -/
def Sys2Proof.Claim.TrapRaiseAndReturn : Prop :=
  (∀ (s : State) (k n : Nat) (o : A1) (a : W64), s.ends k n o.s → formFault (.trapRaise o) = none → readS (s.seen k) o.a o.f = .ok a →
    exec (.trapRaise o) s = .next (takeTrap (s.endBundle k n id) k 0 ⟨0x0E, 0, some a⟩))
  ∧ ∀ (s : State) (k n : Nat) (o : N), formFault (.trapRet o) = none →
      (s.ends k n o.s → (s.ctx k).status = .handler → ∃ t, exec (.trapRet o) s = .next t
        ∧ (t.ctx k).status = .running ∧ (t.ctx k).pc = (s.ctx k).trapPc ∧ (t.ctx k).record = none ∧ (t.ctx k).wait = none
        ∧ (t.ctx k).q = (s.ctx k).q ∧ (t.ctx k).g = (s.ctx k).g ∧ (t.ctx k).h = (s.ctx k).h ∧ (t.ctx k).w = (s.ctx k).w ∧ (t.ctx k).p = (s.ctx k).p
        ∧ (t.ctx k).k = (s.ctx k).k ∧ (t.ctx k).c = (s.ctx k).c ∧ (t.ctx k).mpc = (s.ctx k).mpc ∧ (t.ctx k).fpflags = (s.ctx k).fpflags
        ∧ (t.ctx k).faultInfo = (s.ctx k).faultInfo ∧ (t.ctx k).faultAddr = (s.ctx k).faultAddr ∧ (t.ctx k).trapPc = (s.ctx k).trapPc
        ∧ (∀ seq, (s.ctx k).record = some seq → t.decisions = s.decisions.filter (·.seq != seq)) ∧ t.mem = s.mem)
      ∧ (s.issues k n → (s.ctx k).status ≠ .handler → (s.ctx k).unit.priv = true →
        exec (.trapRet o) s = .next (takeTrap s k n ⟨0x0B, 0xC, none⟩))
      ∧ (s.issues k n → (s.ctx k).status ≠ .handler → (s.ctx k).unit.priv = false →
        exec (.trapRet o) s = .next (takeTrap s k n ⟨0x03, 4, none⟩))

/-- R197, R341 to R343: from code that is neither of a PRIV launch nor the handler, the privileged slots and the writes of privileged registers
raise the address-space fault PRIV, and nothing of the bundle commits. -/
def Sys2Proof.Claim.PrivilegedSlotsTrap : Prop :=
  ∀ (s : State) (k n : Nat), s.issues k n → (s.ctx k).unit.priv = false → (s.ctx k).status ≠ .handler →
    let priv : Host.Outcome State Fault Refusal := .next (takeTrap s k n ⟨0x03, 4, none⟩)
    (∀ (o : A1) (a : W64), readS (s.seen k) o.a o.f = .ok a → bitsFrom a 4 2 = 0 →
      (formFault (.sysFlushSplit o) = none → exec (.sysFlushSplit o) s = priv) ∧ (formFault (.sysFlushL2 o) = none → exec (.sysFlushL2 o) s = priv))
    ∧ (∀ o : N, formFault (.sysShinv o) = none → exec (.sysShinv o) s = priv)
    ∧ (∀ (o : A2) (a b : W64), readS (s.seen k) o.a o.f = .ok a → readS (s.seen k) o.b o.g = .ok b → formFault (.sysTinv o) = none →
      exec (.sysTinv o) s = priv)
    ∧ ∀ (o : CsW) (v : W64), readS (s.seen k) o.a o.f = .ok v → formFault (.sysCsrw o) = none →
      o.i ∈ ([0x001, 0x002, 0x003, 0x062, 0x072] : List (BitVec 12)) → exec (.sysCsrw o) s = priv

/-- R341 to R343, R62, R72: sys.flush of an equal SPLIT completes at once and of another one blocks until the conversion is over; its other kinds, sys.shinv
once the tables are settled, and sys.tinv once no request of its pages is pending, complete without changing a byte of memory. sys.tinv removes the
entries of every page that overlaps its range, and the L1 lines of these pages. What sys.shinv and sys.tinv wait for is a reading of the model (log
56), as is that each constructor of sys.flush acts by the KIND in A (log 82). -/
def Sys2Proof.Claim.MaintenanceResults : Prop :=
  (∀ (s : State) (k n : Nat) (o : A1) (a : W64), readS (s.seen k) o.a o.f = .ok a →
    let kind := bitsFrom a 4 2
    let split := bitsFrom a 0 4
    ∀ i ∈ [Instr.sysFlushSplit o, .sysFlushL2 o, .sysFlushL2Clean o, .sysFlushL1 o], formFault i = none →
      (s.ends k n o.s → kind = 0 → (s.ctx k).unit.priv = true → split ≤ 12 → s.split (k / 4) = split → exec i s = .next (s.endBundle k n id))
      ∧ (s.ends k n o.s → kind = 0 → (s.ctx k).unit.priv = true → split ≤ 12 → s.split (k / 4) ≠ split →
        exec i s = .next (hold s k n (.block (.maintenance (some split)))))
      ∧ (s.issues k n → kind = 0 → (s.ctx k).unit.priv = true → 12 < split → exec i s = .next (takeTrap s k n ⟨0x0B, 0xC, none⟩))
      ∧ (s.ends k n o.s → kind ≠ 0 → exec i s = .next (s.commitWith k n (flushNow · k kind) id)))
  ∧ (∀ (s : State) (k n : Nat) (o : N), s.ends k n o.s → formFault (.sysShinv o) = none → (s.ctx k).unit.priv = true →
      (tablesSettled s = true → exec (.sysShinv o) s = .next (s.endBundle k n id))
      ∧ (tablesSettled s = false → exec (.sysShinv o) s = .next (hold s k n (.block (.maintenance none)))))
  ∧ (∀ (s : State) (k n : Nat) (o : A2) (a b : W64), s.ends k n o.s → formFault (.sysTinv o) = none → (s.ctx k).unit.priv = true →
      readS (s.seen k) o.a o.f = .ok a → readS (s.seen k) o.b o.g = .ok b →
      let asid := bitsFrom a 0 16
      let pages := bitsFrom a 32 32
      let first := bitsFrom b 16 32 * 65536
      (tinvQuiet s asid first pages = true → exec (.sysTinv o) s = .next (s.commitWith k n (tinvNow · asid first pages) id))
      ∧ (tinvQuiet s asid first pages = false → exec (.sysTinv o) s = .next (hold s k n (.block (.maintenance none)))))
  ∧ ∀ (s : State) (k kind asid first pages : Nat),
      (flushNow s k kind).mem = s.mem ∧ (tinvNow s asid first pages).mem = s.mem
      ∧ (kind = 3 → ∀ l ∈ ((flushNow s k kind).core (k / 4)).l1, l.asid = (s.ctx k).asid.toNat → 2 ^ 48 / 128 < l.line)
      ∧ (pages = 0 → ∀ t ∈ (tinvNow s asid first pages).tlb, t.asid ≠ asid)
      ∧ (0 < pages → first % 65536 = 0 → first < 2 ^ 48 →
        let reaches (t : TlbEntry) : Prop := t.asid = asid ∧ t.page * t.size < first + pages * 65536 ∧ first < (t.page + 1) * t.size
        (∀ t : TlbEntry, t ∈ (tinvNow s asid first pages).tlb ↔ t ∈ s.tlb ∧ ¬ reaches t)
        ∧ ∀ n < 256, ∀ t ∈ s.tlb, reaches t → ∀ l ∈ ((tinvNow s asid first pages).core n).l1, l.asid = asid →
            (l.line + 1) * 128 ≤ t.page * t.size ∨ (t.page + 1) * t.size ≤ l.line * 128)

/-- R340, R167, R168: lvl.stat reads STATE and DONE of the instance it names; lvl.cancel answers 0, 1 or 2 by the state of the instance and then cancels it. A
level or instance out of range is SYSARG, and an instance of another job is PRIV from code that is not privileged. A cancel that takes effect stops the
units of its members and every command of theirs, and those of no other launch; the entry, its member launches and the launches that depend on them
are cancelled, and no unit of them starts; accesses that are committed stay. When a command that runs stops is the model's choice (log 27). -/
def Obligations.LevelSlots : Prop :=
  (∀ (s : State) (k n : Nat) (o : C2) (d : Dest) (a : W64), destS o.d = .ok d → readS (s.seen k) o.a o.f = .ok a →
    let level := bitsFrom a 0 3
    let inst := bitsFrom a 16 16
    let bound := match level with | 0 => 1024 | 1 => 1024 | 2 => 256 | 3 => 16 | 4 => 4 | _ => 0
    let may := (s.ctx k).unit.priv = true ∨ (s.ctx k).status = .handler ∨ ∀ j, jobOfInstance s level inst = some j → j = (s.ctx k).unit.job
    (s.issues k n → bound ≤ inst →
      (formFault (.lvlStat o) = none → exec (.lvlStat o) s = .next (takeTrap s k n ⟨0x0B, 0xC, none⟩))
      ∧ (formFault (.lvlCancel o) = none → exec (.lvlCancel o) s = .next (takeTrap s k n ⟨0x0B, 0xC, none⟩)))
    ∧ (s.issues k n → inst < bound → ¬ may →
      (formFault (.lvlStat o) = none → exec (.lvlStat o) s = .next (takeTrap s k n ⟨0x03, 4, none⟩))
      ∧ (formFault (.lvlCancel o) = none → exec (.lvlCancel o) s = .next (takeTrap s k n ⟨0x03, 4, none⟩)))
    ∧ (s.ends k n o.s → inst < bound → may →
      (formFault (.lvlStat o) = none → exec (.lvlStat o) s = .next (s.endLate k n d false (asVec (levelStat s level inst)) 0))
      ∧ (formFault (.lvlCancel o) = none → exec (.lvlCancel o) s = .next
        (cancelInstance (s.endLate k n d false (asVec (BitVec.ofNat 64 (cancelInstance s level inst).1)) 0) level inst).2)))
  ∧ (∀ (s : State) (inst : Nat),
      (cancelInstance s 0 inst).1 = (if (s.ctx inst).status = .free then 2 else 0)
      ∧ (∀ p ∈ [(1, inst), (2, 1024 + inst), (3, 1280 + inst), (4, 1296 + inst)],
          (cancelInstance s p.1 inst).1 = if s.levelState p.2 = 3 then 1 else if s.levelState p.2 = 1 ∨ s.levelState p.2 = 2 then 0 else 2)
      ∧ levelStat s 0 inst = (if (s.ctx inst).status = .free then 0 else BitVec.ofNat 64 (2 * 2 ^ 61))
      ∧ (inst < 1024 → levelStat s 1 inst = BitVec.ofNat 64 (s.levelState inst * 2 ^ 61 + s.levelDone inst)))
  ∧ (∀ (s : State) (inst : Nat), (s.ctx inst).status ≠ .free →
      let u := (cancelInstance s 0 inst).2
      let mine (core ctx launch : Nat) : Prop := core = inst / 4 ∧ ctx = inst % 4 ∧ launch = (s.ctx inst).unit.launch
      (u.ctx inst).status = .stopping ∧ (u.ctx inst).wait = none ∧ (u.ctx inst).monitor = none ∧ (∀ p ∈ (s.ctx inst).pend, p ∈ (u.ctx inst).pend)
      ∧ (∀ j, j ≠ inst → (u.ctx j).status = (s.ctx j).status) ∧ u.launches = s.launches
      ∧ (∀ x, x ∈ u.copies ↔ x ∈ s.copies ∧ ¬ mine x.core x.ctx x.launch) ∧ (∀ x, x ∈ u.batches ↔ x ∈ s.batches ∧ ¬ mine x.core x.ctx x.launch)
      ∧ (∀ x, x ∈ u.rreads ↔ x ∈ s.rreads ∧ ¬ mine x.core x.ctx x.launch)
      ∧ (∀ r ∈ u.runs, mine r.core r.ctx r.launch → r.stop = true) ∧ (∀ r ∈ s.runs, ¬ mine r.core r.ctx r.launch → r ∈ u.runs)
      ∧ (∀ e, ∀ c ∈ (u.engine e).queue, mine c.core c.ctx c.launch → c.stop = true))
  ∧ ∀ (s : State) (inst : Nat), s.canonical → s.launches.Pairwise (fun x y => x.id ≠ y.id) → s.launches.countP (!·.done) ≤ 1024 →
      ∀ p : Nat × Nat × (Launch → Prop) × Nat, p ∈ [(1, inst, (fun l : Launch => l.lid = inst), 1024),
          (2, 1024 + inst, (fun l => l.graphN ≠ 0 ∧ l.graph = inst), 256), (3, 1280 + inst, (fun l => l.phaseN ≠ 0 ∧ l.phase = inst), 16),
          (4, 1296 + inst, (fun l => l.job = bitsFrom (s.level (1296 + inst) 0) 0 16), 4)] →
        inst < p.2.2.2 → s.levelState p.2.1 = 1 ∨ s.levelState p.2.1 = 2 →
        let u := (cancelInstance s p.1 inst).2
        let hit (id : Nat) : Prop := ∃ l ∈ s.launches, l.id = id ∧ l.done = false ∧ p.2.2.1 l
        u.levelState p.2.1 = 4
        ∧ (∀ l ∈ s.launches, hit l.id → u.levelState l.lid = 4 ∧ ∃ x ∈ u.launches, x.id = l.id ∧ x.done = true)
        ∧ (∀ a l b, s.launches = a ++ l :: b → hit l.id → ∀ x ∈ b, l.lid ∈ x.preds → x.done = false →
            ∃ y ∈ u.launches, y.id = x.id ∧ y.done = true)
        ∧ (∀ k, (s.ctx k).status ≠ .free → hit (s.ctx k).unit.launch → (u.ctx k).status = .stopping)
        ∧ (∀ k, (∀ c, (k, c) ∈ s.ctxs → ¬ hit c.unit.launch) → (u.ctx k).status = (s.ctx k).status)
        ∧ (∀ x, x ∈ u.copies ↔ x ∈ s.copies ∧ ¬ hit x.launch) ∧ (∀ x, x ∈ u.batches ↔ x ∈ s.batches ∧ ¬ hit x.launch)
        ∧ (∀ x, x ∈ u.rreads ↔ x ∈ s.rreads ∧ ¬ hit x.launch) ∧ (∀ r ∈ u.runs, hit r.launch → r.stop = true)
        ∧ (∀ r ∈ s.runs, ¬ hit r.launch → r ∈ u.runs) ∧ (∀ e, ∀ c ∈ (u.engine e).queue, hit c.launch → c.stop = true)

/-- R345, R197: sys.csrr gives the register as it stood before the bundle; an unassigned number is ILLEGAL with subcause CSR. The numbers that name registers
of the context, of its column and of its core's engines read those. -/
def Sys2Proof.Claim.CsrReadResults : Prop :=
  (∀ (s : State) (k n : Nat) (o : CsR) (d : Dest), formFault (.sysCsrr o) = none → destS o.d = .ok d →
    (∀ v, s.ends k n o.s → csrRead s k o.i.toNat = some v → exec (.sysCsrr o) s = .next (s.endBundle k n (·.setDest d false (asVec v) none)))
    ∧ (s.issues k n → csrRead s k o.i.toNat = none → exec (.sysCsrr o) s = .next (takeTrap s k n ⟨0x02, 6, none⟩)))
  ∧ ∀ (s : State) (k : Nat),
      let c := s.ctx k
      let e (j : Nat) := s.engine (k / 4 * 2 + j)
      csrRead s k 0x001 = some c.asid ∧ csrRead s k 0x002 = some c.asperm ∧ csrRead s k 0x003 = some c.ptroot
      ∧ csrRead s k 0x004 = some (BitVec.ofNat 64 (s.split (k / 4))) ∧ csrRead s k 0x005 = some c.pclass ∧ csrRead s k 0x006 = some (c.fpflags.setWidth 64)
      ∧ csrRead s k 0x040 = some (e 0).mfmt ∧ csrRead s k 0x041 = some (e 1).mfmt ∧ csrRead s k 0x042 = some (e 0).pert ∧ csrRead s k 0x043 = some (e 1).pert
      ∧ csrRead s k 0x044 = some ((e 0).sigma.setWidth 64) ∧ csrRead s k 0x045 = some ((e 1).sigma.setWidth 64)
      ∧ csrRead s k 0x060 = some (s.core (k / 4)).wlDelta ∧ csrRead s k 0x061 = some (s.core (k / 4)).wlCfg ∧ csrRead s k 0x062 = some (s.core (k / 4)).wlSpill
      ∧ csrRead s k 0x070 = some c.faultInfo ∧ csrRead s k 0x071 = some c.faultAddr ∧ csrRead s k 0x072 = some c.trapPc
      ∧ (k < 1024 → ∀ v, csrRead s k 0x000 = some v → bitsFrom v 0 2 = k % 4 ∧ bitsFrom v 2 8 = k / 4 ∧ bitsFrom v 10 6 = k / 4 % 64 ∧ bitsFrom v 16 2 = k / 256)
      ∧ ∀ j, (7 ≤ j ∧ j < 0x040) ∨ (0x048 ≤ j ∧ j < 0x060) ∨ (0x064 ≤ j ∧ j < 0x070) ∨ (0x073 ≤ j ∧ j < 0x0F0) ∨ 0x0F0 < j → csrRead s k j = none

/-- R345, R197, R87: sys.csrw writes at the end of the bundle the fields that its register has; FPFLAGS clears the bits written as 1. A register that may not be
written is ILLEGAL with subcause CSR. That a write of WLCFG spills and refills at once under its new marks is a reading of the model (log 64). -/
def Sys2Proof.Claim.CsrWriteResults : Prop :=
  ∀ (s : State) (k n : Nat) (o : CsW) (v : W64), formFault (.sysCsrw o) = none → readS (s.seen k) o.a o.f = .ok v →
    let may := (s.ctx k).unit.priv = true ∨ (s.ctx k).status = .handler
    let writes (f : Ctx → Ctx) : Prop := exec (.sysCsrw o) s = .next (s.commitWith k n id (·.onCtx k f))
    let writesCore (f : Core → Core) : Prop := exec (.sysCsrw o) s = .next (s.commitWith k n id fun s => s.setCore (k / 4) (f (s.core (k / 4))))
    (s.ends k n o.s →
      (o.i = 0x001 → may → writes fun c => { c with asid := v &&& 0xFFFF })
      ∧ (o.i = 0x002 → may → writes fun c => { c with asperm := v &&& 0x1E })
      ∧ (o.i = 0x003 → may → writes fun c => { c with ptroot := v &&& 0x0000FFFFFFFFF000 })
      ∧ (o.i = 0x005 → writes fun c => { c with pclass := v &&& 3 })
      ∧ (o.i = 0x006 → writes fun c => { c with fpflags := c.fpflags &&& ~~~(v.setWidth 5) })
      ∧ (o.i = 0x072 → may → writes fun c => { c with trapPc := v })
      ∧ (o.i = 0x060 → writesCore fun c => { c with wlDelta := v &&& 0xFF })
      ∧ (o.i = 0x062 → may → writesCore fun c => { c with wlSpill := v })
      ∧ (o.i = 0x061 → bitsFrom v 0 10 + 14 ≤ bitsFrom v 16 10 → bitsFrom v 16 10 ≤ 512 → exec (.sysCsrw o) s = .next (s.commitWith k n id fun s =>
          refill (spill (s.setCore (k / 4) { s.core (k / 4) with wlCfg := v &&& 0x3FF03FF }) (k / 4)) (k / 4) 512)))
    ∧ (s.issues k n → (o.i ∉ ([0x001, 0x002, 0x003, 0x005, 0x006, 0x060, 0x061, 0x062, 0x072] : List (BitVec 12))
        ∨ o.i = 0x061 ∧ ¬ (bitsFrom v 0 10 + 14 ≤ bitsFrom v 16 10 ∧ bitsFrom v 16 10 ≤ 512)) →
      exec (.sysCsrw o) s = .next (takeTrap s k n ⟨0x02, 6, none⟩))

/-- R412, R414, R415, R73, R74: bring-up checks the firmware image and self-tests the device. Where it finds nothing the device is ready at STEP 6 with
every byte 0, every line full and every tile on the thread side, the image runs, the COLCAP registers tell of each detour, and the cores have the
handler code that UMBER brings (R390; log 8); where it finds a failure FAIL and FAILCODE say so and memory stays as it is: an image whose signature does
not verify or whose version is below the rollback counter is FAILCODE 1 and does not run. It happens once. -/
def Obligations.BringUp : Prop :=
  ∀ (s : State) (r : SelfTest), s.canonical →
    (s.devReady = true ∨ s.failed = true → exec (.powerUp r) s = .next s)
    ∧ (r.verified = false ∨ r.version < s.rollback → failCode s r = 1)
    ∧ (s.devReady = false → s.failed = false → failCode s r = 0 → ∃ t, exec (.powerUp r) s = .next t ∧ t.devReady = true ∧ t.failed = false
        ∧ bitsFrom (devStatus t) 8 4 = 6 ∧ (devStatus t).getLsbD 2 = r.attest ∧ (∀ a, memGet t.mem a = 0) ∧ t.emptyLines = [] ∧ t.engineTiles = []
        ∧ t.firmware = r.image
        ∧ (∀ d ∈ r.detours, (t.mmioWord (d.1 / 64) (0x2000 + 8 * (d.1 % 64))).getLsbD 9 = true
            ∧ bitsFrom (t.mmioWord (d.1 / 64) (0x2000 + 8 * (d.1 % 64))) 10 6 = d.2 % 64
            ∧ (t.mmioWord (d.2 / 64) (0x2000 + 8 * (d.2 % 64))).getLsbD 8 = true
            ∧ bitsFrom (t.mmioWord (d.2 / 64) (0x2000 + 8 * (d.2 % 64))) 2 6 = d.1 % 64)
        ∧ (∀ n, t.core n = if n < 256 ∧ r.handler ≠ [] then { s.core n with handlerStore := r.handler } else s.core n)
        ∧ { t with mmio := s.mmio, mem := s.mem, emptyLines := s.emptyLines, engineTiles := s.engineTiles, cores := s.cores, firmware := s.firmware } = s)
    ∧ (s.devReady = false → s.failed = false → failCode s r ≠ 0 → ∃ t, exec (.powerUp r) s = .next t ∧ t.devReady = false ∧ t.failed = true
        ∧ bitsFrom (devStatus t) 12 4 = failCode s r ∧ t.firmware = (if failCode s r = 1 then s.firmware else r.image)
        ∧ { t with mmio := s.mmio, firmware := s.firmware } = s ∧ step t = .fault .bringUpFailed)

namespace Sys2Proof.Machine

/-- The issuing context of a core waits for a place in the core's view directory (R51). -/
def State.viewStalls (s : State) (core : Nat) : Prop :=
  ∃ x asked slot, (s.core core).cur = some x ∧ (s.ctx (core * 4 + x)).wait = some (.directory asked slot)

/-- FSEQ has room for every message at a port's egress in its session (R408). -/
def Port.fits (q : Port) : Prop := q.sent + (q.egress.map fun e => Config.moreSegments e.1 + 1).sum < 2 ^ 64

end Sys2Proof.Machine

/-- R77, R78, R177, R408, R413: time. A sync message sets local time, and LOCK after 16 in a row within 100 ns, and clears LOCK beyond 500 ns; DET is set only
under LOCK. At a tick boundary TICKNOW is past the last boundary, what is sent at a boundary is due, VIEWSTALL counts the clk that pass, and with DET =
1 every message at the egress of a port that is up leaves, in flits that are numbered in turn and carry their TAG, as long as FSEQ does not wrap (log
110). How far clk goes on to the boundary is the model's choice (log 50). -/
def Sys2Proof.Claim.TimeAndTicks : Prop :=
  ∀ (s : State), s.canonical →
    (∀ time : Nat,
      let offset := (time - localTime s) + (localTime s - time)
      ∃ t, exec (.ptpSync time) s = .next t ∧ localTime t = time ∧ t.syncs = (if offset ≤ 100 then min (s.syncs + 1) 16 else 0)
        ∧ t.tickLock = (if 500 < offset then false else if offset ≤ 100 ∧ 15 ≤ s.syncs then true else s.tickLock)
        ∧ t.det = s.det ∧ { t with syncs := s.syncs, mmio := s.mmio, timeClk := s.timeClk, timeNs := s.timeNs } = s)
    ∧ (∃ t, exec .tickRelease s = .next t
        ∧ tickNow t = (if s.ticked < tickNow s then tickNow s else tickNow s + 1) ∧ t.ticked = tickNow t ∧ s.clk ≤ t.clk
        ∧ (s.ticked < tickNow s → t.clk = s.clk)
        ∧ (let jobs := (slotJobs s).filter (wlEn s)
          t.agenda = (Instr.collCheckTick :: .logTickSend :: (jobs.map (fun j => Instr.wlTreeTick j) ++ jobs.map fun j => Instr.wlBalanceTick j)).map
            Turn.event ++ s.agenda)
        ∧ (∀ n, ∃ more : Nat, t.core n = { s.core n with viewStall := (s.core n).viewStall + BitVec.ofNat 64 more }
            ∧ (s.viewStalls n → more = t.clk - s.clk) ∧ (¬ s.viewStalls n → more = 0))
        ∧ (s.det = false → t.ports = s.ports ∧ t.mmio = s.mmio)
        ∧ (s.det = true → Tbl.rising s.ports → (∀ p, (s.port p).fits) → t.mmio = s.mmio
          ∧ ∀ p, (t.port p).egress.map (·.1) = (if s.portUp p then [] else (s.port p).egress.map (·.1))
            ∧ (s.portUp p = true → ∃ flits : List Flit, (t.port p).kept = (s.port p).kept ++ flits
                ∧ flits.flatMap (·.msgs) = (s.port p).egress.map (·.1) ∧ (t.port p).sent = (s.port p).sent + flits.length
                ∧ ∀ i (h : i < flits.length), flits[i].fseq = (s.port p).sent + i ∧ flits[i].tag = tagOf (s.port p).key flits[i]))
        ∧ { t with ports := s.ports, clk := s.clk, cores := s.cores, ticked := s.ticked, agenda := s.agenda, mmio := s.mmio } = s)
    ∧ ∀ v : W32, s.devReady = true →
      (v.getLsbD 0 = true → s.tickLock = false → exec (.tickDetWrite v) s = .next s)
      ∧ (v.getLsbD 0 = true → s.tickLock = true → ∃ t, exec (.tickDetWrite v) s = .next t ∧ t.det = true ∧ t.tickLock = true ∧ { t with mmio := s.mmio } = s)
      ∧ (v.getLsbD 0 = false → ∃ t, exec (.tickDetWrite v) s = .next t ∧ t.det = false ∧ t.tickLock = s.tickLock
          ∧ (Tbl.rising s.ports → (∀ p, (s.port p).fits) → ∀ p, s.portUp p = true → (t.port p).egress = []) ∧ { t with ports := s.ports, mmio := s.mmio } = s)

/-- R357, R416: the slew governor moves GOV by one step and HOLD with it, and IEST stays within the slew limit of the interval before; heat sets TEMP
and from then on brings GOV down, a step in each interval, for a die at TTRIP until it is below TLIM; what an event of heat changes is TEMP and the dies
that have tripped. -/
def Sys2Proof.Claim.PowerAndHeat : Prop :=
  ∀ (s : State), s.canonical →
    let stat := s.mmioWord 0 0x308
    let temp (s : State) (d : Nat) := bitsFrom (s.mmioWord 0 0x328) (8 * d) 8
    let tlim := bitsFrom (s.mmioWord 0 0x320) 0 8
    let ttrip := bitsFrom (s.mmioWord 0 0x320) 8 8
    (∀ (iest : Nat) (rise : Bool), iest ≤ 65535 → bitsFrom stat 0 16 ≤ iest + 10 * bitsFrom (s.mmioWord 0 0x300) 0 8 →
      iest ≤ bitsFrom stat 0 16 + 10 * bitsFrom (s.mmioWord 0 0x300) 0 8 →
      ∃ t, exec (.slewGovernor iest rise) s = .next t ∧ bitsFrom (t.mmioWord 0 0x308) 0 16 = iest
        ∧ (t.mmioWord 0 0x308).getLsbD 16 = rise
        ∧ bitsFrom (t.mmioWord 0 0x308) 32 4 = (if rise = true ∨ s.tripped ≠ [] then bitsFrom stat 32 4 - 1 else min 15 (bitsFrom stat 32 4 + 1))
        ∧ { t with mmio := s.mmio } = s)
    ∧ ∀ die value : Nat, die < 4 → value < 256 →
      ∀ e : Instr × Prop, e ∈ [(.thermalLimit die value, tlim ≤ value), (.thermalTrip die value, ttrip ≤ value), (.thermalRecover die value, value < tlim)] →
        e.2 → ∃ t, exec e.1 s = .next t ∧ temp t die = value ∧ (∀ d < 4, d ≠ die → temp t d = temp s d) ∧ t.mmioWord 0 0x308 = stat
          ∧ (∀ d, d ∈ t.tripped ↔ d < 4 ∧ (ttrip ≤ temp t d ∨ (d ∈ s.tripped ∧ tlim ≤ temp t d)))
          ∧ { t with mmio := s.mmio, tripped := s.tripped } = s

/-- R34, R35, R305, R62: a write of a descriptor or sharding entry comes into force whole; a micro-program write reaches an idle engine at once and waits at a
busy one; a conversion of a SPLIT sets it, clears the bytes that change between cache and scratchpad, changes no other byte, and leaves every tile of
the column on the thread side with every line full. -/
def Obligations.TablesAndConversions : Prop :=
  ∀ (s : State), s.canonical →
    (∀ (die off : Nat) (v : W64), s.devReady = true → isTable off = true → off % 8 = 0 →
      ∃ t, exec (.tableWrite die off 8 v) s = .next t ∧ t.mmioWord 0 off = v ∧ t.tableWrites = s.tableWrites.erase (off, 8, v)
        ∧ (∀ o, o % 8 = 0 → o ≠ off → o < 2 ^ 32 → t.mmioWord 0 o = s.mmioWord 0 o) ∧ { t with mmio := s.mmio, tableWrites := s.tableWrites } = s)
    ∧ (∀ (die i w : Nat) (v : W64), s.devReady = true → die < 4 → i < 128 → w < 4096 →
      let e := die * 128 + i
      let off := 0x1000000 + 0x8000 * i + 8 * w
      ((s.engine e).queue = [] → (s.engine e).writes = [] → ∃ t, exec (.mprogWrite die off v) s = .next t ∧ t.mmioWord die off = v
        ∧ (∀ o, o % 8 = 0 → o ≠ off → o < 2 ^ 32 → t.mmioWord die o = s.mmioWord die o) ∧ { t with mmio := s.mmio } = s)
      ∧ ((s.engine e).queue ≠ [] ∨ (s.engine e).writes ≠ [] → exec (.mprogWrite die off v) s =
          .next (s.setEngine e { s.engine e with writes := (s.engine e).writes ++ [(off, 8, v)] })))
    ∧ ∀ core new : Nat, new ≠ s.split core → new ≤ 12 → splitRequest s core = some new → columnQuiet s core = true →
      ∃ t, exec (.splitConversion core new) s = .next t ∧ t.split core = new ∧ (∀ n, n ≠ core → t.split n = s.split n)
        ∧ (∀ a, (isSp a = true ∧ spCore a = core ∧ (12 - max (s.split core) new) * 2 ^ 18 ≤ spOff a ∧ spOff a < (12 - min (s.split core) new) * 2 ^ 18 →
              memGet t.mem a = 0)
            ∧ (¬ (isSp a = true ∧ spCore a = core ∧ (12 - max (s.split core) new) * 2 ^ 18 ≤ spOff a ∧ spOff a < (12 - min (s.split core) new) * 2 ^ 18) →
              memGet t.mem a = memGet s.mem a)
            ∧ (isSp a = true → spCore a = core → a / 128 ∉ t.emptyLines ∧ a / 4096 ∉ t.engineTiles))
        ∧ t.hostMem = s.hostMem ∧ t.mmio = s.mmio

namespace Sys2Proof.Machine

/-- The state in which a unit is placed (R347): the next index of its stage counts as placed, its context is reserved with every register at reset, and stage 0 of its
schedule is still to be read where the record has one (R161). The bits of word 10 of the record are NCSTAGE. -/
def reservedFor (s : State) (p : Placing) : State :=
  let l := p.launch
  let u := l.placed.getD p.stage 0
  let s := (s.putLaunch { l with placed := l.placed.set p.stage (u + 1) }).setCtx p.ctx { Ctx.reset with
    status := .reserved, unit := ⟨l.id, u, p.stage, none, none, l.prio, l.priv, l.job, if l.det then u else 0⟩ }
  { s with stageZero := s.stageZero ++ [⟨p.ctx, 1 ≤ bitsFrom (l.word 10) 16 8, [], [], false⟩] }

end Sys2Proof.Machine

/-- R157 to R162, R164, R174 to R176, R347, R351: the life of a unit. A pipeline that is released gets MINC
cores of its die for each stage, the lowest that no stage holds, and none where they are too few; a placed unit reserves its context and its stage 0 is
read, its destination lines empty and their tiles given; it starts once its stage 0, its image and its inputs are there, with the registers of R159; a retiring unit
leaves once its work is over, its tiles back on the thread side, and its context free; so does a stopped one. An image replaces the words of the
store that it takes, and leaves the others (log 109). -/
def Obligations.UnitLife : Prop :=
  (∀ (s : State) (l : Launch), s.launches.Pairwise (fun x y => x.id ≠ y.id) → l ∈ s.launches →
    (∀ x ∈ s.launches, (x.pipe = true ∧ x.cores = [] ∧ released s x = true) ↔ x = l) →
    let free := ((List.range 64).map (l.die * 64 + ·)).filter fun c => !(s.launches.any fun x => x.cores.flatten.contains c)
    let need := (List.range l.stages).map l.minc
    (free.length < need.sum → assignPipes s = s)
    ∧ (need.sum ≤ free.length → ∃ cs, assignPipes s = s.putLaunch { l with cores := cs } ∧ cs.map List.length = need ∧ cs.flatten = free.take need.sum))
  ∧ (∀ s : State, { assignPipes s with launches := s.launches } = s)
  ∧ (∀ (s : State) (k : Nat),
    (∀ p, placeChoice (assignPipes s) (k / 256) = some p → p.ctx = k → exec (.unitPlace k) s =
      .next (if 1 ≤ bitsFrom (p.launch.word 10) 16 8 then startStage0 (reservedFor (assignPipes s) p) k else reservedFor (assignPipes s) p))
    ∧ ((∀ p, placeChoice (assignPipes s) (k / 256) = some p → p.ctx ≠ k) → exec (.unitPlace k) s = .next (assignPipes s)))
  ∧ (∀ (s s' : State) (k : Nat) (l : Launch) (z : StageZero) (es : List (Nat × BitVec 512)), unitLaunch s k = some l →
      s.stageZero.find? (·.ctx == k) = some z → z.unread = true →
      (∀ d ∈ s.decisions, d.ctx = some k → ∃ v ∈ s.savedCtxs, v.key = k ∧ v.record = some d.seq) → splitReady s l (k / 4) = true →
      readStage s l (schedOwner l.id) (k / 4) 0 (s.ctx k).unit.index 0 (bitsFrom (l.word 10) 0 16) = (.ok es, s') → stageFits s' (k / 4 / 8) es.length = true →
      ∃ t, exec (.unitStart k) s = .next t ∧ t = startStage0 s k
        ∧ (∀ y ∈ t.stageZero, y.ctx = k → y.unread = false ∧ y.waiting.length = es.length)
        ∧ (∀ e ∈ es, ∀ x ∈ entLines (k / 4) e.2, x.1 ∈ t.emptyLines ∧ x.1 / 32 ∈ t.engineTiles) ∧ t.copies.length = s'.copies.length + es.length ∧ t.mem = s'.mem)
  ∧ (∀ (s : State) (k : Nat) (l : Launch) (z : StageZero), unitLaunch s k = some l → s.stageZero.find? (·.ctx == k) = some z → z.unread = false →
      (mayStart s k l z = false → exec (.unitStart k) s = .next s)
      ∧ (mayStart s k l z = true → ∃ t, exec (.unitStart k) s = .next t ∧ (t.ctx k).status = .running
          ∧ (t.ctx k).pc = l.word 0 + BitVec.ofNat 64 (if l.pipe then bitsFrom (l.stage (s.ctx k).unit.stage) 0 16 else bitsFrom (l.word 1) 32 16)
          ∧ vget (t.ctx k).g 1 ⟨0, none⟩ = ⟨BitVec.ofNat 64 (s.ctx k).unit.index, none⟩ ∧ vget (t.ctx k).g 3 ⟨0, none⟩ = ⟨l.value, none⟩
          ∧ (∀ j, 5 < j → j < 32 → vget (t.ctx k).g j ⟨0, none⟩ = ⟨0, none⟩) ∧ (∀ j < 16, vget (t.ctx k).h j ⟨0, none⟩ = ⟨0, none⟩)
          ∧ (∀ j < 16, vget (t.ctx k).q j ⟨false, 0, none⟩ = ⟨false, 0, none⟩ ∧ vget (t.ctx k).w j 0 = 0
              ∧ vget (t.ctx k).k j 0 = BitVec.ofNat 32 (z.sems.count j))
          ∧ (t.ctx k).mpc = l.word 11 ∧ (t.ctx k).asid = BitVec.ofNat 64 l.asid ∧ (t.ctx k).asperm = l.asperm ∧ (t.ctx k).ptroot = l.root
          ∧ (t.ctx k).fpflags = 0 ∧ (t.ctx k).stageCtr = 1 ∧ (t.ctx k).pend = [] ∧ (∀ d ∈ declaredInputs l (k / 4), d ∉ t.engineTiles) ∧ t.mem = s.mem))
  ∧ (∀ (s : State) (k : Nat) (l : Launch) (ws : List W32) (s' : State), unitLaunch s k = some l → (∃ z, s.stageZero.find? (·.ctx == k) = some z ∧ startReady s k l z = true) →
      (∀ j ∈ placedOn s (k / 4), (s.ctx j).status ≠ .reserved → (s.ctx j).unit.launch = l.id) → needsLoad s l (k / 4) = true →
      (readCode s l (k / 4) 0 (bitsFrom (l.word 1) 0 32 / 4) = (.ok ws, s') →
        ∃ t, exec (.overlayLoad k) s = .next t
          ∧ (t.core (k / 4)).ovlWords = ws ++ (s'.core (k / 4)).ovlWords.drop (bitsFrom (l.word 1) 0 32 / 4) ∧ (t.core (k / 4)).ovlCode = l.word 0 ∧ (t.core (k / 4)).ovlTag = l.ovl
          ∧ t.ctxs = s'.ctxs ∧ t.mem = s'.mem ∧ needsLoad t l (k / 4) = false)
      ∧ ∀ r, readCode s l (k / 4) 0 (bitsFrom (l.word 1) 0 32 / 4) = (.error r, s') → s'.launch? l.id = some l →
        ∃ t f, exec (.overlayLoad k) s = .next t ∧ t.faultQueue = s'.faultQueue ++ [f] ∧ f.kind = 3 ∧ f.src = r.src ∧ f.cls = r.cls ∧ f.cause = r.cause
          ∧ f.launch = some l.id ∧ (t.core (k / 4)).ovlTag = 0 ∧ (t.launch? l.id).map (·.done) = some true)
  ∧ (∀ (s : State) (k : Nat), (s.ctx k).status = .retiring → unitCommands s (k / 4) (k % 4) (s.ctx k).unit.launch = false → (s.ctx k).pend = [] →
      (s.ctx k).given.all (mayTake s) = true →
      ∃ t, exec (.unitRetireComplete k) s = .next t ∧ t.ctx k = Ctx.reset ∧ (∀ x ∈ (s.ctx k).given, x ∉ t.engineTiles) ∧ t.mem = s.mem
        ∧ ∀ l, s.launch? (s.ctx k).unit.launch = some l → l.done = false → s.canonical → l.lid < 1024 →
            s.levelDone l.lid + 1 < 2 ^ 32 → t.levelDone l.lid = s.levelDone l.lid + 1)
  ∧ (∀ (s : State) (k : Nat), (s.ctx k).status = .retiring → unitCommands s (k / 4) (k % 4) (s.ctx k).unit.launch = false → (s.ctx k).pend ≠ [] →
      (s.ctx k).given.all (mayTake s) = true →
      ∃ t, exec (.unitRetireComplete k) s = .next t ∧ t.ctx k = { s.ctx k with given := [] } ∧ (∀ x ∈ (s.ctx k).given, x ∉ t.engineTiles) ∧ t.mem = s.mem)
  ∧ ∀ (s : State) (k : Nat), (s.ctx k).status = .stopping → (s.ctx k).pend = [] → (s.ctx k).results = [] → (s.ctx k).given.all (mayTake s) = true →
      ∃ t, exec (.unitStopFree k) s = .next t ∧ t.ctx k = Ctx.reset ∧ (∀ x ∈ (s.ctx k).given, x ∉ t.engineTiles) ∧ t.mem = s.mem
        ∧ ∀ j, j ≠ k → t.ctx j = s.ctx j

namespace Sys2Proof.Machine

/-- The launch that a record of queue `q` makes (R155, R156). -/
def recordLaunch (s : State) (die q id v : Nat) (ptr : W64) (mailbox : Option Nat) (value : W64) : Launch :=
  ⟨id, die, q, bitsFrom (lqWord s die q 0) 0 16, queuePerm (lqWord s die q 0), lqWord s die q 2, BitVec.ofNat 2048 v, 0, ptr, mailbox, value, [], [], [], [], 0, [], [], 0, false⟩

/-- A record keeps the rules of R156, R157 and R172 for its own words. -/
def recordSound (s : State) (l : Launch) : Prop :=
  s.levelState l.lid = 0 ∧ recordFields l = true ∧ recordPointers s l ⟨l.die * 64, l.asperm, l.priv⟩ = true
  ∧ (l.priv = true → (lqWord s l.die l.queue 0).getLsbD 62 = true) ∧ l.prio ≤ bitsFrom (lqWord s l.die l.queue 0) 16 3
  ∧ levelsOk s l = true ∧ (l.det = true → l.die = 0 ∧ detOk s l = true)

/-- No cancel and no failed predecessor stands against a record (R165, R167). -/
def recordLive (s : State) (l : Launch) : Prop := inCancelled s l = false ∧ ∀ p ∈ l.preds, s.levelState p < 4

/-- The launch of a record entered: it is the last, PENDING, with its units to retire and none retired (R164 to R166). -/
def Entered (t s' : State) (l : Launch) : Prop :=
  ∃ l', t.launches = s'.launches ++ [l'] ∧ l'.record = l.record ∧ l'.stageTab = l.stageTab ∧ l'.id = l.id ∧ l'.value = l.value ∧ l'.mailbox = l.mailbox
    ∧ l'.done = false ∧ l'.placed = List.replicate l.stages 0 ∧ t.levelState l.lid = 1 ∧ t.levelTarget l.lid = l.units * l.stages % 2 ^ 32 ∧ t.levelDone l.lid = 0
    ∧ t.mem = s'.mem ∧ t.ctxs = s'.ctxs

end Sys2Proof.Machine

/-- R155 to R157, R166, R171: a launch record that is submitted, by a write or as a mailbox's handler, is dropped where its queue is closed,
counted where it cannot be read, and entered, PENDING, where it is valid; an invalid one makes its free entry INVALID. Pipelines that are
released then have their cores assigned. -/
def Sys2Proof.Claim.SubmissionResults : Prop :=
  ∀ (s : State) (die n : Nat), s.canonical → s.devReady = true → die < 4 →
    (∀ (q : Nat) (ptr : W64), q < 16 →
      ((lqWord s die q 0).getLsbD 63 = false → ∃ t, exec (.lqSubmit die q ptr) s = .next t
        ∧ t.mmioWord die 0x708 = s.mmioWord die 0x708 + 1 ∧ { t with mmio := s.mmio } = s)
      ∧ (∀ s', (lqWord s die q 0).getLsbD 63 = true → readLaunch s die q ptr = (none, s') → s'.canonical → ∃ t, exec (.lqSubmit die q ptr) s = .next t
        ∧ t.mmioWord die 0x710 = s'.mmioWord die 0x710 + 1 ∧ { t with mmio := s'.mmio } = s')
      ∧ ∀ v s', (lqWord s die q 0).getLsbD 63 = true → readLaunch s die q ptr = (some v, s') → s'.canonical →
        let u := { s' with nextId := s'.nextId + 1 }
        let l := recordLaunch s die q s'.nextId v ptr none 0
        (recordSound u l → recordLive u l → l.pipe = false → ∃ t, exec (.lqSubmit die q ptr) s = .next (assignPipes t) ∧ Entered t s' l)
        ∧ (∀ x u2, recordSound u l → l.pipe = true → readTable u l ⟨l.die * 64, l.asperm, l.priv⟩ = (.val x, u2) → u2.canonical →
          let p := { l with stageTab := BitVec.ofNat 3072 x }
          (stageTableOk p ⟨l.die * 64, l.asperm, l.priv⟩ = true → recordLive u2 p → ∃ t, exec (.lqSubmit die q ptr) s = .next (assignPipes t) ∧ Entered t u2 p)
          ∧ (stageTableOk p ⟨l.die * 64, l.asperm, l.priv⟩ = false → u2.levelState l.lid = 0 → ∃ t, exec (.lqSubmit die q ptr) s = .next t
            ∧ t.levelState l.lid = 6 ∧ t.launches = u2.launches ∧ t.mem = u2.mem))
        ∧ (∀ u2, recordSound u l → l.pipe = true → readTable u l ⟨l.die * 64, l.asperm, l.priv⟩ = (.wait, u2) → (∀ x ∈ u2.validating, x.id ≠ l.id) →
          exec (.lqSubmit die q ptr) s = .next { u2 with validating := u2.validating ++ [l] })
        ∧ (recordFields l = false → u.levelState l.lid = 0 → ∃ t, exec (.lqSubmit die q ptr) s = .next t ∧ t.levelState l.lid = 6
          ∧ t.launches = s'.launches ∧ t.mem = s'.mem)
        ∧ (u.levelState l.lid ≠ 0 → ∃ t, exec (.lqSubmit die q ptr) s = .next t ∧ t.mmioWord die 0x710 = s'.mmioWord die 0x710 + 1
          ∧ t.launches = s'.launches ∧ t.mem = s'.mem))
    ∧ (n < 64 →
      let key := die * 64 + n
      let q := bitsFrom (s.mmioWord die (0xC000 + 32 * n + 16)) 0 4
      let ptr := s.mmioWord die (0xC000 + 32 * n + 8)
      ((tget s.mailboxes key).getD [] = [] → exec (.mailboxHandlerStart die n) s = .next s)
      ∧ ((∃ l ∈ s.launches ++ s.validating, l.mailbox = some key ∧ l.done = false) → exec (.mailboxHandlerStart die n) s = .next s)
      ∧ ∀ m rest v s1 s', tget s.mailboxes key = some (m :: rest) → (∀ l ∈ s.launches ++ s.validating, l.mailbox = some key → l.done = true) →
        (lqWord s die q 0).getLsbD 63 = true → readLaunch s die q ptr = (some v, s1) →
        readLaunch { s with mailboxes := tset s.mailboxes key rest } die q ptr = (some v, s') → s'.canonical →
        let l := recordLaunch s die q s'.nextId v ptr (some key) m
        let u := { s' with nextId := s'.nextId + 1 }
        s.levelState l.lid = 0 → recordSound u l → recordLive u l → l.pipe = false →
        ∃ t, exec (.mailboxHandlerStart die n) s = .next (assignPipes t) ∧ Entered t s' l ∧ tget t.mailboxes key = some rest)
    ∧ (n < 64 → ∃ t, exec (.mailboxOvfClear die n) s = .next t
      ∧ (∀ j < 64, (t.mmioWord die (0xC000 + 32 * n + 16)).getLsbD j =
          if j = 13 ∨ 32 ≤ j then false else (s.mmioWord die (0xC000 + 32 * n + 16)).getLsbD j) ∧ { t with mmio := s.mmio } = s)

/-- R50, R166, R167: a level entry that has ended is freed, a running job slot is ended, and a retired view leaves the directory of its core once every write through it
has performed at the scope of its retire; each changes nothing else, and nothing at all in another state. -/
def Sys2Proof.Claim.EntriesAreFreed : Prop :=
  ∀ (s : State), s.canonical → s.devReady = true →
    (∀ i < 1300,
      (3 ≤ s.levelState i → s.levelState i ≤ 6 → ∃ t, exec (.levelEntryFree i) s = .next t ∧ t.levelState i = 0
        ∧ (∀ j < 1300, j ≠ i → t.levelState j = s.levelState j) ∧ { t with mmio := s.mmio, cancelled := s.cancelled } = s)
      ∧ (¬ (3 ≤ s.levelState i ∧ s.levelState i ≤ 6) → exec (.levelEntryFree i) s = .next s))
    ∧ (∀ slot < 4,
      (s.levelState (1296 + slot) = 2 → ∃ t, exec (.jobEnd slot) s = .next t ∧ t.levelState (1296 + slot) = 3
        ∧ (∀ j < 1300, j ≠ 1296 + slot → t.levelState j = s.levelState j) ∧ { t with mmio := s.mmio } = s)
      ∧ (s.levelState (1296 + slot) ≠ 2 → exec (.jobEnd slot) s = .next s))
    ∧ ∀ core i e, tget (s.core core).dir i = some e → Tbl.rising (s.core core).dir →
      let k := core * 4 + e.ctx
      (∀ scope, e.retired = some scope → entryDone s k i scope = true → ∃ t, exec (.liveViewEntryFree core i) s = .next t ∧ tget (t.core core).dir i = none
        ∧ (∀ j, j ≠ i → tget (t.core core).dir j = tget (s.core core).dir j) ∧ (∀ c, c ≠ core → t.core c = s.core c)
        ∧ (∀ p ∈ (t.ctx k).pend, ∀ a, p.kind = .access a → a.entry ≠ some i) ∧ (t.ctx k).pend.map (·.id) = (s.ctx k).pend.map (·.id)
        ∧ (∃ ps, t.ctx k = { s.ctx k with pend := ps }) ∧ (∀ c, c ≠ k → t.ctx c = s.ctx c) ∧ { t with cores := s.cores, ctxs := s.ctxs } = s)
      ∧ ((e.retired = none ∨ ∃ scope, e.retired = some scope ∧ entryDone s k i scope = false) → exec (.liveViewEntryFree core i) s = .next s)

namespace Sys2Proof.Machine

/-- What the lines of a copy's next chunk come to, one after the other, each with its number (R145, R146). -/
def chunkOut (s : State) (l : Launch) (cmd : CopyCmd) : Except CopyStop (List (Nat × LineOut)) × State :=
  (chunkLines cmd).foldl (fun acc x => match acc with
    | (.error t, s) => (.error t, s)
    | (.ok out, s) => match entLine s l cmd x.2.1 x.2.2.1 x.2.2.2 with
      | (.ok o, s) => (.ok (out ++ [(x.1, o)]), s)
      | (.error t, s) => (.error t, s)) (.ok [], s)

end Sys2Proof.Machine

/-- R134, R137, R146, R322, R323: a copy entry on its way. A backlog entry waits for the gives of its tiles, then takes a freed place, or fails with CHANGED and
the record's place of its words; an entry starts once its tiles are given
and its checks pass; a running one is pre-empted at a chunk's end; a chunk is written with its lines full, and a fault or a corrected error suspends it with a
record of KIND 2. Chunks are counted from the destination OFFSET (log 32), and a backlog entry that cannot be read stays (log 30). -/
def Obligations.CopyProgress : Prop :=
  (∀ (s : State) (octant : Nat), 48 ≤ placesUsed s octant → exec (.copyBacklogDrain octant) s = .next s)
  ∧ (∀ (s : State) (octant : Nat) (cmd : CopyCmd), s.copies.find? (fun c => c.core / 8 == octant && c.state == .backlog) = some cmd →
      cmd.tiles.any (giveWaits s) = true → exec (.copyBacklogDrain octant) s = .next s)
  ∧ (∀ (s s' : State) (octant n : Nat) (cmd : CopyCmd) (l : Launch), placesUsed s octant < 48 →
      s.copies.find? (fun c => c.core / 8 == octant && c.state == .backlog) = some cmd → s.launch? cmd.launch = some l →
      cmd.tiles.any (giveWaits s) = false → launchRecord s l (cmd.id + 1024) cmd.core (l.word 9 + BitVec.ofNat 64 (64 * cmd.index)) 64 = (.val n, s') →
      (BitVec.ofNat 512 n = cmd.entry → exec (.copyBacklogDrain octant) s = .next (s'.putCopy { cmd with state := .queued }))
      ∧ (BitVec.ofNat 512 n ≠ cmd.entry → word cmd.entry 7 = 0 → exec (.copyBacklogDrain octant) s =
        .next (s'.putCopy { cmd with state := .failed 3 7, crec := none }))
      ∧ ∀ place u, BitVec.ofNat 512 n ≠ cmd.entry → word cmd.entry 7 ≠ 0 →
        recordPlace s' (l.who cmd.core) l.asid l.root.toNat (word cmd.entry 7) 32 true = .ok (place, u) →
        exec (.copyBacklogDrain octant) s = .next (u.putCopy { cmd with state := .failed 3 7, crec := some place }))
  ∧ (∀ (s : State) (id : Nat) (cmd : CopyCmd) (l : Launch), s.copy? id = some cmd → s.launch? cmd.launch = some l → cmd.state = .queued →
      (cmd.tiles.all (tileReady s) = false → exec (.copyEntryStart id) s = .next s)
      ∧ (cmd.tiles.all (tileReady s) = true →
        (∀ c, word cmd.entry 7 = 0 → entFields s cmd.core cmd.entry = some c → exec (.copyEntryStart id) s =
          .next (s.putCopy { cmd with state := .failed 3 c, crec := none }))
        ∧ (entFields s cmd.core cmd.entry = none → entView cmd.entry = false → word cmd.entry 7 = 0 →
          (∀ x ∈ entElems cmd.entry, entElemCheck s (l.who cmd.core) { cmd with view := none, crec := none } x.1 x.2.1 x.2.2 = none) →
          ∃ t c, exec (.copyEntryStart id) s = .next t ∧ t.copy? id = some c ∧ c.state = .running ∧ c.entry = cmd.entry ∧ c.lines = cmd.lines
            ∧ (∀ x ∈ cmd.tiles, x ∈ c.tiles) ∧ t.mem = s.mem ∧ t.emptyLines = s.emptyLines)))
  ∧ (∀ (s : State) (id : Nat) (cmd : CopyCmd), s.copy? id = some cmd →
      exec (.copyPreEmption id) s = .next (if cmd.state = .running then s.putCopy { cmd with state := .preempted } else s))
  ∧ ∀ (s : State) (id : Nat) (cmd : CopyCmd) (l : Launch), s.copy? id = some cmd → s.launch? cmd.launch = some l → cmd.state = .running ∨ cmd.state = .preempted →
      (cmd.tiles.all (tileReady s) = false → ∀ ev, exec (.copyChunk id ev) s = .next s)
      ∧ (cmd.tiles.all (tileReady s) = true →
        (∃ t r c, exec (.copyChunk id .corrected) s = .next t ∧ t.faultQueue = s.faultQueue ++ [r] ∧ r.kind = 2 ∧ r.src = 1 ∧ r.cls = 0x18 ∧ r.cause = 1
          ∧ r.addr = word cmd.entry 0 ∧ r.entry = BitVec.ofNat 64 cmd.index ∧ t.copy? id = some c ∧ c.state = .suspended s.faultSeq ∧ c.chunk = cmd.chunk ∧ t.mem = s.mem)
        ∧ (∀ s', chunkOut s l cmd = (.error .wait, s') → exec (.copyChunk id .clean) s = .next s')
        ∧ (∀ x s', chunkOut s l cmd = (.error (.dead x), s') → exec (.copyChunk id .clean) s =
          .next (discardLaunch s' cmd.launch { x with core := cmd.core, ctx := cmd.ctx % 4 }))
        ∧ (∀ x s', chunkOut s l cmd = (.error (.trap x), s') → ∃ t r c, exec (.copyChunk id .clean) s = .next t ∧ t.faultQueue = s'.faultQueue ++ [r]
          ∧ r.kind = 2 ∧ r.cls = x.cls ∧ r.cause = x.cause ∧ r.addr = x.addr.getD 0
          ∧ r.pc = BitVec.ofNat 64 (bitsFrom (word cmd.entry 1) 0 22 + 4096 * cmd.chunk)
          ∧ t.copy? id = some c ∧ c.state = .suspended s'.faultSeq ∧ c.chunk = cmd.chunk ∧ t.mem = s'.mem ∧ t.emptyLines = s'.emptyLines)
        ∧ ∀ out s', chunkOut s l cmd = (.ok out, s') → s'.canonical → (out.map (·.1)).Nodup → ∃ t c, exec (.copyChunk id .clean) s = .next t
          ∧ (∀ x ∈ out, memRead t.mem (x.1 * 128) 128 = x.2.data % 2 ^ 1024)
          ∧ (∀ a, a / 128 ∉ out.map (·.1) → memGet t.mem a = memGet s'.mem a)
          ∧ t.emptyLines = seraseAll s'.emptyLines (out.map (·.1))
          ∧ t.copy? id = some c ∧ c.chunk = cmd.chunk + 1 ∧ c.lines = seraseAll cmd.lines (out.map (·.1))
          ∧ c.sat = cmd.sat + (out.map (·.2.sat)).sum ∧ c.clipped = cmd.clipped + (out.map (·.2.clipped)).sum
          ∧ c.state = (if c.lines = [] then .completing else .running))

/-- R141, R170, R323, R400, R418: the end of a copy entry, in order: its semaphore, that of its unit where it runs or is saved, its record of 32 bytes, its mailbox capture, its phaser. A failed one raises no semaphore
and signals no phaser; a record that cannot be written yet waits. -/
def Sys2Proof.Claim.CopyCompletion : Prop :=
  (∀ (s : State) (id : Nat) (cmd : CopyCmd), s.copy? id = some cmd → cmd.step = 0 → cmd.state = .completing → cmd.crec = none → cmd.stage0 = false →
      cmd.tiles.any (giveWaits s) = false → cmd.ctx < 4 → Tbl.rising (s.core cmd.core).phasers →
      let k := cmd.core * 4 + cmd.ctx
      let sem := bitsFrom (word cmd.entry 5) 32 4
      let ph := bitsFrom (word cmd.entry 5) 24 6
      ∃ t, exec (.copyEntryComplete id) s = .next t ∧ t.copies = s.copies.filter (·.id != id) ∧ t.mem = s.mem
        ∧ ((word cmd.entry 5).getLsbD 36 = true → (vget (s.ctx k).k sem 0).toNat < 2 ^ 32 - 1 → vget (t.ctx k).k sem 0 = vget (s.ctx k).k sem 0 + 1)
        ∧ ((word cmd.entry 5).getLsbD 36 = false → (t.ctx k).k = (s.ctx k).k)
        ∧ (ph < 48 → t.phaser cmd.core ph = (s.phaser cmd.core ph).engineSignal ∨ t.phaser cmd.core ph = Phaser.reset)
        ∧ ((word cmd.entry 5).getLsbD 37 = false → t.mailboxes = s.mailboxes ∧ t.mmio = s.mmio))
  ∧ (∀ (s : State) (id : Nat) (cmd : CopyCmd) (v : SavedCtx), s.copy? id = some cmd → cmd.step = 0 → cmd.state = .completing → cmd.crec = none →
      cmd.stage0 = false → cmd.tiles.any (giveWaits s) = false → 4 ≤ cmd.ctx → (word cmd.entry 5).getLsbD 36 = true →
      s.savedCtxs.find? (·.key == cmd.core * 4 + cmd.ctx % 4) = some v →
      let sem := bitsFrom (word cmd.entry 5) 32 4
      ∃ t, exec (.copyEntryComplete id) s = .next t ∧ t.copies = s.copies.filter (·.id != id) ∧ t.mem = s.mem ∧ (∀ k, (t.ctx k).k = (s.ctx k).k)
        ∧ t.savedCtxs = s.savedCtxs.map fun x =>
            if x.key = cmd.core * 4 + cmd.ctx % 4 ∧ savedCount s v sem < 2 ^ 32 - 1 then { x with bumps := x.bumps ++ [sem] } else x)
  ∧ (∀ (s : State) (id : Nat) (cmd : CopyCmd) (cls cause : Nat), s.copy? id = some cmd → cmd.step = 0 → cmd.state = .failed cls cause → cmd.crec = none →
      cmd.stage0 = false → cmd.tiles.any (giveWaits s) = false →
      ∃ t, exec (.copyEntryComplete id) s = .next t ∧ t.copies = s.copies.filter (·.id != id) ∧ t.mem = s.mem ∧ t.cores = s.cores ∧ t.ctxs = s.ctxs)
  ∧ ∀ (s : State) (id key : Nat) (cmd : CopyCmd), s.copy? id = some cmd → cmd.step = 1 → cmd.crec = some (.mem key) → s.canonical →
      ((isSp key = true ∧ tileReady s (tileOf key) = false) → exec (.copyRecordWrite id) s = .next s)
      ∧ (¬ (isSp key = true ∧ tileReady s (tileOf key) = false) → ∃ t, exec (.copyRecordWrite id) s = .next t
        ∧ memRead t.mem key 32 = copyRecord cmd % 2 ^ 256 ∧ (∀ a, ¬ (key ≤ a ∧ a < key + 32) → memGet t.mem a = memGet s.mem a)
        ∧ t.copies = s.copies.filter (·.id != id))

namespace Sys2Proof.Machine

/-- An atomic reaches every space but PEER and HOST as one of R29's checks has it (R324). -/
def atomicSpace (p : W64) : Bool := spaceOf (bitsFrom p 60 4) != some .peer && spaceOf (bitsFrom p 60 4) != some .host

end Sys2Proof.Machine

/-- R133, R137, R139, R262, R324, R325: an element of a batch performs at its target and leaves the old value in the result tile, whose line is full with the last value
it gets; a line of a remote read is copied and becomes full; a step whose tile has not been given changes nothing; each command ends, once all of it has performed,
with its phaser's signal. That an operand line which the batch has itself emptied does not hold it (log 91), and that elements perform in ascending order (log 106), are the model's choices. -/
def Sys2Proof.Claim.BatchAndRemoteReadProgress : Prop :=
  (∀ (s : State) (id key : Nat) (b : BatchCmd) (l : Launch) (sp : Space), s.canonical → s.batches.find? (·.id == id) = some b → s.launch? b.launch = some l →
      tileReady s b.opnd = true → tileReady s b.res = true → batchWaits s b (b.opnd * 32 + b.next / 8) = false →
      (∀ w ∈ b.waiting, w.2.1 ≠ s.deviceId) →
      let n := if bitsFrom b.ctl 6 1 = 1 then 8 else 4
      let j := bitsFrom b.ctl 0 6
      let at' := b.opnd * 4096 + 16 * b.next
      let out := b.res * 4096 + 8 * b.next
      let p := BitVec.ofNat 64 (memRead s.mem at' 8)
      let old := memRead s.mem key n
      let new := (atomicNew j (8 * n) old (memRead s.mem (at' + 8) 8 % 2 ^ (8 * n))).1
      b.next ≤ bitsFrom b.ctl 8 8 → checkAddr s (l.who b.core) p p n (atomicSpace p) = .ok (sp, .mem key) →
      (isSp key = true → tileReady s (tileOf key) = true ∧ batchWaits s b (lineOf key) = false) → badLine? s key n = none →
      (key + n ≤ out ∨ out + 8 ≤ key) →
      ∃ t c, exec (.batchAtomicComplete id) s = .next t ∧ memRead t.mem key n = new % 2 ^ (8 * n) ∧ memRead t.mem out 8 = old
        ∧ (∀ a, ¬ (key ≤ a ∧ a < key + n) → ¬ (out ≤ a ∧ a < out + 8) → memGet t.mem a = memGet s.mem a)
        ∧ t.batches.find? (·.id == id) = some c ∧ c.next = b.next + 1
        ∧ ((∀ w ∈ b.waiting, w.1 / 16 ≠ b.next / 16) → b.next = bitsFrom b.ctl 8 8 ∨ b.next % 16 = 15 →
            t.emptyLines = seraseAll s.emptyLines [b.res * 32 + b.next / 16]))
  ∧ (∀ (s : State) (id : Nat) (b : BatchCmd) (l : Launch), s.batches.find? (·.id == id) = some b → s.launch? b.launch = some l →
      (tileReady s b.opnd = false ∨ tileReady s b.res = false ∨ (∃ w ∈ b.waiting, w.2.1 = s.deviceId) ∨ (b.next ≤ bitsFrom b.ctl 8 8 ∧ batchWaits s b (b.opnd * 32 + b.next / 8) = true)) →
      exec (.batchAtomicComplete id) s = .next s)
  ∧ (∀ (s : State) (id : Nat) (b : BatchCmd) (l : Launch) (x : Trap), s.batches.find? (·.id == id) = some b → s.launch? b.launch = some l → l.done = false →
      tileReady s b.opnd = true → tileReady s b.res = true → batchWaits s b (b.opnd * 32 + b.next / 8) = false →
      (∀ w ∈ b.waiting, w.2.1 ≠ s.deviceId) →
      let p := BitVec.ofNat 64 (memRead s.mem (b.opnd * 4096 + 16 * b.next) 8)
      b.next ≤ bitsFrom b.ctl 8 8 → checkAddr s (l.who b.core) p p (if bitsFrom b.ctl 6 1 = 1 then 8 else 4) (atomicSpace p) = .error x →
      ∃ t r, exec (.batchAtomicComplete id) s = .next t ∧ t.faultQueue = s.faultQueue ++ [r] ∧ r.kind = 3 ∧ r.src = 1 ∧ r.cls = x.cls ∧ r.cause = x.cause
        ∧ r.launch = some b.launch ∧ (t.launch? b.launch).map (·.done) = some true)
  ∧ (∀ (s : State) (id : Nat) (b : BatchCmd), s.batches.find? (·.id == id) = some b → bitsFrom b.ctl 8 8 < b.next → b.waiting = [] →
      tileReady s b.opnd = true → tileReady s b.res = true → Tbl.rising (s.core b.core).phasers →
      let ph := bitsFrom b.ctl 40 6
      ∃ t, exec (.batchAtomicComplete id) s = .next t ∧ t.batches = s.batches.filter (·.id != id) ∧ t.emptyLines = seraseAll s.emptyLines b.lines ∧ t.mem = s.mem
        ∧ (ph < 48 → t.phaser b.core ph = (s.phaser b.core ph).engineSignal ∨ t.phaser b.core ph = Phaser.reset))
  ∧ (∀ (s : State) (id i key : Nat) (place : Place) (rest : List (Nat × Place)) (r : RreadCmd) (l : Launch), s.canonical →
      s.rreads.find? (·.id == id) = some r → s.launch? r.launch = some l → r.waiting = (i, place) :: rest → tileReady s (tileOf r.dst) = true →
      ((place = .mem key ∧ (isSp key = true → ∀ x ∈ linesOf key 128, tileReady s (x / 32) = true ∧ x ∉ s.emptyLines)) ∨ ∃ va, place = .va va key) →
      badLine? s key 128 = none →
      ∃ t, exec (.rreadComplete id) s = .next t ∧ memRead t.mem (r.dst + 128 * i) 128 = memRead s.mem key 128
        ∧ (∀ a, ¬ (r.dst + 128 * i ≤ a ∧ a < r.dst + 128 * i + 128) → memGet t.mem a = memGet s.mem a)
        ∧ t.emptyLines = seraseAll s.emptyLines [r.dst / 128 + i] ∧ (t.rreads.find? (·.id == id)).map (·.waiting) = some rest)
  ∧ ∀ (s : State) (id : Nat) (r : RreadCmd), s.rreads.find? (·.id == id) = some r →
      (tileReady s (tileOf r.dst) = false → exec (.rreadComplete id) s = .next s)
      ∧ ∀ l, s.launch? r.launch = some l → r.waiting = [] → tileReady s (tileOf r.dst) = true → Tbl.rising (s.core r.core).phasers →
        ∃ t, exec (.rreadComplete id) s = .next t ∧ t.rreads = s.rreads.filter (·.id != id) ∧ t.mem = s.mem ∧ t.emptyLines = s.emptyLines
          ∧ (r.ph < 48 → t.phaser r.core r.ph = (s.phaser r.core r.ph).engineSignal ∨ t.phaser r.core r.ph = Phaser.reset)

namespace Sys2Proof.Machine

/-- Two states differ at most in the tags of the L2s and the LLC, the count of free values, and the monitors of contexts, which wake when a line leaves its cache (R56, R67, R265). -/
def tagsOnly (t s : State) : Prop :=
  (∀ k, ∃ m, t.ctx k = { s.ctx k with monitor := m }) ∧ { t with l2 := s.l2, llc := s.llc, ctxs := s.ctxs, free := s.free } = s

end Sys2Proof.Machine

/-- R3, R22, R56, R129, R397, R404, R405: a host write puts its bytes at their addresses and nowhere else, a host read answers the bytes and changes nothing but
what the host was answered, cache tags and the monitors on lines that leave a cache, and the record of an error that it meets; through BAR0 the host writes and reads the
registers. An access that reaches no populated byte, or no register at its alignment, completes with Unsupported Request and does nothing else (logs 58 and 93). -/
def Sys2Proof.Claim.HostAccesses : Prop :=
  ∀ (s : State), s.canonical →
    (∀ (pa : Nat) (data : List Byte),
      ((∀ i < data.length, populated (pa + i) = true) → ∃ t, exec (.hostMemWrite (.hdm pa) data) s = .next t ∧ t.hostOut = .written
        ∧ (∀ a, memGet t.mem a = if pa ≤ a ∧ a < pa + data.length then data.getD (a - pa) 0 else memGet s.mem a) ∧ t.hostMem = s.hostMem)
      ∧ ((∃ i < data.length, populated (pa + i) = false) → exec (.hostMemWrite (.hdm pa) data) s = .next { s with hostOut := .unsupported }))
    ∧ (∀ pa n : Nat,
      ((∀ i < n, populated (pa + i) = true) → badLine? s pa n = none → ∃ t, exec (.hostMemRead (.hdm pa) n) s = .next t
        ∧ t.hostOut = .data ((List.range n).map fun i => memGet s.mem (pa + i)) ∧ tagsOnly { t with hostOut := s.hostOut } s)
      ∧ (∀ l, (∀ i < n, populated (pa + i) = true) → badLine? s pa n = some l → ∃ t r bytes, exec (.hostMemRead (.hdm pa) n) s = .next t ∧ t.hostOut = .data bytes
        ∧ t.faultQueue = s.faultQueue ++ [r] ∧ r.kind = 3 ∧ r.src = 6 ∧ r.cls = 0x10 ∧ r.cause = 2 ∧ r.launch = none ∧ r.addr = BitVec.ofNat 64 (128 * l)
        ∧ tagsOnly { t with hostOut := s.hostOut, faultQueue := s.faultQueue, faultSeq := s.faultSeq } s)
      ∧ ((∃ i < n, populated (pa + i) = false) → exec (.hostMemRead (.hdm pa) n) s = .next { s with hostOut := .unsupported }))
    ∧ ∀ off n : Nat,
      let reaches := off < 2 ^ 34 ∧ (n = 4 ∨ n = 8) ∧ off % n = 0
      (reaches → ∀ data : List Byte, data.length = n → ∃ u, exec (.registerWrite (off / 2 ^ 32) (off % 2 ^ 32) n (BitVec.ofNat 64 (ofBytes data))) s = .next u
        ∧ exec (.hostMemWrite (.bar0 off) data) s = .next { u with hostOut := .written })
      ∧ (¬ reaches → ∀ data : List Byte, data.length = n → exec (.hostMemWrite (.bar0 off) data) s = .next { s with hostOut := .unsupported })
      ∧ (reaches → exec (.hostMemRead (.bar0 off) n) s = .next { s with hostOut :=
          (.data ((List.range n).map fun i => BitVec.ofNat 8 (mmioRead s (off / 2 ^ 32) (off % 2 ^ 32) n / 2 ^ (8 * i)))) })
      ∧ (¬ reaches → exec (.hostMemRead (.bar0 off) n) s = .next { s with hostOut := .unsupported })

/-- R21, R25, R32, R128: a request of another device is served in the PEER window, whose own translation it passes, and is answered; one for a third device goes on with one hop
more; one that cannot be served is answered with an error, and an error of memory that it meets is recorded without a launch (log 58). The error answer of a target discards the launch of the access, under class TARGET. -/
def Sys2Proof.Claim.PeerAccesses : Prop :=
  (∀ (s : State) (r : PeerReq), s.canonical →
    (r.device = s.deviceId → peerTranslate s r.die r.off (opWrites r.op) = none → exec (.peerAccessArrive r) s = .next (peerAnswer s r false 0))
    ∧ (∀ key s', r.device = s.deviceId → peerTranslate s r.die r.off (opWrites r.op) = some (key, s') → s'.canonical → r.bit = 0 → r.bits = 8 * r.bytes →
      (r.op = .load → badLine? s' key r.bytes = none → ∃ u, tagsOnly u s'
        ∧ exec (.peerAccessArrive r) s = .next (peerAnswer u r true (BitVec.ofNat 2048 (memRead s'.mem key r.bytes))))
      ∧ (∀ l, r.op = .load → badLine? s' key r.bytes = some l → ∃ u f, exec (.peerAccessArrive r) s = .next (peerAnswer u r false 0)
        ∧ u.faultQueue = s'.faultQueue ++ [f] ∧ f.kind = 3 ∧ f.src = 6 ∧ f.cls = 0x10 ∧ f.cause = 2 ∧ f.launch = none ∧ f.addr = BitVec.ofNat 64 (128 * l)
        ∧ { u with faultQueue := s'.faultQueue, faultSeq := s'.faultSeq } = s')
      ∧ (r.op = .store → ∃ u, exec (.peerAccessArrive r) s = .next (peerAnswer u r true (BitVec.ofNat 2048 (memRead s'.mem key r.bytes)))
        ∧ ∀ a, memGet u.mem a = if key ≤ a ∧ a < key + r.bytes then BitVec.ofNat 8 (r.data.toNat / 2 ^ (8 * (a - key))) else memGet s'.mem a))
    ∧ (∀ p, r.device ≠ s.deviceId → s.route r.device = some p → s.portUp p = true → r.hops < 63 →
      exec (.peerAccessArrive r) s = .next (sendAt s p (.peerReq { r with hops := r.hops + 1 })))
    ∧ (r.device ≠ s.deviceId → (∀ p, s.route r.device = some p → s.portUp p = false ∨ 63 ≤ r.hops) → exec (.peerAccessArrive r) s = .next (peerAnswer s { r with hops := r.hops + 1 } false 0)))
  ∧ ∀ (s : State) (k id bundle : Nat) (a : Access) (p : Piece) (l : Launch), (s.ctx k).pend.find? (·.id == id) = some ⟨id, bundle, .access a⟩ →
      a.pieces.head? = some p → s.launch? (s.ctx k).unit.launch = some l → l.done = false → (s.ctx k).status ≠ .free →
      ((∀ d off, p.place = .peer d off → ∃ t r, exec (.targetErrorResponse k id) s = .next t ∧ t.faultQueue = s.faultQueue ++ [r] ∧ r.kind = 3 ∧ r.src = 5
          ∧ r.cls = 0x12 ∧ r.cause = 1 ∧ r.device = d ∧ r.addr = BitVec.ofNat 64 off ∧ r.launch = some l.id ∧ (t.launch? l.id).map (·.done) = some true)
        ∧ ∀ h, p.place = .host h → ∃ t r, exec (.targetErrorResponse k id) s = .next t ∧ t.faultQueue = s.faultQueue ++ [r] ∧ r.kind = 3
          ∧ r.cls = 0x12 ∧ r.cause = 2 ∧ r.host = true ∧ r.addr = BitVec.ofNat 64 h ∧ (t.launch? l.id).map (·.done) = some true)

/-- R3, R34, R77, R155, R166, R330, R357, R376, R395, R410, R414, R416: a register write is dropped before DEV_READY; a write of plain fields stores those bits and no others; new heat limits
apply at once; a write of a descriptor or sharding entry waits in the list of pending ones, which is the model's choice (log 86); and a write of a register with an effect of its own
is that event. -/
def Obligations.RegisterWrites : Prop :=
  ∀ (s : State) (v : W64), s.canonical →
    (∀ die off n, s.devReady = false → exec (.registerWrite die off n v) s = .next s)
    ∧ (s.devReady = true →
      (∀ x ∈ ([(0x100, 0x1FFFF), (0x108, 0x0000FFFFFFFFF000), (0x210, 0x1F), (0x318, 0xFFFFFFFFFFFFFFFF), (0x400, 0x800000000000003F),
          (0x600, 0x0000FFFFFFFFF000), (0x610, 0x7F), (0x8000, 0x80FF)] : List (Nat × W64)),
        ∃ t, exec (.registerWrite 0 x.1 8 v) s = .next t ∧ t.mmioWord 0 x.1 = (s.mmioWord 0 x.1 &&& ~~~x.2) ||| (v &&& x.2)
          ∧ (∀ o, o % 8 = 0 → o < 2 ^ 32 → o ≠ x.1 → t.mmioWord 0 o = s.mmioWord 0 o) ∧ { t with mmio := s.mmio } = s)
      ∧ (∃ t, exec (.registerWrite 0 0x300 8 v) s = .next t ∧ bitsFrom (t.mmioWord 0 0x300) 0 8 = min 200 (max 5 (bitsFrom v 0 8))
          ∧ bitsFrom (t.mmioWord 0 0x300) 16 3 = bitsFrom v 16 3 ∧ { t with mmio := s.mmio } = s)
      ∧ (∃ t, exec (.registerWrite 0 0x320 8 v) s = .next t ∧ t.mmioWord 0 0x320 = (s.mmioWord 0 0x320 &&& ~~~0xFFFF) ||| (v &&& 0xFFFF)
          ∧ (∀ o, o % 8 = 0 → o < 2 ^ 32 → o ≠ 0x320 → t.mmioWord 0 o = s.mmioWord 0 o)
          ∧ (∀ d, d ∈ t.tripped ↔ d < 4 ∧ (bitsFrom v 8 8 ≤ bitsFrom (s.mmioWord 0 0x328) (8 * d) 8
              ∨ (d ∈ s.tripped ∧ bitsFrom v 0 8 ≤ bitsFrom (s.mmioWord 0 0x328) (8 * d) 8))) ∧ { t with mmio := s.mmio, tripped := s.tripped } = s)
      ∧ (∀ p < 32, ∃ t, exec (.registerWrite 0 (0x1008 + 16 * p) 8 v) s = .next t ∧ (∀ o, o < 2 ^ 32 → t.mmioWord 0 o = s.mmioWord 0 o) ∧ { t with mmio := s.mmio } = s)
      ∧ (∀ off, isTable off = true → exec (.registerWrite 0 off 8 v) s = .next { s with tableWrites := s.tableWrites ++ [(off, 8, v)] })
      ∧ exec (.registerWrite 0 0x200 8 v) s = exec (.tickDetWrite (v.setWidth 32)) s
      ∧ (∀ die q, die < 4 → q < 16 → exec (.registerWrite die (0xA000 + 32 * q + 8) 8 v) s = exec (.lqSubmit die q v) s)
      ∧ (∀ i < 1300, bitsFrom v 61 3 = 0 → exec (.registerWrite 0 (0x300000 + 16 * i) 8 v) s = exec (.levelEntryFree i) s)
      ∧ (∀ j < 4, bitsFrom v 61 3 = 3 → exec (.registerWrite 0 (0x300000 + 16 * (1296 + j)) 8 v) s = exec (.jobEnd j) s)
      ∧ (∀ g < 64, exec (.registerWrite 0 (0x400000 + 32 * g) 8 v) s = exec (.collGroupDefine g v) s)
      ∧ (v.getLsbD 63 = true → exec (.registerWrite 0 0x500000 8 v) s = exec (.logEnable v) s)
      ∧ (∀ x ∈ [(0, Instr.fresumeResume (bitsFrom v 32 32)), (1, Instr.fresumeSkip (bitsFrom v 32 32)), (2, Instr.fresumeCancel (bitsFrom v 32 32)),
          (3, Instr.fresumeRedirect (bitsFrom v 32 32))], bitsFrom v 0 2 = x.1 → exec (.registerWrite 0 0x618 8 v) s = exec x.2 s)
      ∧ (∀ die i w, die < 4 → i < 128 → w < 4096 →
          exec (.registerWrite die (0x1000000 + 0x8000 * i + 8 * w) 8 v) s = exec (.mprogWrite die (0x1000000 + 0x8000 * i + 8 * w) v) s)
      ∧ ∀ p < 32, v.getLsbD 2 = true → ∃ u, exec (.registerWrite 0 (0x1000 + 16 * p) 8 v) s = exec (.portReattest p) u ∧ { u with mmio := s.mmio } = s)

/-- R388, R394, R396, R397: a memory error leaves every byte outside its line as it is and is recorded, a later read of the line meets it, and the launch that met it is discarded;
so is one that a parity error meets. A record that the
ring has room for is written with its words, HEAD goes up, regions beyond the third go into a record of KIND 4, and with FRMBX.EN the event value stands in the mailbox's word. That
an error which no launch met has CAUSE 2 is a reading of the model (log 58). -/
def Sys2Proof.Claim.ErrorsAndFaultRecords : Prop :=
  (∀ (s : State) (pa : Nat), s.canonical → populated pa = true →
    (∃ t r, exec (.memoryError pa none) s = .next t ∧ t.faultQueue = s.faultQueue ++ [r] ∧ r.kind = 3 ∧ r.src = 6 ∧ r.cls = 0x10 ∧ r.cause = 2 ∧ r.launch = none
      ∧ r.addr = BitVec.ofNat 64 (pa / 128 * 128) ∧ (∀ a, a / 128 ≠ pa / 128 → memGet t.mem a = memGet s.mem a) ∧ badLine? t pa 1 = some (pa / 128)
      ∧ t.ctxs = s.ctxs ∧ t.launches = s.launches)
    ∧ ∀ l, s.launch? l.id = some l → l.done = false → ∃ t r, exec (.memoryError pa (some l.id)) s = .next t ∧ t.faultQueue = s.faultQueue ++ [r]
      ∧ r.kind = 3 ∧ r.src = 6 ∧ r.cls = 0x10 ∧ r.cause = 1 ∧ r.launch = some l.id ∧ r.addr = BitVec.ofNat 64 (pa / 128 * 128)
      ∧ (t.launch? l.id).map (·.done) = some true)
  ∧ (∀ (s : State) (l : Launch), s.launch? l.id = some l → l.done = false → ∃ t r, exec (.internalParityError l.id) s = .next t
      ∧ t.faultQueue = s.faultQueue ++ [r] ∧ r.kind = 3 ∧ r.cls = 0x15 ∧ r.cause = 2 ∧ r.launch = some l.id ∧ (t.launch? l.id).map (·.done) = some true)
  ∧ ∀ (s : State) (r : FaultRec) (rest : List FaultRec), s.canonical → s.faultQueue = r :: rest →
      let head := bitsFrom (s.mmioWord 0 0x608) 0 6
      let tail := bitsFrom (s.mmioWord 0 0x608) 32 6
      let key := (s.mmioWord 0 0x600).toNat + 64 * head
      ((head + 1) % 64 = tail → exec .faultRecordWrite s = .next s)
      ∧ ((head + 1) % 64 ≠ tail → populated key = true → (s.mmioWord 0 0x610).getLsbD 6 = false → ∃ t, exec .faultRecordWrite s = .next t
        ∧ memRead t.mem key 64 = recordWords r % 2 ^ 512 ∧ (∀ a, ¬ (key ≤ a ∧ a < key + 64) → memGet t.mem a = memGet s.mem a)
        ∧ bitsFrom (t.mmioWord 0 0x608) 0 6 = (head + 1) % 64 ∧ bitsFrom (t.mmioWord 0 0x608) 32 6 = tail
        ∧ t.faultQueue = (if r.regions.length ≤ 3 then [] else [{ r with kind := 4, regions := r.regions.drop 3 }]) ++ rest)
      ∧ (let event := bitsFrom (s.mmioWord 0 (0xC000 + 32 * bitsFrom (s.mmioWord 0 0x610) 0 6)) 3 45 * 8
        (head + 1) % 64 ≠ tail → populated key = true → (s.mmioWord 0 0x610).getLsbD 6 = true → populated event = true → (event + 8 ≤ key ∨ key + 64 ≤ event) →
        r.seq < 2 ^ 32 → ∃ t, exec .faultRecordWrite s = .next t
          ∧ memRead t.mem key 64 = recordWords r % 2 ^ 512 ∧ memRead t.mem event 8 = 4 * 2 ^ 56 + r.seq
          ∧ (∀ a, ¬ (key ≤ a ∧ a < key + 64) → ¬ (event ≤ a ∧ a < event + 8) → memGet t.mem a = memGet s.mem a)
          ∧ bitsFrom (t.mmioWord 0 0x608) 0 6 = (head + 1) % 64 ∧ bitsFrom (t.mmioWord 0 0x608) 32 6 = tail
          ∧ t.faultQueue = (if r.regions.length ≤ 3 then [] else [{ r with kind := 4, regions := r.regions.drop 3 }]) ++ rest)

/-- R391, R393, R395: FRESUME decides a record that has been written. The unit in its handler resumes at its bundle, after it, or at FRESUME's address, with every register as it is, or its
launch is cancelled; where the handler store holds code, that code runs first, from its first word, which the model gives the address 0, and trap.ret takes the unit there (log 8). A
suspended copy goes on or its launch is cancelled; a decision for nothing that waits, or for a record that is not written yet, changes nothing (log 60). -/
def Sys2Proof.Claim.ResumeDecisions : Prop :=
  ∀ (s : State) (seq : Nat), s.devReady = true →
    let acts : List (Nat × Instr) := [(0, .fresumeResume seq), (1, .fresumeSkip seq), (2, .fresumeCancel seq), (3, .fresumeRedirect seq)]
    ((s.decisions.find? (·.seq == seq) = none ∨ s.faultQueue.any (·.seq == seq) = true) → ∀ x ∈ acts, exec x.2 s = .next s)
    ∧ (∀ k a, s.decisions.find? (·.seq == seq) = some ⟨seq, none, some k, a⟩ → s.faultQueue.any (·.seq == seq) = false →
        (s.ctx k).status = .handler → (s.ctx k).handling = false → (s.ctx k).record = some seq → (∀ v ∈ s.savedCtxs, v.key = k → v.record ≠ some seq) →
        (∀ x ∈ acts, x.1 ≠ 2 → (x.1 = 1 → bitsFrom (s.ctx k).faultInfo 8 8 ≠ 1) →
          let at' := if x.1 = 0 then (s.ctx k).trapPc else if x.1 = 1 then (bundleEnd (s.setCtx k { s.ctx k with handling := false }) k (s.ctx k).trapPc 8).getD (s.ctx k).trapPc
            else s.mmioWord 0 0x620
          ((s.core (k / 4)).handlerStore = [] → ∃ t, exec x.2 s = .next t ∧ (t.ctx k).status = .running ∧ (t.ctx k).record = none ∧ (t.ctx k).pc = at'
            ∧ { t.ctx k with status := (s.ctx k).status, record := (s.ctx k).record, pc := (s.ctx k).pc, wait := (s.ctx k).wait, skip := (s.ctx k).skip } = s.ctx k
            ∧ (∀ d ∈ t.decisions, d.seq ≠ seq) ∧ t.mem = s.mem)
          ∧ ((s.core (k / 4)).handlerStore ≠ [] → ∃ t, exec x.2 s = .next t ∧ (t.ctx k).status = .handler ∧ (t.ctx k).handling = true ∧ (t.ctx k).pc = 0
            ∧ (t.ctx k).trapPc = at' ∧ (t.ctx k).wait = none
            ∧ { t.ctx k with trapPc := (s.ctx k).trapPc, handling := false, pc := (s.ctx k).pc, wait := (s.ctx k).wait, skip := (s.ctx k).skip } = s.ctx k
            ∧ (∀ d ∈ t.decisions, d.seq ≠ seq) ∧ t.mem = s.mem))
        ∧ ∀ l, s.launch? (s.ctx k).unit.launch = some l → l.done = false → ∃ t, exec (.fresumeCancel seq) s = .next t ∧ (t.launch? l.id).map (·.done) = some true)
    ∧ ∀ id a c, s.decisions.find? (·.seq == seq) = some ⟨seq, some id, none, a⟩ → s.faultQueue.any (·.seq == seq) = false → s.copy? id = some c →
        (∃ t, exec (.fresumeResume seq) s = .next t ∧ t.copy? id = some { c with state := .running } ∧ (∀ d ∈ t.decisions, d.seq ≠ seq) ∧ t.mem = s.mem)
        ∧ (∃ t, exec (.fresumeSkip seq) s = .next t ∧ t.copies = s.copies ∧ t.decisions.map (·.seq) = s.decisions.map (·.seq))
        ∧ ∀ l, s.launch? c.launch = some l → l.done = false → ∃ t, exec (.fresumeCancel seq) s = .next t ∧ (t.launch? l.id).map (·.done) = some true

/-- R399 to R401, R4, R52, R392: a context that is to be saved stops at a bundle boundary; once nothing of it is pending its image is written, and it is free with STATE 2; the restore of an image
gives the context back every register, reserved bits as 0. Firmware that has performed a bundle lets the context run again. -/
def Sys2Proof.Claim.ContextSaveAndRestore : Prop :=
  (∀ (s : State) (k : Nat), s.canonical →
    (preState s k = 1 → (∀ p, s.bundle = some p → p.ctx ≠ k) → (s.ctx k).status = .running ∨ (s.ctx k).status = .handler →
      (s.ctx k).wait ≠ some (.block .emulation) → (∀ n i, (s.ctx k).wait ≠ some (.block (.passed n i))) → ∃ t, exec (.contextSave k) s = .next t ∧ (t.ctx k).status = .saving ∧ (t.ctx k).wait = none ∧ (t.core (k / 4)).cur ≠ some (k % 4) ∧ t.mem = s.mem)
    ∧ (preState s k ≠ 1 → exec (.contextSave k) s = .next s)
    ∧ (preState s k = 1 → (s.ctx k).status = .saving → saveSettled s k = true →
      let base := bitsFrom (prectl s k) 8 40 * 256
      ∃ t, exec (.contextSaveComplete k) s = .next t ∧ t.ctx k = Ctx.reset ∧ preState t k = 2
        ∧ memRead t.mem base 0x3000 = image (s.ctx k) % 2 ^ (8 * 0x3000) ∧ (∀ a, ¬ (base ≤ a ∧ a < base + 0x3000) → memGet t.mem a = memGet s.mem a)
        ∧ (∀ c ∈ t.copies, c.core = k / 4 → c.ctx ≠ k % 4) ∧ t.copies.map (·.id) = s.copies.map (·.id)
        ∧ ∃ x, t.savedCtxs = s.savedCtxs ++ [x] ∧ x.key = k ∧ x.unit = (s.ctx k).unit ∧ x.record = (s.ctx k).record)
    ∧ (preState s k = 1 → (s.ctx k).status = .saving → saveSettled s k = false → exec (.contextSaveComplete k) s = .next s)
    ∧ (∀ x, preState s k = 2 ∨ preState s k = 3 → (preState s k = 2 → (s.ctx k).status = .free) → s.savedCtxs.find? (·.key == k) = some x → x.record = none →
      let c := fromImage (memRead s.mem (bitsFrom (prectl s k) 8 40 * 256) 0x3000) x
      ((s.core (k / 4)).dir.length + (writableViews c).length ≤ 64 → ∃ t, exec (.contextRestore k) s = .next t
        ∧ { t.ctx k with skip := 0 } = { c with handling := c.status == .handler && !(s.core (k / 4)).handlerStore.isEmpty }
        ∧ preState t k = 0 ∧ t.savedCtxs = s.savedCtxs.filter (·.key != k) ∧ (∀ c ∈ t.copies, c.core = k / 4 → c.ctx ≠ k % 4 + 4) ∧ t.mem = s.mem)
      ∧ (64 < (s.core (k / 4)).dir.length + (writableViews c).length → ∃ t, exec (.contextRestore k) s = .next t ∧ preState t k = 3
        ∧ t.savedCtxs = s.savedCtxs ∧ t.mem = s.mem)))
  ∧ (∀ (c : Ctx) (x : SavedCtx), (∀ j < 16, (vget c.q j ⟨false, 0, none⟩).pend = none ∧ (vget c.h j ⟨0, none⟩).pend = none) →
      (∀ j < 32, (vget c.g j ⟨0, none⟩).pend = none ∧ (vget c.bank j ⟨0, none⟩).pend = none) → c.stageCtr < 2 ^ 64 → x.bumps = [] →
      let d := fromImage (image c % 2 ^ (8 * 0x3000)) x
      d.pc = c.pc ∧ d.q = c.q ∧ d.g = c.g ∧ d.h = c.h ∧ (∀ j < 16, vget d.w j 0 = vget c.w j 0 &&& ~~~0xFFFFFFFFFF008000) ∧ d.shadow = c.shadow ∧ d.p = c.p ∧ d.k = c.k ∧ d.c = c.c ∧ d.mpc = c.mpc
        ∧ d.lp0 = c.lp0 ∧ d.lp1 = c.lp1 ∧ d.asid = c.asid &&& 0xFFFF ∧ d.asperm = c.asperm &&& 0x1E ∧ d.ptroot = c.ptroot &&& 0x0000FFFFFFFFF000 ∧ d.pclass = c.pclass &&& 3 ∧ d.fpflags = c.fpflags
        ∧ d.faultInfo = c.faultInfo &&& 0x70FF0F ∧ d.faultAddr = c.faultAddr ∧ d.trapPc = c.trapPc ∧ d.bank = c.bank ∧ d.stageCtr = c.stageCtr
        ∧ (d.monitor.map (·.woken) = c.monitor.map fun _ => some 4) ∧ d.task.map (·.1) = c.task.map (·.1))
  ∧ ∀ (s : State) (k : Nat),
      ((s.ctx k).status = .emulating → ∃ t, exec (.emulationComplete k) s = .next t ∧ (t.ctx k).status = (if (s.ctx k).handling then .handler else .running)
        ∧ { t.ctx k with status := .emulating, skip := (s.ctx k).skip } = s.ctx k ∧ t.mem = s.mem)
      ∧ ((s.ctx k).status ≠ .emulating → exec (.emulationComplete k) s = .next s)

/-- R134, R143, R147, R300, R308, R399, R402: the call at the head of an engine's queue starts once the phase that it waits for is over and the gives of its tiles have taken
effect, with its accumulator tiles empty (log 97); while calls of a launch are saved, those of other launches start. A running call that is to be saved is, at an interrupt point, written to its save area with the queued calls of its launch, which leave the engine; a restore puts them back at the head of the
queue with the fields of the area, once no call runs, but for those that have been stopped (log 62). -/
def Sys2Proof.Claim.EngineSaveAndRestore : Prop :=
  ∀ (s : State) (e : Nat), s.canonical →
    (let saved := (s.savedCalls.find? (·.engine == e)).map (·.call.launch);
      s.running e = none →
      ((∀ x ∈ (s.engine e).queue, some x.launch = saved) → exec (.matCallStart e) s = .next s)
      ∧ ∀ a c b, (s.engine e).queue = a ++ c :: b → (∀ x ∈ a, some x.launch = saved) → some c.launch ≠ saved →
      ((c.ph = 63 ∨ phaseDone (s.phaser c.core c.ph).phase c.phase = true) → c.tiles.any (giveWaits s) = false → ∃ t, exec (.matCallStart e) s = .next t
        ∧ (t.engine e).queue = { c with started := true } :: (a ++ b)
        ∧ (∀ n < 8, c.accw.testBit n = true → (vget (t.engine e).acc n ⟨true, []⟩).full = false)
        ∧ (∀ n < 8, c.accw.testBit n = false → vget (t.engine e).acc n ⟨true, []⟩ = vget (s.engine e).acc n ⟨true, []⟩)
        ∧ { t with engines := s.engines } = s)
      ∧ ((c.ph ≠ 63 ∧ phaseDone (s.phaser c.core c.ph).phase c.phase = false) ∨ c.tiles.any (giveWaits s) = true → exec (.matCallStart e) s = .next s))
    ∧ (∀ c, s.running e = some c → mepreState s e = 1 → atInterrupt s e c = true → c.stop = false →
      let base := bitsFrom (mepre s e) 8 40 * 256
      ∃ t, exec (.mepreSave e) s = .next t ∧ (t.engine e).queue = (s.engine e).queue.tail.filter (·.launch != c.launch) ∧ mepreState t e = 2
        ∧ t.savedCalls = s.savedCalls ++ [⟨e, c, (s.engine e).queue.tail.filter (·.launch == c.launch)⟩]
        ∧ memRead t.mem base 128 = (saveArea c).1 % 2 ^ 1024 ∧ memRead t.mem (base + 128) 32 = (saveArea c).2 % 2 ^ 256)
    ∧ (∀ c, s.running e = some c → mepreState s e = 1 → atInterrupt s e c = false ∨ c.stop = true → exec (.mepreSave e) s = .next s)
    ∧ (s.running e = none → mepreState s e = 1 → ∃ t, exec (.mepreSave e) s = .next t ∧ mepreState t e = 0 ∧ { t with mmio := s.mmio } = s)
    ∧ ∀ v, s.savedCalls.find? (·.engine == e) = some v →
      (mepreState s e = 2 ∨ mepreState s e = 3 → s.running e = none → ∃ t c kept, exec (.mepreRestore e) s = .next t
        ∧ (t.engine e).queue = (c :: kept).filter (!·.stop) ++ (s.engine e).queue ∧ c.stop = v.call.stop ∧ kept.map (·.stop) = v.kept.map (·.stop) ∧ c.routine = v.call.routine ∧ c.started = v.call.started ∧ c.launch = v.call.launch
        ∧ c.word = memRead s.mem (bitsFrom (mepre s e) 8 40 * 256 + 88) 8 ∧ kept.length = v.kept.length ∧ mepreState t e = 0
        ∧ t.savedCalls = s.savedCalls.filter (·.engine != e) ∧ t.mem = s.mem)
      ∧ (mepreState s e = 2 → (s.running e).isSome = true → ∃ t, exec (.mepreRestore e) s = .next t ∧ mepreState t e = 3 ∧ { t with mmio := s.mmio } = s)

/-- R330, R334, R335, R358: a group definition starts its sequence at 0; an abort flit ends the run that it names; each member sends check flits for its runs; an order mismatch
ends every run of the group, whose record the mailbox event follows, and cancels it; a staggered signal is sent once it is due. A port whose FSEQ would wrap goes down (log 110). -/
def Sys2Proof.Claim.CollectiveEventResults : Prop :=
  (∀ (s : State) (g q : Nat), exec (.collAbortFlit g q) s =
      .next { s with runs := s.runs.map fun r => if r.group = g ∧ r.seq = q ∧ r.status = none then { r with status := some 1 } else r })
  ∧ (∀ (s : State) (g : Nat) (v : W64), s.canonical → s.devReady = true → g < 64 → ∃ t, exec (.collGroupDefine g v) s = .next t
      ∧ (t.group g 0).getLsbD 63 = v.getLsbD 63 ∧ bitsFrom (t.group g 0) 0 32 = bitsFrom v 0 32
      ∧ (v.getLsbD 63 = true → groupSeq t g = 0 ∧ (t.group g 0).getLsbD 62 = false)
      ∧ (v.getLsbD 63 = false → groupSeq t g = groupSeq s g ∧ (t.group g 0).getLsbD 62 = (s.group g 0).getLsbD 62)
      ∧ (∀ h < 64, h ≠ g → t.group h 0 = s.group h 0) ∧ { t with mmio := s.mmio } = s)
  ∧ (∀ s : State, (∀ r ∈ s.runs, r.status ≠ none) → exec .collCheckTick s = .next s)
  ∧ (∀ (s : State) (r : CollRun) (p : Nat), s.runs = [r] → r.status = none → r.peers = [p] →
      exec .collCheckTick s = .next (sendMsg s (memRead s.mem (bitsFrom (s.group r.group 1) 0 48 + 2 * p) 2) (.check s.deviceId r.group r.seq r.opid)))
  ∧ (∀ s : State, ∃ t, exec .collCheckTick s = .next t ∧ { t with ports := s.ports, packets := s.packets, agenda := s.agenda, mmio := s.mmio } = s)
  ∧ (∀ (s : State) (g q : Nat), s.canonical → g < 64 →
      ((∃ r ∈ s.runs, r.group = g ∧ r.status = none) ∨ (s.group g 0).getLsbD 62 = false → ∃ t, exec (.collOrder g q) s = .next t
        ∧ (t.group g 0).getLsbD 62 = true ∧ (∀ r ∈ t.runs, r.group = g → r.status ≠ none))
      ∧ ((∃ r ∈ s.runs, r.group = g ∧ r.status = none) → ∃ t, exec (.collOrder g q) s = .next t ∧ { t with mmio := s.mmio, runs := s.runs } = s
        ∧ t.runs = s.runs.map fun r => if r.group = g ∧ r.status = none then
            { r with status := some 2, event := some (BitVec.ofNat 64 (1 <<< 56 ||| g <<< 32 ||| q)) } else r)
      ∧ ((∀ r ∈ s.runs, r.group = g → r.status ≠ none) → (s.group g 0).getLsbD 62 = true → exec (.collOrder g q) s = .next s)
      ∧ ((∀ r ∈ s.runs, r.group = g → r.status ≠ none) → (s.group g 0).getLsbD 62 = false → q < 2 ^ 16 →
        let key := bitsFrom (s.mmioWord 0 (0xC000 + 32 * bitsFrom (s.group g 2) 0 6)) 3 45 * 8
        ((s.group g 2).getLsbD 6 = true → populated key = true → ∃ t, exec (.collOrder g q) s = .next t
          ∧ memRead t.mem key 8 = 2 ^ 56 + g * 2 ^ 32 + q ∧ ∀ a, ¬ (key ≤ a ∧ a < key + 8) → memGet t.mem a = memGet s.mem a)
        ∧ ((s.group g 2).getLsbD 6 = false → ∃ t, exec (.collOrder g q) s = .next t ∧ { t with mmio := s.mmio } = s)))
  ∧ ∀ (s : State) (i : Nat) (x : Stagger), s.staggers[i]? = some x →
      (x.due ≤ s.clk → exec (.staggerRelease i) s = .next (engineSignal { s with staggers := s.staggers.eraseIdx i } x.core x.slot))
      ∧ (s.clk < x.due → exec (.staggerRelease i) s = .next s)

/-- R374 to R379, R384: the pair log. EN = 1 takes effect only under its conditions, and EN = 0 always; entries go up the tree, wait at rank 0 for their round, which is released at
once when the last of it arrives, come down released and are written to their free slot, also where the group is no longer defined; a round that is late is released with VOID entries in place of those that are
missing. That a write of LOGCTL while EN is 1 changes nothing, and that one whose EN stays 0 keeps its other fields, are readings of the model (log 13), as are the entries kept at the ingress until their slot is free (log 99). -/
def Sys2Proof.Claim.LogTreeResults : Prop :=
  ∀ (s : State), s.canonical →
    let g := logGroup s
    let member := (s.group g 0).getLsbD 63 = true
    let root := (groupRanks s g).2 = 0
    (∀ v : W64, s.devReady = true →
      (logEn s = true → exec (.logEnable v) s = .next s)
      ∧ (logEn s = false →
        let u := s.setMmio 0 0x500000 (v &&& 0x0000FFFFFFFFFFFF)
        ∃ t, exec (.logEnable v) s = .next t ∧ bitsFrom (t.mmioWord 0 0x500000) 0 48 = bitsFrom v 0 48 ∧ logEn t = logMayStart u
          ∧ (logMayStart u = false → { t with mmio := s.mmio } = s)))
    ∧ (s.devReady = true → ∃ t, exec .logDisable s = .next t ∧ logEn t = false ∧ bitsFrom (t.mmioWord 0 0x500000) 0 63 = bitsFrom (s.mmioWord 0 0x500000) 0 63
        ∧ logState t = (if logState s = 1 then 1 else 0) ∧ { t with mmio := s.mmio } = s)
    ∧ (∀ e : BitVec 256,
      let down := if (s.group g 0).getLsbD 63 then s.log.down ++ [e] else s.log.down
      let owners := s.log.owners.filter fun x => x.1 ≠ entrySeq e
      let dropped := (s.mmioWord 0 0x500040).getLsbD 63 = true ∧ bitsFrom (s.mmioWord 0 0x500040) 0 48 = entrySeq e
      (¬ member → exec (.logEntryArrive e) s = .next s ∧ (logEn s = false → exec (.logReleasedArrive e) s = .next s))
      ∧ (member → ¬ root → exec (.logEntryArrive e) s = .next { s with log := { s.log with up := s.log.up ++ [e] } })
      ∧ (member → root → logEn s = false ∨ entrySeq e / logN s < s.log.released → ∃ t, exec (.logEntryArrive e) s = .next t
          ∧ bitsFrom (t.mmioWord 0 0x500038) 32 32 = (bitsFrom (s.mmioWord 0 0x500038) 32 32 + 1) % 2 ^ 32 ∧ { t with mmio := s.mmio } = s)
      ∧ (member → root → logEn s = true → s.log.released ≤ entrySeq e / logN s →
          let n := logN s
          let u := { s with log := { s.log with held := s.log.held ++ [e] } }
          let full := ∀ k < n, ∃ x ∈ u.log.held, entrySeq x = s.log.released * n + k
          ((∃ x ∈ s.log.held, entrySeq x = entrySeq e) → exec (.logEntryArrive e) s = .next s)
          ∧ ((∀ x ∈ s.log.held, entrySeq x ≠ entrySeq e) → bitsFrom (logCtl s) 0 16 ≠ 0 ∨ ¬ full → exec (.logEntryArrive e) s = .next u)
          ∧ ((∀ x ∈ s.log.held, entrySeq x ≠ entrySeq e) → bitsFrom (logCtl s) 0 16 = 0 → full → (∀ x ∈ u.log.held, entrySeq x / n ≠ s.log.released + 1) →
            ∃ t, exec (.logEntryArrive e) s = .next t ∧ t.log.released = s.log.released + 1 ∧ t.log.ticks = 0
              ∧ t.log.held = u.log.held.filter (fun x => entrySeq x / n ≠ s.log.released)
              ∧ t.log.down.length = s.log.down.length + n ∧ (∀ i < s.log.down.length, t.log.down[i]? = s.log.down[i]?)
              ∧ ∀ k < n, ∃ x ∈ u.log.held, entrySeq x = s.log.released * n + k ∧ t.log.down[s.log.down.length + k]? = some (releaseEntry x)))
      ∧ (member → logEn s = false → exec (.logReleasedArrive e) s = .next { s with log := { s.log with down := down, owners := owners } })
      ∧ (logEn s = true → s.log.arrived = [] → ¬ dropped →
          let key := ringKey s (entrySeq e)
          (slotFree s (entrySeq e) = true → ∃ t, exec (.logReleasedArrive e) s = .next t ∧ memRead t.mem key 32 = e.toNat
            ∧ (∀ a, ¬ (key ≤ a ∧ a < key + 32) → memGet t.mem a = memGet s.mem a) ∧ t.log = { s.log with down := down, owners := owners })
          ∧ (slotFree s (entrySeq e) = false → exec (.logReleasedArrive e) s =
              .next { s with log := { s.log with down := down, owners := owners, arrived := [e] } }))
      ∧ (logEn s = true → dropped → ∃ t, exec (.logReleasedArrive e) s = .next t ∧ (t.mmioWord 0 0x500040).getLsbD 63 = false
          ∧ bitsFrom (t.mmioWord 0 0x500040) 0 63 = bitsFrom (s.mmioWord 0 0x500040) 0 63
          ∧ { t with mmio := s.mmio } = { s with log := { s.log with down := down, owners := owners } }))
    ∧ (¬ member → ∃ t, exec .logTickSend s = .next t ∧ { t with log := s.log } = s
        ∧ t.log.gapTicks = (if logState s = 2 then s.log.gapTicks + 1 else s.log.gapTicks) ∧ { t.log with ticks := s.log.ticks, gapTicks := s.log.gapTicks } = s.log)
    ∧ (member → ∃ t, exec .logTickSend s = .next t ∧ t.log.up = [] ∧ t.log.gapTicks = (if logState s = 2 then s.log.gapTicks + 1 else s.log.gapTicks)
        ∧ (¬ root → bitsFrom (logCtl s) 0 16 ≠ 0 → t.log.down = [] ∧ t.log.released = s.log.released)
        ∧ (∀ e, ¬ root → s.log.up = [e] → s.log.down = [] → t.ports = (sendMsg s (rankDevice s g (((groupRanks s g).2 - 1) / 2)) (.logUp e)).ports))
    ∧ (logEn s = true → bitsFrom (logCtl s) 0 16 = 0 → (heldOf s s.log.released ≠ []) → bitsFrom (logCfg s) 16 16 ≤ s.log.ticks →
        let n := logN s
        ∃ t, exec .logVoidTimeout s = .next t ∧ t.log.released = s.log.released + 1 ∧ t.log.ticks = 0
          ∧ t.log.down = s.log.down ++ (List.range n).map fun k => releaseEntry
              (((heldOf s s.log.released).find? (entrySeq · == s.log.released * n + k)).getD (voidEntry (s.log.released * n + k) n k)))
    ∧ (¬ (logEn s = true ∧ bitsFrom (logCtl s) 0 16 = 0 ∧ heldOf s s.log.released ≠ [] ∧ bitsFrom (logCfg s) 16 16 ≤ s.log.ticks) →
        exec .logVoidTimeout s = .next s)

namespace Sys2Proof.Machine

/-- Every block scale that the round of a state reads can be read now (R92). -/
def State.scalesReady (s : State) : Prop := ∀ x ∈ roundScales (roundWork s), scaleReady s x = true

end Sys2Proof.Machine

/-- R92, R380 to R386: MORDANT. It rests beyond the limit, waits at the first slot that is not ready, stops there with LOG_GAP once GAPT ticks have passed, stops with a fault where a slot cannot be
read or an element has no legal place, waits for the tiles of its operands and for the block scales that it reads, asking other devices for theirs (log 100), and else applies the round: every master takes its new
value, CURSOR moves on by a round and STATE is 0 again (log 39: the rules state no value of STATE after a round). Which elements of a round that stops hold their new value is free (log 37). -/
def Obligations.Replay : Prop :=
  ∀ (s : State), s.canonical →
    let st := logState s
    let n := logN s
    let cursor := logCursor s
    let slots := (List.range n).map (cursor + ·)
    (st ≠ 1 → (logEn s = false ∨ 3 ≤ st ∨ logLimit s < cursor + n) → exec .mordantRound s = .next s)
    ∧ (∀ q, st = 0 ∨ st = 2 → logEn s = true → cursor + n ≤ logLimit s → slots.find? (fun q => slotBad s q || !slotReady s q) = some q →
        (slotBad s q = false → st = 2 → s.log.waitAt = q → exec .mordantRound s = .next s)
        ∧ (slotBad s q = false → ¬ (st = 2 ∧ s.log.waitAt = q) → ∃ t, exec .mordantRound s = .next t ∧ logState t = 2 ∧ t.log.waitAt = q ∧ logCursor t = cursor ∧ t.mem = s.mem
          ∧ t.log.gapTicks = 0)
        ∧ (slotBad s q = true → ∃ t r, exec .mordantRound s = .next t ∧ logState t = 4 ∧ logCursor t = cursor
          ∧ t.faultQueue = s.faultQueue ++ [r] ∧ r.kind = 3 ∧ r.src = 4 ∧ r.cls = 0x17 ∧ r.cause = 3))
    ∧ (st = 1 → (∃ k < s.log.begun, slotBad s (cursor + k) = true) → ∃ t r, exec .mordantRound s = .next t ∧ logState t = 4
        ∧ t.faultQueue = s.faultQueue ++ [r] ∧ r.kind = 3 ∧ r.src = 4 ∧ r.cls = 0x17 ∧ r.cause = 3)
    ∧ (st = 1 → (∀ k < s.log.begun, slotBad s (cursor + k) = false) → (∀ x ∈ roundWork s, ∀ y ∈ x.2.2, ∀ c, y.2 ≠ .bad c) →
        (tilesOf (roundLines s)).all (tileReady s) = false ∨ ¬ s.scalesReady → ∃ t, exec .mordantRound s = .next t
          ∧ ((∀ d off, ScaleAt.peer d off ∉ roundScales (roundWork s)) → t = s)
          ∧ (∀ d off, roundScales (roundWork s) = [.peer d off] → t = askFetch s mordantOwner d off 1))
    ∧ (st = 0 ∨ st = 2 → logEn s = true → cursor + n ≤ logLimit s → (∀ q ∈ slots, slotReady s q = true ∧ slotBad s q = false) →
        let u := setLogState { s with log := { s.log with begun := n } } 1
        let targets := (roundWork u).flatMap fun x => x.2.2.map (·.2)
        (∀ c, targets.findSome? (fun t => match t with | .bad c => some c | _ => none) = some c → ∃ t r, exec .mordantRound s = .next t ∧ logState t = 4
          ∧ logCursor t = cursor ∧ t.faultQueue = s.faultQueue ++ [r] ∧ r.kind = 3 ∧ r.src = 4 ∧ r.cls = 0x17 ∧ r.cause = c)
        ∧ (roundWork u = [] → s.log.arrived = [] → ∃ t, exec .mordantRound s = .next t ∧ logState t = 0 ∧ logCursor t = (cursor + n) % 2 ^ 48 ∧ t.mem = s.mem)
        ∧ ∀ slot es c mk ok scale, roundWork u = [(slot, es, [(c, .at mk ok 0 scale)])] → (∀ k, scale = some (.mem k) → ¬ (mk ≤ k ∧ k < mk + 4)) →
          (∀ x, scale = some x → scaleReady u x = true) → s.log.arrived = [] → (∀ l ∈ linesOf ok 2, tileReady u (l / 32) = true) →
          isDram mk = true → isSp ok = true →
          let m := s.descriptor (bitsFrom slot 0 12)
          let o := s.descriptor (bitsFrom slot 12 12)
          let w := replayMaster ((s.mmioWord 0 0x500010).setWidth 32) es slot (linearIndex m c) (BitVec.ofNat 32 (memRead s.mem mk 4))
          let x := (fp32 w).unscaleE8 (dTscale o)
          let y := scale.elim x fun b => x.unscaleE8 (BitVec.ofNat 8 (scaleValue u b))
          elemBits (dFmt o) = 8 ∨ elemBits (dFmt o) = 16 →
          ∃ t, exec .mordantRound s = .next t ∧ memRead t.mem mk 4 = w.toNat ∧ memRead t.mem ok (elemBits (dFmt o) / 8) = (encodeElem (dFmt o) true y).code % 2 ^ elemBits (dFmt o)
            ∧ (∀ a, ¬ (mk ≤ a ∧ a < mk + 4) → ¬ (ok ≤ a ∧ a < ok + elemBits (dFmt o) / 8) → memGet t.mem a = memGet s.mem a)
            ∧ (∀ l ∈ linesOf ok (elemBits (dFmt o) / 8), l ∉ t.emptyLines) ∧ logState t = 0 ∧ logCursor t = (cursor + n) % 2 ^ 48)
    ∧ (st = 2 → bitsFrom (logCfg s) 0 16 ≤ s.log.gapTicks → slotReady s s.log.waitAt = false → s.log.waitAt < 2 ^ 48 →
        let key := bitsFrom (s.mmioWord 0 (0xC000 + 32 * bitsFrom (logCfg s) 44 6)) 3 45 * 8
        ∃ t, exec .logGap s = .next t ∧ logState t = 3 ∧ (populated key = true → memRead t.mem key 8 = 2 * 2 ^ 56 + s.log.waitAt)
          ∧ ∀ a, ¬ (key ≤ a ∧ a < key + 8) → memGet t.mem a = memGet s.mem a)
    ∧ (¬ (st = 2 ∧ bitsFrom (logCfg s) 0 16 ≤ s.log.gapTicks ∧ slotReady s s.log.waitAt = false) → exec .logGap s = .next s)

/-- R360, R364 to R367: the worklist between cores and devices. A shipped task enters the die-0 core that holds the fewest and is acknowledged, or waits where every unit is full; an
acknowledgement counts as a completion; a sample brings the last minimum into force and takes a new one, and a wave with equal sums twice marks the job done; the
tree sends minima and sums up, with whether every rank below has given a new sample, and the result down; only whole sums make a wave (log 98); balancing changes nothing but cache tags where no neighbour is due, and else ships at most 32 tasks, and as many acknowledgements are awaited. -/
def Sys2Proof.Claim.WorklistEventResults : Prop :=
  ∀ (s : State) (job : Nat),
    (∀ (bucket src b : Nat) (task : W64), b < 64 → (∀ n < 64, taskCount s b ≤ taskCount s n) → (∀ n < b, taskCount s b < taskCount s n) →
      (512 ≤ taskCount s b → exec (.wlShipmentArrive job bucket task src) s =
        .next (s.setWlJob job { s.wlJob job with shipments := (s.wlJob job).shipments ++ [(bucket, task, src)] }))
      ∧ (taskCount s b < 512 → spillBase s b = none → ∃ u, exec (.wlShipmentArrive job bucket task src) s = .next (sendMsg u src (.wlAck job))
        ∧ (u.core b).tasks = (s.core b).tasks ++ [⟨job, bucket, task⟩]
        ∧ (tget (u.core b).wlCounts job).getD (0, 0) = (((tget (s.core b).wlCounts job).getD (0, 0)).1 + 1, ((tget (s.core b).wlCounts job).getD (0, 0)).2)
        ∧ job ∉ (u.core b).wlDone ∧ (∀ n, n ≠ b → u.core n = s.core n) ∧ { u with cores := s.cores } = s))
    ∧ ((s.wlJob job).acks = 0 → exec (.wlShipmentAck job) s = .next s)
    ∧ (0 < (s.wlJob job).acks → ∃ t, exec (.wlShipmentAck job) s = .next t ∧ (t.wlJob job).acks + 1 = (s.wlJob job).acks
        ∧ (tget (t.core 0).wlCounts job).getD (0, 0) = (((tget (s.core 0).wlCounts job).getD (0, 0)).1, ((tget (s.core 0).wlCounts job).getD (0, 0)).2 + 1))
    ∧ (∃ t, exec .wlSample s = .next t ∧ { t with wlJobs := s.wlJobs, cores := s.cores } = s
        ∧ (job ∈ wlJobsOf s → (t.wlJob job).dv = (s.wlJob job).next ∧ (t.wlJob job).next ≤ 256
          ∧ (∀ n < 256, (t.wlJob job).next ≤ localValue s n job) ∧ ((t.wlJob job).next = 256 ∨ ∃ n < 256, (t.wlJob job).next = localValue s n job)
          ∧ (wlEn s job = false → (t.wlJob job).lastWave = some (jobCounts s job)
            ∧ (∀ p, 0 < p → jobCounts s job = (p, p) → (s.wlJob job).lastWave = some (p, p) → ∀ n < 256, job ∈ (t.core n).wlDone)
            ∧ (∀ p c, (s.wlJob job).lastWave = some (p, c) → p ≠ (jobCounts s job).1 → ∀ n < 256, job ∉ (t.core n).wlDone))))
    ∧ (wlEn s job = false → exec (.wlTreeTick job) s = .next s ∧ exec (.wlBalanceTick job) s = .next s)
    ∧ (wlEn s job = true →
      let g := bitsFrom (wlJobWord s job) 0 6
      let n := (groupRanks s g).1
      let rank := (groupRanks s g).2
      let w := s.wlJob job
      let low := w.children.foldl (fun a x => min a x.2.1) w.dv
      let pushes := w.children.foldl (fun a x => a + x.2.2.1) (jobCounts s job).1
      let compl := w.children.foldl (fun a x => a + x.2.2.2) (jobCounts s job).2
      let ib := inBound s job
      let whole := ([2 * rank + 1, 2 * rank + 2].filter (· < n)).all (w.fresh.contains ·)
      (rank = 0 → ∃ t, exec (.wlTreeTick job) s = .next t ∧ (t.wlJob job).xv = low ∧ t.mem = s.mem
        ∧ (whole = true → (t.wlJob job).lastWave = some (pushes, compl) ∧ (t.wlJob job).fresh = []
          ∧ (0 < pushes → pushes = compl → w.lastWave = some (pushes, compl) → ∀ m < 256, job ∈ (t.core m).wlDone))
        ∧ (whole = false → (t.wlJob job).lastWave = w.lastWave ∧ (t.wlJob job).fresh = w.fresh ∧ t.cores = s.cores))
      ∧ (rank ≠ 0 → w.down = none → (whole = true → w.fresh = []) →
        exec (.wlTreeTick job) s = .next (sendMsg s (rankDevice s g ((rank - 1) / 2)) (.wlUp rank job low pushes compl whole)))
      ∧ (rank ≠ 0 → ∃ t, exec (.wlTreeTick job) s = .next t ∧ (t.wlJob job).down = none ∧ t.mem = s.mem ∧ t.cores = s.cores
        ∧ (t.wlJob job).fresh = if whole then [] else w.fresh)
      ∧ ((∀ r x, tget w.ibs r = some x → r = rank + 1 ∨ r + 1 = rank → ib ≤ x + 64) →
        ∃ t, exec (.wlBalanceTick job) s = .next t ∧ tagsOnly { t with ports := s.ports, packets := s.packets, agenda := s.agenda, mmio := s.mmio } s
          ∧ ((∀ m < 256, spillBase s m = none) → { t with ports := s.ports, packets := s.packets, agenda := s.agenda, mmio := s.mmio } = s))
      ∧ (∀ x, rank + 1 < n → rank = 0 → tget w.ibs 1 = some x → x + 64 < ib → (∀ m < 256, spillBase s m = none) → ∃ t k, exec (.wlBalanceTick job) s = .next t
        ∧ k ≤ 32 ∧ k ≤ (ib - x) / 2 ∧ (t.wlJob job).acks = w.acks + k
        ∧ ((List.range 256).map fun m => (t.core m).tasks.length).sum + k = ((List.range 256).map fun m => (s.core m).tasks.length).sum))

/-- R352: a pipeline's stages share their cores anew once for each multiple of 1,024 clk (log 108), with at most one move. A free core goes to the stage that wants most and is not
blocked; where none is free, and none of the stages that wait can get one, no core moves. -/
def Sys2Proof.Claim.PipelinesRebalance : Prop :=
  ∀ (s : State) (l : Launch), s.launch? l.id = some l →
    let occupied (q : Nat) : Nat := ((l.slots.getD q []).filter fun x => match x with | .occupied _ => true | _ => false).length
    let want (n : Nat) : Nat := if n = 0 then l.units - l.started.getD 0 0 else occupied (l.inq n)
    let blocked (n : Nat) : Prop := n + 1 ≠ l.stages ∧ PipeSlot.free ∉ l.slots.getD (l.outq n) []
    let takes (n : Nat) : Prop := n < l.stages ∧ (l.cores.getD n []).length < l.maxc n ∧ ¬ blocked n ∧ 0 < want n
    let free (c : Nat) : Prop := l.die * 64 ≤ c ∧ c < l.die * 64 + 64 ∧ ∀ x ∈ s.launches, c ∉ x.cores.flatten
    let due := l.balanced < s.clk / 1024
    let m := { l with balanced := s.clk / 1024 }
    (l.done = true ∨ l.pipe = false ∨ l.cores = [] ∨ ¬ due → exec (.pipeRebalance l.id) s = .next s)
    ∧ (l.done = false → l.pipe = true → l.cores ≠ [] → due →
      ((∀ n, ¬ takes n) → exec (.pipeRebalance l.id) s = .next (s.putLaunch m))
      ∧ ∀ r, takes r → (∀ n, takes n → want n ≤ want r ∧ (want n = want r → r ≤ n)) →
        (∀ c, free c → (∀ d, free d → c ≤ d) →
          exec (.pipeRebalance l.id) s = .next (s.putLaunch { m with cores := l.cores.set r (l.cores.getD r [] ++ [c]) }))
        ∧ ((∀ c, ¬ free c) → (∀ n < l.stages, ¬ (l.minc n < (l.cores.getD n []).length ∧ want n + 2 ≤ want r)) →
          exec (.pipeRebalance l.id) s = .next (s.putLaunch m))
        ∧ ((∀ c, ¬ free c) → ∀ d < l.stages, l.minc d < (l.cores.getD d []).length → want d + 2 ≤ want r →
          (∀ n < l.stages, l.minc n < (l.cores.getD n []).length → want n + 2 ≤ want r → want d ≤ want n ∧ (want n = want d → n ≤ d)) →
          ∀ top ∈ l.cores.getD d [], (∀ c ∈ l.cores.getD d [], c ≤ top) → exec (.pipeRebalance l.id) s = .next (s.putLaunch { m with
            cores := (l.cores.set d ((l.cores.getD d []).filter (· != top))).set r ((l.cores.set d ((l.cores.getD d []).filter (· != top))).getD r [] ++ [top]) })))

namespace Sys2Proof.Machine

/-- A flit whose TAG is right under the key of a port (R408) and none of whose nine segments has a role above 5 (R406). -/
def flitGood (s : State) (p : Nat) (f : Flit) : Prop := f.tag = tagOf (s.port p).key f ∧ ∀ i < 9, f.map.toNat / 2 ^ (3 * i) % 8 < 6

end Sys2Proof.Machine

/-- R406 to R412: a port that is UP takes the flit that it expects, once, and delivers its messages; the first failure of a flit is counted and a replay of it is asked for, and everything but that replay is dropped; a second one
locks the port, which is then not UP (log 52). A replay request marks the kept flits from its FSEQ on, under a new TAG; the session ends with the last FSEQ (log 110); attestation sets UP, clears LOCK, gives a session key and a
report of the image, and starts FSEQ at 0, one signature of the identity key each, of 32,768 (log 55). -/
def Obligations.Ports : Prop :=
  ∀ (s : State) (p : Nat), s.canonical → p < 32 →
    let q := s.port p
    (s.portUp p = false → ∀ f n, exec (.flitReceive p f) s = .next s ∧ exec (.replayRequest p n) s = .next s)
    ∧ (s.portUp p = true → ∀ f : Flit,
      (f.fseq ≠ q.expect → exec (.flitReceive p f) s = .next s)
      ∧ (f.fseq = q.expect → flitGood s p f → q.failed = none ∨ f.replay = true →
        let u := s.setPort p { q with expect := f.fseq + 1, failed := none }
        (f.fseq + 1 < 2 ^ 64 → ∃ t, exec (.flitReceive p f) s = .next t
          ∧ (f.msgs = [] → t = u)
          ∧ (∀ r, f.msgs = [.peerReq r] → t = { u with agenda := s.agenda ++ [.event (.peerAccessArrive { r with die := p / 8 })] })
          ∧ (∀ src job ib, f.msgs = [.wlIb src job ib] → tget (t.wlJob job).ibs src = some ib))
        ∧ (f.fseq + 1 = 2 ^ 64 → f.msgs = [] → ∃ t, exec (.flitReceive p f) s = .next t ∧ t.portUp p = false ∧ { t with mmio := s.mmio } = u))
      ∧ (f.fseq = q.expect → ¬ flitGood s p f → q.failed = none → ∃ t, exec (.flitReceive p f) s = .next t
        ∧ t.port p = { q with failed := some f.fseq, asked := q.asked ++ [f.fseq] }
        ∧ bitsFrom (t.mmioWord 0 (0x1000 + 16 * p)) 16 16 = min 65535 (bitsFrom (s.mmioWord 0 (0x1000 + 16 * p)) 16 16 + 1)
        ∧ { t with mmio := s.mmio, ports := s.ports } = s)
      ∧ (∀ n, f.fseq = q.expect → q.failed = some n → f.replay = false → exec (.flitReceive p f) s = .next s)
      ∧ (∀ n, f.fseq = q.expect → q.failed = some n → f.replay = true → ¬ flitGood s p f → ∃ t, exec (.flitReceive p f) s = .next t
        ∧ t.portUp p = false ∧ (t.mmioWord 0 (0x1000 + 16 * p)).getLsbD 1 = true)
      ∧ ∀ n, ∃ t, exec (.replayRequest p n) s = .next t
        ∧ t.port p = { q with kept := q.kept.map fun f =>
            if n ≤ f.fseq then { f with replay := true, tag := tagOf q.key { f with replay := true } } else f }
        ∧ bitsFrom (t.mmioWord 0 (0x1000 + 16 * p)) 32 16 = min 65535 (bitsFrom (s.mmioWord 0 (0x1000 + 16 * p)) 32 16 + 1))
    ∧ (let locked := (s.mmioWord 0 (0x1000 + 16 * p)).getLsbD 1 = true
      let opens (i : Instr) : Prop := ∃ t r, exec i s = .next t ∧ t.portUp p = true ∧ (t.port p).expect = 0 ∧ (t.port p).failed = none
        ∧ (t.port p).key = Config.sharedSecret s.signatures ∧ (t.port p).report = some r ∧ r.image = s.firmware ∧ r.device = s.deviceId ∧ r.port = p
        ∧ (q.egress = [] → (t.port p).sent = 0)
        ∧ t.signatures = s.signatures + 1 ∧ (32768 ≤ s.signatures + 1 → (devStatus t).getLsbD 2 = false) ∧ t.mem = s.mem
      ({ q with sent := 0 }.fits → s.devReady = true → (devStatus s).getLsbD 2 = true → locked → opens (.portReattest p))
      ∧ ({ q with sent := 0 }.fits → s.devReady = true → (devStatus s).getLsbD 2 = true → s.portUp p = false → ¬ locked → opens (.portAttestation p))
      ∧ (s.devReady = false ∨ (devStatus s).getLsbD 2 = false → exec (.portReattest p) s = .next s ∧ exec (.portAttestation p) s = .next s))

namespace Sys2Proof.Machine

/-- What decoding a slot's own word gives: the instruction, but for the four rows of `sys.flush`, which have one word and share
the row of KIND 0 (R341: KIND stands in a register). -/
def sameWord (i : Instr) : Instr :=
  match i with
  | .sysFlushL2 o => .sysFlushSplit o
  | .sysFlushL2Clean o => .sysFlushSplit o
  | .sysFlushL1 o => .sysFlushSplit o
  | i => i

end Sys2Proof.Machine

/-- R186, R187, R194 to R196, R306, R307, R332: encodings and instructions are one to one, but for the four rows of sys.flush, which share one word: the slots of SYS_FLUSH_L2, SYS_FLUSH_L2_CLEAN
and SYS_FLUSH_L1 decode to that of SYS_FLUSH_SPLIT, since KIND stands in a register (log 82). Every other slot, every micro-word and every step word of an instruction decodes to it with every operand, and a
word that decodes is the word of what it decodes to, so that no bit of it is dropped, but for the reserved bits 23:11 of a step word, which are ignored (R4). -/
def Obligations.EncodingRoundTrip : Prop :=
  (∀ (i : Instr) (w : W32), encode i = some w → decodeSlot w = .ok (sameWord i))
  ∧ (∀ (i : Instr) (w : W32), decodeSlot w = .ok i → encode i = some w)
  ∧ (∀ (e : Nat) (m : Micro), ∀ r ∈ ([(0, false, false, false, false, false, 16, .muDecl e m), (1, false, false, false, false, false, 0, .muEnd e m),
      (2, true, true, false, false, true, 0, .muLdb e m), (3, true, false, false, true, true, 0, .muLda e m), (4, false, false, true, true, true, 0, .muMac e m),
      (5, false, false, true, false, false, 0, .muZacc e m), (6, true, false, true, false, false, 0, .muLdacc e m), (7, true, false, true, false, true, 0, .muStacc e m),
      (8, false, false, true, false, false, 3, .muAccadd e m), (9, true, false, false, false, false, 32, .muPadd e m), (10, false, true, false, false, false, 32, .muLbadd e m),
      (11, false, false, false, false, true, 32, .muCset e m), (12, false, false, false, false, true, 12, .muCloop e m), (13, false, false, false, false, false, 6, .muSig e m)]
        : List (BitVec 4 × Bool × Bool × Bool × Bool × Bool × Nat × Instr)),
      let (op, pa, pb, acc, la, x, n, i) := r
      (pa = false → m.pa = 0) → (pb = false → m.pb = 0) → (acc = false → m.acc = 0) → (la = false → m.la = 0) → (x = false → m.x = 0) → m.imm.toNat < 2 ^ n →
      encodeMicro i = some (m.toWord op) ∧ decodeMicro e (m.toWord op) = some i)
  ∧ (∀ (e : Nat) (w : W64) (i : Instr), decodeMicro e w = some i → encodeMicro i = some w)
  ∧ (∀ (r : Nat) (i : Instr) (w : W64), (∀ x, i = .collEnd x → x = r) → (∀ x st, i = .collSend x st ∨ i = .collRecv x st ∨ i = .collRrs x st
      ∨ i = .collCopy x st ∨ i = .collWait x st ∨ i = .collLoop x st → x = r ∧ st.csel ≠ 3) → encodeStep i = some w → decodeStep r w = some i)
  ∧ (∀ (r : Nat) (w : W64) (i : Instr), decodeStep r w = some i → i ≠ .collEnd r → w.extractLsb' 11 13 = 0 → encodeStep i = some w)
  ∧ ∀ (r : Nat) (w : W64), decodeStep r w = decodeStep r (w &&& ~~~(0x1FFF#64 <<< 11))

/-- R186, R194, R195, R306, R307, R332: words written out from the rows of the encoding tables, and the instructions that they stand for. -/
def Obligations.DecodedWords : Prop :=
  -- alu.add g5, g5, g7: maj 0x00, D g5 = 21, A g5 = 21, F 0, B g7 = 23, G 0, MIN 1
  decodeSlot 0b0000000_010101_010101_0_010111_0_00001 = .ok (.aluAdd ⟨0, 21, 21, 0, 23, 0⟩)
  -- cmp.eq g8, g5, g9: maj 0x03, MIN 0
  ∧ decodeSlot 0b0000011_011000_010101_0_011001_0_00000 = .ok (.cmpEq ⟨0, 24, 21, 0, 25, 0⟩)
  -- ctl.end with S = 1: maj 0x10, MIN 1
  ∧ decodeSlot 0b1010000_000000_000000_0_000000_0_00001 = .ok (.ctlEnd ⟨1⟩)
  -- ctl.loop lp0, g6, 4: maj 0x10, MIN 5
  ∧ decodeSlot 0b0010000_000000_010110_0_000010_0_00101 = .ok (.ctlLoop ⟨0, 0, 22, 0, 4⟩)
  -- ctl.loop lp0, g16, 8, as the program of R417 encodes it
  ∧ decodeSlot 0x20040105 = .ok (.ctlLoop ⟨0, 0, 32, 0, 8⟩)
  -- atom.add g6, g7 sz=w: maj 0x1C, Z 2 above bit 10, ORD 0, OP 0
  ∧ decodeSlot 0b0011100_010110_010111_0_100000_0_00000 = .ok (.atomAdd ⟨0, 22, 23, 2, 0⟩)
  -- view.open w3, g5 sc=die wr=1 aq=1: maj 0x17
  ∧ decodeSlot 0b0010111_000011_010101_0_001101_0_00000 = .ok (.viewOpen ⟨0, 3, 21, 0, 1, 1, 1⟩)
  -- sys.csrr g10, FPFLAGS: maj 0x3D
  ∧ decodeSlot 0b0111101_011010_000000_0_000000_0_00110 = .ok (.sysCsrr ⟨0, 26, 6⟩)
  -- mu.mac acc2, la1 z=1 at an interrupt point: OP 4
  ∧ (∀ e, decodeMicro e 0b1_000_0100_000_000_010_01_1_000000000000_00000000000000000000000000000000 = some (.muMac e ⟨1, 0, 0, 2, 1, 1, 0⟩))
  -- the step loop of counter 1 to step 3 with limit 8: OP 5
  ∧ (∀ r, decodeStep r 0b0101_0_0_00_00000000_00000000_0000000000001000_0000000000000_1_0000000011 = some (.collLoop r ⟨0, 0, 0, 0, 0, 8, 1, 3⟩))
  -- major 0x3F, an unassigned minor, and a reserved bit of ctl.end
  ∧ decodeSlot 0b0111111_000000_000000_0_000000_0_00000 = .error .major
  ∧ decodeSlot 0b0000000_000000_000000_0_000000_0_11111 = .error .minor
  ∧ decodeSlot 0b0010000_000001_000000_0_000000_0_00001 = .error .reserved

/-- R190, R193, R307, R332, R349: a step runs what stands at the place that is to go on. The bundle in progress issues the slot at its place, or traps where its word is no instruction; a core's turn checks the whole bundle at its pc and
then issues its first slot, unless a drain of the unit holds the bundle back (R252); an engine's turn runs its next micro-word; a run's turn its next step; and an event that is due takes place. The turn that comes next is the model's choice (log 1). -/
def Obligations.StepRunsWhatIsNext : Prop :=
  ∀ s : State, s.failed = false →
    (∀ p, s.bundle = some p →
      let at' := (s.ctx p.ctx).pc + BitVec.ofNat 64 (4 * p.slot)
      (∀ w i, codeWord s p.ctx at' = some w → decodeSlot w = .ok i → step s = exec i s)
      ∧ (∀ w x, codeWord s p.ctx at' = some w → decodeSlot w = .error x → step s = exec (.unassignedEncoding x w) s)
      ∧ (codeWord s p.ctx at' = none → step s = .next (takeTrap s p.ctx 0 ⟨0x01, 4, none⟩)))
    ∧ (s.bundle = none → ∀ rest core x, s.agenda = .issue core :: rest → heatStops s (core / 64) = false → (s.core core).cur = some x →
      let k := core * 4 + x
      let t := { s with agenda := rest, focus := core }
      ((s.ctx k).pc.toNat % 4 ≠ 0 → step s = .next (takeTrap t k 0 ⟨0x01, 5, none⟩))
      ∧ (∀ ws i is, (s.ctx k).pc.toNat % 4 = 0 → bundleWords t k (s.ctx k).pc 8 = .ok ws → 4 ≤ ws.length → checkSlots t k (s.ctx k).pc 0 [] ws = .ok (i :: is) →
          (classesOk ((i :: is).map classOf) = true → drainHolds (s.ctx k) (i :: is) = none → step s = exec i t)
          ∧ (∀ j, classesOk ((i :: is).map classOf) = true → drainHolds (s.ctx k) (i :: is) = some j → step s = .next (hold t k j (.block .drain)))
          ∧ (classesOk ((i :: is).map classOf) = false → step s = .next (takeTrap t k 0 ⟨0x01, 3, none⟩))))
    ∧ (s.bundle = none → ∀ rest, 
      (∀ e c w i, s.agenda = .micro e :: rest → s.running e = some c → routineWord s e c.routine c.word = some w → decodeMicro e w = some i →
        step s = exec i { s with agenda := rest })
      ∧ (∀ r run, s.agenda = .coll r :: rest → s.run? r = some run → run.status ≠ none → step s = exec (.collEnd r) { s with agenda := rest })
      ∧ (∀ r run v u i, s.agenda = .coll r :: rest → s.run? r = some run → run.status = none → run.step < cdf run.desc 4 16 16 → runHeld s run = false →
          collWord { s with agenda := rest } run run.step = (.val v, u) → decodeStep r (BitVec.ofNat 64 v) = some i → step s = exec i u)
      ∧ ∀ i, s.agenda = .event i :: rest → step s = exec i { s with agenda := rest })

/-- R189, R193, R196: a slot whose own operands or modifiers are not allowed, and a word that is no instruction, raise ILLEGAL with their subcause at their place, and nothing of the bundle commits. -/
def Obligations.IllegalSlotsTrap : Prop :=
  (∀ (s : State) (k n : Nat) (i : Instr), s.issues k n → (encode i).isSome = true →
    (formFault i = some .operand → exec i s = .next (takeTrap s k n ⟨0x02, 4, none⟩))
    ∧ (formFault i = some .modifier → exec i s = .next (takeTrap s k n ⟨0x02, 5, none⟩)))
  ∧ (∀ i : Instr, formFault i = none ∨ formFault i = some .operand ∨ formFault i = some .modifier)
  ∧ ∀ (s : State) (p : Progress) (w : W32), s.bundle = some p → (s.ctx p.ctx).status = .running →
      ∀ x ∈ [(Illegal.major, 1), (.minor, 2), (.reserved, 3)], ∃ t, exec (.unassignedEncoding x.1 w) s = .next t
        ∧ (t.ctx p.ctx).status = .handler ∧ (t.ctx p.ctx).faultInfo = BitVec.ofNat 64 (p.slot * 2 ^ 20 + 0x200 + x.2)
        ∧ (t.ctx p.ctx).trapPc = (s.ctx p.ctx).pc ∧ (t.ctx p.ctx).faultAddr = (s.ctx p.ctx).pc ∧ t.bundle = none ∧ t.mem = s.mem

/-- The invariant: every step keeps both memories, the register window and the SPLITs in their canonical form, and the slot in progress among the eight of a bundle (R190). The canonical form is the model's own; that an unlisted byte reads 0 rests on log 18. -/
def Obligations.CanonicalFormIsKept : Prop := ∀ s t : State, s.canonical → step s = .next t → t.canonical

/-- R14, R73, R77, R132, R166, R267, R294, R357, R362, R414 to R416: the state right after reset keeps the canonical form and has the values that the spec states: no unit, no tile on the engine side, no empty line, SPLIT 0, quiet phasers, tables and
registers at their reset values, bring-up still to come. -/
def Obligations.ResetValues : Prop :=
  let s := State.reset
  s.canonical ∧ s.devReady = false ∧ s.failed = false ∧ (∀ k, (s.ctx k).status = .free) ∧ s.engineTiles = [] ∧ s.emptyLines = []
  ∧ (∀ core, s.split core = 0 ∧ (∀ slot, s.phaser core slot = Phaser.reset) ∧ (s.core core).wlDelta = 255 ∧ (s.core core).wlCfg = 0x01C00100
      ∧ (s.core core).wlSpill = 0 ∧ (s.core core).ovlTag = 0 ∧ (s.core core).dir = [])
  ∧ (∀ e, (s.engine e).queue = [] ∧ (s.engine e).mfmt = 0 ∧ (s.engine e).pert = 0 ∧ (s.engine e).sigma = 0 ∧ (s.engine e).satcnt = 0)
  ∧ (∀ i < 1300, s.levelState i = 0) ∧ s.det = false ∧ s.tickLock = false ∧ s.faultSeq = 1
  ∧ bitsFrom (s.mmioWord 0 0x300) 0 8 = 50 ∧ bitsFrom (s.mmioWord 0 0x300) 16 3 = 6 ∧ bitsFrom (s.mmioWord 0 0x308) 32 4 = 15
  ∧ bitsFrom (s.mmioWord 0 0x310) 0 7 = 64 ∧ bitsFrom (s.mmioWord 0 0x320) 0 8 = 105 ∧ bitsFrom (s.mmioWord 0 0x320) 8 8 = 115
  ∧ (∀ p < 32, s.portUp p = false) ∧ s.launches = [] ∧ s.faultQueue = []

/-- Integer arithmetic, division and compares give their results and change nothing else. -/
def Obligations.IntegerInstructions : Prop :=
  Sys2Proof.Claim.IntegerArithmeticResults ∧ Sys2Proof.Claim.IntegerDivisionResults ∧ Sys2Proof.Claim.CompareResults

/-- Logic, shifts, counts and bit fields give their results and change nothing else. -/
def Obligations.LogicAndBitFields : Prop :=
  Sys2Proof.Claim.IntegerLogicResults ∧ Sys2Proof.Claim.BitFieldResults

/-- Immediates, pointers, select and predicates give their results and change nothing else. -/
def Obligations.ConstantsPointersPredicates : Prop :=
  Sys2Proof.Claim.ConstantAndPointerResults ∧ Sys2Proof.Claim.PredicateResults

/-- Reading a scalar operand and writing a result. -/
def Obligations.OperandsAndDestinations : Prop :=
  Sys2Proof.Claim.ResultDestinations ∧ Sys2Proof.Claim.ScalarOperandReads

/-- Scalar floating point gives its results and flags and changes nothing else. -/
def Obligations.ScalarFloat : Prop :=
  Sys2Proof.Claim.FpArithmeticResults ∧ Sys2Proof.Claim.FpMinMaxResults ∧ Sys2Proof.Claim.FpCompareResults

/-- Scalar conversions, rounding to nearest even, and FP32 words read back. -/
def Obligations.ScalarConversionsAndRounding : Prop :=
  Sys2Proof.Claim.ScalarConversionResults ∧ Sys2Proof.Claim.RoundingIsNearestEven ∧ Sys2Proof.Claim.Fp32RoundTrip

/-- Vector arithmetic and compares work lane by lane. -/
def Obligations.VectorArithmetic : Prop :=
  Sys2Proof.Claim.VectorFloatResults ∧ Sys2Proof.Claim.VectorIntegerResults ∧ Sys2Proof.Claim.VectorCompareResults

/-- Vector moves, lanes and the fixed reduction tree. -/
def Obligations.VectorMovesAndReductions : Prop :=
  Sys2Proof.Claim.VectorMoveResults ∧ Sys2Proof.Claim.VectorReductionResults

/-- Dot products, accumulator reads and vector conversions. -/
def Obligations.DotProductsAndVectorConversions : Prop :=
  Sys2Proof.Claim.DotProductAndAccumulatorReads ∧ Sys2Proof.Claim.VectorConversionResults

/-- Branches, jumps, calls, the nop and the end of a unit. -/
def Obligations.ControlTransfers : Prop :=
  Sys2Proof.Claim.ControlTransferResults ∧ Sys2Proof.Claim.UnitEndBeginsRetire

/-- Hardware loops start and close; the sparsity pointer and the counting semaphores. Where a level ends in the bundle that sets it, it closes first (log 34). -/
def Obligations.LoopsAndSemaphores : Prop :=
  Sys2Proof.Claim.LoopStart ∧ Sys2Proof.Claim.LoopClose ∧ Sys2Proof.Claim.SemaphoreResults

/-- Loads and stores are pending from commit on. -/
def Obligations.LoadsAndStoresArePending : Prop :=
  Sys2Proof.Claim.LoadsArePending ∧ Sys2Proof.Claim.StoresArePending

/-- Atomics and drains are pending from commit on; a prefetch changes no byte. -/
def Obligations.AtomicsDrainsPrefetches : Prop :=
  Sys2Proof.Claim.AtomicsArePending ∧ Sys2Proof.Claim.DrainAndPrefetch

/-- The issue checks of an access in their order, and the traps of a failing one. That an own-column SPD or PDV pointer needs no ASPERM bit, and the address of the owner fault, are readings of the model (logs 26 and 67). -/
def Obligations.AddressChecks : Prop :=
  Sys2Proof.Claim.AddressChecksInOrder ∧ Sys2Proof.Claim.AddressFaultsTrap

/-- Loads, stores and atomics perform on exactly their bytes. That each piece performs at one moment, but for a VA store, is the model's choice (log 23). -/
def Obligations.PerformedAccesses : Prop :=
  Sys2Proof.Claim.PerformedLoadsAndStores ∧ Sys2Proof.Claim.PerformedAtomics

/-- What a unit has committed before holds its accesses, releases and drains back. That pieces of one access follow each other in the order of its list is the model's choice (log 90). -/
def Obligations.AccessOrder : Prop :=
  Sys2Proof.Claim.EarlierAccessesHoldBack ∧ Sys2Proof.Claim.ReleasesAndDrainsWait ∧ Sys2Proof.Claim.OtherAccessesMayPass

/-- Results arrive, walks end and blocked contexts wake. The cache entry that an insertion gives up is free (log 6). -/
def Obligations.ResultsWalksWakes : Prop :=
  Sys2Proof.Claim.ResultsArrive ∧ Sys2Proof.Claim.WalksEnd ∧ Sys2Proof.Claim.BlockedContextsWake

/-- Views are opened, set and retired. -/
def Obligations.Views : Prop :=
  Sys2Proof.Claim.ViewOpenResults ∧ Sys2Proof.Claim.ViewRegisterResults

/-- Monitored waits and their wake causes. -/
def Obligations.Monitors : Prop :=
  Sys2Proof.Claim.MonitoredWaitResults ∧ Sys2Proof.Claim.MonitorsWake

/-- A phase completes once it has every signal, and expectations count. -/
def Obligations.PhaserPhases : Prop :=
  Sys2Proof.Claim.PhaserPhaseCompletes ∧ Sys2Proof.Claim.PhaserExpectations

/-- The phaser slots and the conditions on which they trap. -/
def Obligations.PhaserSlots : Prop :=
  Sys2Proof.Claim.PhaserSlotResults ∧ Sys2Proof.Claim.PhaserSignalResults ∧ Sys2Proof.Claim.PhaserConditionsTrap

/-- Tile ownership, and the copy commands that are accepted. -/
def Obligations.OwnershipAndCopyCommands : Prop :=
  Sys2Proof.Claim.TileOwnershipResults ∧ Sys2Proof.Claim.CopyCommandsAreAccepted

/-- Near-memory packets and the agent's queues. -/
def Obligations.NearMemory : Prop :=
  Sys2Proof.Claim.NearMemoryPacketsArePending ∧ Sys2Proof.Claim.AgentQueues

/-- The worklist slots, and the bucket that a pop takes from. -/
def Obligations.WorklistSlots : Prop :=
  Sys2Proof.Claim.WorklistSlotResults ∧ Sys2Proof.Claim.PopTakesTheLowestBucket

/-- Entering a trap, a trap in the handler, raising one and returning. -/
def Obligations.Traps : Prop :=
  Sys2Proof.Claim.TrapEntrySaves ∧ Sys2Proof.Claim.SecondTrapDiscards ∧ Sys2Proof.Claim.TrapRaiseAndReturn

/-- Privileged slots trap without privilege; maintenance slots have their effect. -/
def Obligations.PrivilegeAndMaintenance : Prop :=
  Sys2Proof.Claim.PrivilegedSlotsTrap ∧ Sys2Proof.Claim.MaintenanceResults

/-- sys.csrr and sys.csrw on every register. -/
def Obligations.ControlRegisters : Prop :=
  Sys2Proof.Claim.CsrReadResults ∧ Sys2Proof.Claim.CsrWriteResults

/-- Time, exchange ticks, the slew governor and heat. Time runs on with clk between sync messages (log 50), and an IEST sample beyond the slew limit does not occur (log 51). -/
def Obligations.TimePowerHeat : Prop :=
  Sys2Proof.Claim.TimeAndTicks ∧ Sys2Proof.Claim.PowerAndHeat

/-- Launch records are submitted, and entries are freed. -/
def Obligations.SubmissionAndFreeing : Prop :=
  Sys2Proof.Claim.SubmissionResults ∧ Sys2Proof.Claim.EntriesAreFreed

/-- Copy entries complete; batches and remote reads go on. -/
def Obligations.CopyCompletion : Prop :=
  Sys2Proof.Claim.CopyCompletion ∧ Sys2Proof.Claim.BatchAndRemoteReadProgress

/-- Accesses of the host and of other devices. The SRC of class TARGET is a reading of the model (log 29), and a host access performs as one (log 78). -/
def Obligations.HostAndPeers : Prop :=
  Sys2Proof.Claim.HostAccesses ∧ Sys2Proof.Claim.PeerAccesses

/-- Errors, fault records and the decisions on them. -/
def Obligations.FaultsAndDecisions : Prop :=
  Sys2Proof.Claim.ErrorsAndFaultRecords ∧ Sys2Proof.Claim.ResumeDecisions

/-- Contexts and calls are saved and restored. How a saved unit's memberships are kept is the model's (log 59). -/
def Obligations.SaveAndRestore : Prop :=
  Sys2Proof.Claim.ContextSaveAndRestore ∧ Sys2Proof.Claim.EngineSaveAndRestore

/-- Collective events, and the tree that carries the log. -/
def Obligations.CollectiveEventsAndLogTree : Prop :=
  Sys2Proof.Claim.CollectiveEventResults ∧ Sys2Proof.Claim.LogTreeResults

/-- The worklist goes on, and pipelines share their cores anew. Acknowledged shipments are counted at core 0 (log 41). -/
def Obligations.WorklistAndPipelines : Prop :=
  Sys2Proof.Claim.WorklistEventResults ∧ Sys2Proof.Claim.PipelinesRebalance
end

