-- ==== Sys2Proof/Laws/Table.lean ====
section
/-! SUPPORT. Tables, memory and register vectors: reading after a write, and the canonical form of memory. -/
namespace Sys2Proof.Machine

theorem tget_tset_self {α : Type} (t : Tbl α) (k : Nat) (v : α) : tget (tset t k v) k = some v := by
  induction t with
  | nil => simp [tset, tget]
  | cons x r ih =>
    obtain ⟨j, w⟩ := x
    unfold tset
    by_cases h1 : k < j
    · simp [h1, tget]
    · by_cases h2 : j = k
      · simp [h2, tget]
      · simp [h1, h2, tget, ih]

theorem tget_tset_ne {α : Type} (t : Tbl α) {k j : Nat} (v : α) (h : j ≠ k) : tget (tset t k v) j = tget t j := by
  induction t with
  | nil =>
    simp only [tset, tget, beq_iff_eq]
    rw [if_neg (Ne.symm h)]
    split <;> rfl
  | cons x r ih =>
    obtain ⟨i, w⟩ := x
    unfold tset
    by_cases h1 : k < i
    · by_cases h2 : j < k
      · have h3 : ¬ i = j := by omega
        have h4 : j < i := by omega
        simp [h1, tget, h2, h3, h4, Ne.symm h]
      · simp [h1, tget, h2, Ne.symm h]
    · by_cases h2 : i = k
      · subst h2
        simp [tget, Ne.symm h]
      · simp [h1, h2, tget, ih]

theorem tget_none_of_lt {α : Type} (t : Tbl α) (k : Nat) (h : ∀ x ∈ t, k < x.1) : tget t k = none := by
  cases t with
  | nil => rfl
  | cons x r =>
    obtain ⟨j, w⟩ := x
    have := h (j, w) (by simp)
    have h2 : ¬ j = k := by simp at this; omega
    simp at this
    simp [tget, h2, this]

theorem tget_terase_self {α : Type} (t : Tbl α) (k : Nat) (h : t.rising) : tget (terase t k) k = none := by
  induction t with
  | nil => rfl
  | cons x r ih =>
    obtain ⟨j, w⟩ := x
    have hr : Tbl.rising r := (List.pairwise_cons.mp h).2
    have hj := (List.pairwise_cons.mp h).1
    unfold terase
    by_cases h1 : j = k
    · subst h1
      simp only [beq_self_eq_true, if_true]
      exact tget_none_of_lt r j hj
    · by_cases h2 : k < j
      · simp [h1, h2, tget]
      · simp [h1, h2, tget, ih hr]

theorem tget_terase_ne {α : Type} (t : Tbl α) {k j : Nat} (h : t.rising) (hj : j ≠ k) : tget (terase t k) j = tget t j := by
  induction t with
  | nil => rfl
  | cons x r ih =>
    obtain ⟨i, w⟩ := x
    have hr : Tbl.rising r := (List.pairwise_cons.mp h).2
    have hi := (List.pairwise_cons.mp h).1
    unfold terase
    by_cases h1 : i = k
    · subst h1
      simp only [beq_self_eq_true, if_true, tget, beq_iff_eq, Ne.symm hj, if_false]
      by_cases h3 : j < i
      · simp only [h3, if_true]
        exact tget_none_of_lt r j fun x hx => by have := hi x hx; simp at this; omega
      · simp [h3]
    · by_cases h2 : k < i
      · simp [h1, h2]
      · simp [h1, h2, tget, ih hr]

theorem wf_cons (a : Nat) (b : Byte) (r : List Host.Cell) :
    Memory.wf ((a, b) :: r) = true ↔ b ≠ 0 ∧ (∀ c ∈ r, a < c.1) ∧ Memory.wf r = true := by
  simp [Memory.wf, and_assoc]

theorem wf_rising (m : List Host.Cell) (h : Memory.wf m = true) : Tbl.rising m := by
  induction m with
  | nil => exact List.Pairwise.nil
  | cons x r ih =>
    obtain ⟨a, b⟩ := x
    rw [wf_cons] at h
    exact List.pairwise_cons.mpr ⟨h.2.1, ih h.2.2⟩

theorem mem_tset {α : Type} (t : Tbl α) (k : Nat) (v : α) (x : Nat × α) (h : x ∈ tset t k v) : x = (k, v) ∨ x ∈ t := by
  induction t with
  | nil => simpa [tset] using h
  | cons y r ih =>
    obtain ⟨j, w⟩ := y
    unfold tset at h
    split at h
    · simpa using h
    · split at h
      · rcases List.mem_cons.mp h with h | h
        · exact .inl h
        · exact .inr (List.mem_cons_of_mem _ h)
      · rcases List.mem_cons.mp h with h | h
        · exact .inr (by simp [h])
        · rcases ih h with h | h
          · exact .inl h
          · exact .inr (List.mem_cons_of_mem _ h)

theorem mem_terase {α : Type} (t : Tbl α) (k : Nat) (x : Nat × α) (h : x ∈ terase t k) : x ∈ t := by
  induction t with
  | nil => exact h
  | cons y r ih =>
    obtain ⟨j, w⟩ := y
    unfold terase at h
    split at h
    · exact List.mem_cons_of_mem _ h
    · split at h
      · exact h
      · rcases List.mem_cons.mp h with h | h
        · simp [h]
        · exact List.mem_cons_of_mem _ (ih h)

theorem wf_tset (m : List Host.Cell) (k : Nat) (v : Byte) (hv : v ≠ 0) (h : Memory.wf m = true) : Memory.wf (tset m k v) = true := by
  induction m with
  | nil => simpa [tset, Memory.wf] using hv
  | cons x r ih =>
    obtain ⟨a, b⟩ := x
    rw [wf_cons] at h
    obtain ⟨hb, hlt, hr⟩ := h
    unfold tset
    by_cases h1 : k < a
    · simp only [h1, if_true]
      rw [wf_cons]
      refine ⟨hv, ?_, (wf_cons a b r).mpr ⟨hb, hlt, hr⟩⟩
      intro c hc
      rcases List.mem_cons.mp hc with hc | hc
      · simpa [hc] using h1
      · have := hlt c hc; omega
    · by_cases h2 : a = k
      · subst h2
        simp only [Nat.lt_irrefl, if_false, beq_self_eq_true, if_true]
        exact (wf_cons _ _ _).mpr ⟨hv, hlt, hr⟩
      · have h2' : (a == k) = false := by simpa using h2
        simp only [h1, if_false, h2', Bool.false_eq_true]
        refine (wf_cons _ _ _).mpr ⟨hb, ?_, ih hr⟩
        intro c hc
        rcases mem_tset r k v c hc with hc | hc
        · simp only [hc]; omega
        · exact hlt c hc

theorem wf_terase (m : List Host.Cell) (k : Nat) (h : Memory.wf m = true) : Memory.wf (terase m k) = true := by
  induction m with
  | nil => rfl
  | cons x r ih =>
    obtain ⟨a, b⟩ := x
    have hc := (wf_cons a b r).mp h
    unfold terase
    split
    · exact hc.2.2
    · split
      · exact h
      · exact (wf_cons _ _ _).mpr ⟨hc.1, fun c hx => hc.2.1 c (mem_terase r k c hx), ih hc.2.2⟩

/-- Writing a byte keeps the canonical form. -/
theorem wf_memSet (m : List Host.Cell) (a : Nat) (b : Byte) (h : Memory.wf m = true) : Memory.wf (memSet m a b) = true := by
  unfold memSet
  by_cases hb : b = 0
  · simp only [hb, beq_self_eq_true, if_true]
    exact wf_terase m a h
  · rw [if_neg (by simpa using hb)]
    exact wf_tset m a b hb h

/-- Writing bytes keeps the canonical form. -/
theorem wf_memWrite (n : Nat) : ∀ (m : List Host.Cell) (a v : Nat), Memory.wf m = true → Memory.wf (memWrite m a v n) = true := by
  induction n with
  | zero => intro m a v h; exact h
  | succ n ih => intro m a v h; exact ih _ _ _ (wf_memSet m a _ h)

theorem wf_filter (m : List Host.Cell) (p : Host.Cell → Bool) (h : Memory.wf m = true) : Memory.wf (m.filter p) = true := by
  induction m with
  | nil => rfl
  | cons x r ih =>
    obtain ⟨a, b⟩ := x
    have hc := (wf_cons a b r).mp h
    simp only [List.filter_cons]
    split
    · exact (wf_cons _ _ _).mpr ⟨hc.1, fun c hx => hc.2.1 c (List.mem_filter.mp hx).1, ih hc.2.2⟩
    · exact ih hc.2.2

/-- A byte reads as it was written. -/
theorem memGet_memSet_self (m : List Host.Cell) (a : Nat) (b : Byte) (h : Memory.wf m = true) : memGet (memSet m a b) a = b := by
  unfold memGet memSet
  split
  · rw [tget_terase_self m a (wf_rising m h)]
    exact (by simpa using ‹(b == 0) = true› : b = 0).symm
  · rw [tget_tset_self]; rfl

/-- Writing a byte leaves every other byte alone. -/
theorem memGet_memSet_ne (m : List Host.Cell) {a c : Nat} (b : Byte) (h : Memory.wf m = true) (hc : c ≠ a) :
    memGet (memSet m a b) c = memGet m c := by
  unfold memGet memSet
  split
  · rw [tget_terase_ne m (wf_rising m h) hc]
  · rw [tget_tset_ne m b hc]

/-- Writing bytes leaves every byte outside them alone. -/
theorem memGet_memWrite_out (n : Nat) : ∀ (m : List Host.Cell) (a v c : Nat), Memory.wf m = true → (c < a ∨ a + n ≤ c) →
    memGet (memWrite m a v n) c = memGet m c := by
  induction n with
  | zero => intro m a v c _ _; rfl
  | succ n ih =>
    intro m a v c h hc
    unfold memWrite
    rw [ih _ _ _ _ (wf_memSet m a _ h) (by omega), memGet_memSet_ne m _ h (by omega)]

/-- Bytes read back as the number that was written. -/
theorem memRead_memWrite (n : Nat) : ∀ (m : List Host.Cell) (a v : Nat), Memory.wf m = true →
    memRead (memWrite m a v n) a n = v % 256 ^ n := by
  induction n with
  | zero => intro m a v _; simp [memRead, Nat.mod_one]
  | succ n ih =>
    intro m a v h
    have hw := wf_memSet m a (BitVec.ofNat 8 v) h
    unfold memRead memWrite
    rw [ih _ _ _ hw, memGet_memWrite_out _ _ _ _ _ hw (.inl (by omega)), memGet_memSet_self m a _ h]
    simp only [BitVec.toNat_ofNat, Nat.reducePow]
    rw [Nat.pow_succ', Nat.mod_mul]

theorem vget_vset_self {α : Type} {n : Nat} (v : Vector α n) (i : Nat) (x d : α) (h : i < n) : vget (vset v i x) i d = x := by
  simp [vget, vset, h]

theorem vget_vset_ne {α : Type} {n : Nat} (v : Vector α n) {i j : Nat} (x d : α) (h : i ≠ j) :
    vget (vset v i x) j d = vget v j d := by
  simp [vget, vset, h]

end Sys2Proof.Machine
end

