-- ==== Sys2Proof/Laws/State.lean ====
section
/-! SUPPORT. What an update of the state leaves alone, field by field, and what it leaves in the part it replaces. -/
namespace Sys2Proof.Machine

variable (s : State)

@[simp] theorem setCtx_deviceId (k : Nat) (c : Ctx) : (s.setCtx k c).deviceId = s.deviceId := rfl
@[simp] theorem setCtx_clk (k : Nat) (c : Ctx) : (s.setCtx k c).clk = s.clk := rfl
@[simp] theorem setCtx_sampled (k : Nat) (c : Ctx) : (s.setCtx k c).sampled = s.sampled := rfl
@[simp] theorem setCtx_timeClk (k : Nat) (c : Ctx) : (s.setCtx k c).timeClk = s.timeClk := rfl
@[simp] theorem setCtx_timeNs (k : Nat) (c : Ctx) : (s.setCtx k c).timeNs = s.timeNs := rfl
@[simp] theorem setCtx_ticked (k : Nat) (c : Ctx) : (s.setCtx k c).ticked = s.ticked := rfl
@[simp] theorem setCtx_agenda (k : Nat) (c : Ctx) : (s.setCtx k c).agenda = s.agenda := rfl
@[simp] theorem setCtx_focus (k : Nat) (c : Ctx) : (s.setCtx k c).focus = s.focus := rfl
@[simp] theorem setCtx_bundle (k : Nat) (c : Ctx) : (s.setCtx k c).bundle = s.bundle := rfl
@[simp] theorem setCtx_cores (k : Nat) (c : Ctx) : (s.setCtx k c).cores = s.cores := rfl
@[simp] theorem setCtx_engines (k : Nat) (c : Ctx) : (s.setCtx k c).engines = s.engines := rfl
@[simp] theorem setCtx_splits (k : Nat) (c : Ctx) : (s.setCtx k c).splits = s.splits := rfl
@[simp] theorem setCtx_mem (k : Nat) (c : Ctx) : (s.setCtx k c).mem = s.mem := rfl
@[simp] theorem setCtx_hostMem (k : Nat) (c : Ctx) : (s.setCtx k c).hostMem = s.hostMem := rfl
@[simp] theorem setCtx_engineTiles (k : Nat) (c : Ctx) : (s.setCtx k c).engineTiles = s.engineTiles := rfl
@[simp] theorem setCtx_emptyLines (k : Nat) (c : Ctx) : (s.setCtx k c).emptyLines = s.emptyLines := rfl
@[simp] theorem setCtx_mmio (k : Nat) (c : Ctx) : (s.setCtx k c).mmio = s.mmio := rfl
@[simp] theorem setCtx_tlb (k : Nat) (c : Ctx) : (s.setCtx k c).tlb = s.tlb := rfl
@[simp] theorem setCtx_walks (k : Nat) (c : Ctx) : (s.setCtx k c).walks = s.walks := rfl
@[simp] theorem setCtx_l2 (k : Nat) (c : Ctx) : (s.setCtx k c).l2 = s.l2 := rfl
@[simp] theorem setCtx_llc (k : Nat) (c : Ctx) : (s.setCtx k c).llc = s.llc := rfl
@[simp] theorem setCtx_badLines (k : Nat) (c : Ctx) : (s.setCtx k c).badLines = s.badLines := rfl
@[simp] theorem setCtx_hostBad (k : Nat) (c : Ctx) : (s.setCtx k c).hostBad = s.hostBad := rfl
@[simp] theorem setCtx_copies (k : Nat) (c : Ctx) : (s.setCtx k c).copies = s.copies := rfl
@[simp] theorem setCtx_batches (k : Nat) (c : Ctx) : (s.setCtx k c).batches = s.batches := rfl
@[simp] theorem setCtx_rreads (k : Nat) (c : Ctx) : (s.setCtx k c).rreads = s.rreads := rfl
@[simp] theorem setCtx_fetches (k : Nat) (c : Ctx) : (s.setCtx k c).fetches = s.fetches := rfl
@[simp] theorem setCtx_runs (k : Nat) (c : Ctx) : (s.setCtx k c).runs = s.runs := rfl
@[simp] theorem setCtx_packets (k : Nat) (c : Ctx) : (s.setCtx k c).packets = s.packets := rfl
@[simp] theorem setCtx_staggers (k : Nat) (c : Ctx) : (s.setCtx k c).staggers = s.staggers := rfl
@[simp] theorem setCtx_launches (k : Nat) (c : Ctx) : (s.setCtx k c).launches = s.launches := rfl
@[simp] theorem setCtx_validating (k : Nat) (c : Ctx) : (s.setCtx k c).validating = s.validating := rfl
@[simp] theorem setCtx_stageZero (k : Nat) (c : Ctx) : (s.setCtx k c).stageZero = s.stageZero := rfl
@[simp] theorem setCtx_cancelled (k : Nat) (c : Ctx) : (s.setCtx k c).cancelled = s.cancelled := rfl
@[simp] theorem setCtx_levelJobs (k : Nat) (c : Ctx) : (s.setCtx k c).levelJobs = s.levelJobs := rfl
@[simp] theorem setCtx_mailboxes (k : Nat) (c : Ctx) : (s.setCtx k c).mailboxes = s.mailboxes := rfl
@[simp] theorem setCtx_faultSeq (k : Nat) (c : Ctx) : (s.setCtx k c).faultSeq = s.faultSeq := rfl
@[simp] theorem setCtx_faultQueue (k : Nat) (c : Ctx) : (s.setCtx k c).faultQueue = s.faultQueue := rfl
@[simp] theorem setCtx_decisions (k : Nat) (c : Ctx) : (s.setCtx k c).decisions = s.decisions := rfl
@[simp] theorem setCtx_savedCtxs (k : Nat) (c : Ctx) : (s.setCtx k c).savedCtxs = s.savedCtxs := rfl
@[simp] theorem setCtx_savedCalls (k : Nat) (c : Ctx) : (s.setCtx k c).savedCalls = s.savedCalls := rfl
@[simp] theorem setCtx_ports (k : Nat) (c : Ctx) : (s.setCtx k c).ports = s.ports := rfl
@[simp] theorem setCtx_syncs (k : Nat) (c : Ctx) : (s.setCtx k c).syncs = s.syncs := rfl
@[simp] theorem setCtx_signatures (k : Nat) (c : Ctx) : (s.setCtx k c).signatures = s.signatures := rfl
@[simp] theorem setCtx_firmware (k : Nat) (c : Ctx) : (s.setCtx k c).firmware = s.firmware := rfl
@[simp] theorem setCtx_rollback (k : Nat) (c : Ctx) : (s.setCtx k c).rollback = s.rollback := rfl
@[simp] theorem setCtx_tripped (k : Nat) (c : Ctx) : (s.setCtx k c).tripped = s.tripped := rfl
@[simp] theorem setCtx_tableWrites (k : Nat) (c : Ctx) : (s.setCtx k c).tableWrites = s.tableWrites := rfl
@[simp] theorem setCtx_wlJobs (k : Nat) (c : Ctx) : (s.setCtx k c).wlJobs = s.wlJobs := rfl
@[simp] theorem setCtx_log (k : Nat) (c : Ctx) : (s.setCtx k c).log = s.log := rfl
@[simp] theorem setCtx_hostOut (k : Nat) (c : Ctx) : (s.setCtx k c).hostOut = s.hostOut := rfl
@[simp] theorem setCtx_nextId (k : Nat) (c : Ctx) : (s.setCtx k c).nextId = s.nextId := rfl
@[simp] theorem setCtx_free (k : Nat) (c : Ctx) : (s.setCtx k c).free = s.free := rfl

@[simp] theorem setCore_deviceId (n : Nat) (c : Core) : (s.setCore n c).deviceId = s.deviceId := rfl
@[simp] theorem setCore_clk (n : Nat) (c : Core) : (s.setCore n c).clk = s.clk := rfl
@[simp] theorem setCore_sampled (n : Nat) (c : Core) : (s.setCore n c).sampled = s.sampled := rfl
@[simp] theorem setCore_timeClk (n : Nat) (c : Core) : (s.setCore n c).timeClk = s.timeClk := rfl
@[simp] theorem setCore_timeNs (n : Nat) (c : Core) : (s.setCore n c).timeNs = s.timeNs := rfl
@[simp] theorem setCore_ticked (n : Nat) (c : Core) : (s.setCore n c).ticked = s.ticked := rfl
@[simp] theorem setCore_agenda (n : Nat) (c : Core) : (s.setCore n c).agenda = s.agenda := rfl
@[simp] theorem setCore_focus (n : Nat) (c : Core) : (s.setCore n c).focus = s.focus := rfl
@[simp] theorem setCore_bundle (n : Nat) (c : Core) : (s.setCore n c).bundle = s.bundle := rfl
@[simp] theorem setCore_ctxs (n : Nat) (c : Core) : (s.setCore n c).ctxs = s.ctxs := rfl
@[simp] theorem setCore_engines (n : Nat) (c : Core) : (s.setCore n c).engines = s.engines := rfl
@[simp] theorem setCore_splits (n : Nat) (c : Core) : (s.setCore n c).splits = s.splits := rfl
@[simp] theorem setCore_mem (n : Nat) (c : Core) : (s.setCore n c).mem = s.mem := rfl
@[simp] theorem setCore_hostMem (n : Nat) (c : Core) : (s.setCore n c).hostMem = s.hostMem := rfl
@[simp] theorem setCore_engineTiles (n : Nat) (c : Core) : (s.setCore n c).engineTiles = s.engineTiles := rfl
@[simp] theorem setCore_emptyLines (n : Nat) (c : Core) : (s.setCore n c).emptyLines = s.emptyLines := rfl
@[simp] theorem setCore_mmio (n : Nat) (c : Core) : (s.setCore n c).mmio = s.mmio := rfl
@[simp] theorem setCore_tlb (n : Nat) (c : Core) : (s.setCore n c).tlb = s.tlb := rfl
@[simp] theorem setCore_walks (n : Nat) (c : Core) : (s.setCore n c).walks = s.walks := rfl
@[simp] theorem setCore_l2 (n : Nat) (c : Core) : (s.setCore n c).l2 = s.l2 := rfl
@[simp] theorem setCore_llc (n : Nat) (c : Core) : (s.setCore n c).llc = s.llc := rfl
@[simp] theorem setCore_badLines (n : Nat) (c : Core) : (s.setCore n c).badLines = s.badLines := rfl
@[simp] theorem setCore_hostBad (n : Nat) (c : Core) : (s.setCore n c).hostBad = s.hostBad := rfl
@[simp] theorem setCore_copies (n : Nat) (c : Core) : (s.setCore n c).copies = s.copies := rfl
@[simp] theorem setCore_batches (n : Nat) (c : Core) : (s.setCore n c).batches = s.batches := rfl
@[simp] theorem setCore_rreads (n : Nat) (c : Core) : (s.setCore n c).rreads = s.rreads := rfl
@[simp] theorem setCore_fetches (n : Nat) (c : Core) : (s.setCore n c).fetches = s.fetches := rfl
@[simp] theorem setCore_runs (n : Nat) (c : Core) : (s.setCore n c).runs = s.runs := rfl
@[simp] theorem setCore_packets (n : Nat) (c : Core) : (s.setCore n c).packets = s.packets := rfl
@[simp] theorem setCore_staggers (n : Nat) (c : Core) : (s.setCore n c).staggers = s.staggers := rfl
@[simp] theorem setCore_launches (n : Nat) (c : Core) : (s.setCore n c).launches = s.launches := rfl
@[simp] theorem setCore_validating (n : Nat) (c : Core) : (s.setCore n c).validating = s.validating := rfl
@[simp] theorem setCore_stageZero (n : Nat) (c : Core) : (s.setCore n c).stageZero = s.stageZero := rfl
@[simp] theorem setCore_cancelled (n : Nat) (c : Core) : (s.setCore n c).cancelled = s.cancelled := rfl
@[simp] theorem setCore_levelJobs (n : Nat) (c : Core) : (s.setCore n c).levelJobs = s.levelJobs := rfl
@[simp] theorem setCore_mailboxes (n : Nat) (c : Core) : (s.setCore n c).mailboxes = s.mailboxes := rfl
@[simp] theorem setCore_faultSeq (n : Nat) (c : Core) : (s.setCore n c).faultSeq = s.faultSeq := rfl
@[simp] theorem setCore_faultQueue (n : Nat) (c : Core) : (s.setCore n c).faultQueue = s.faultQueue := rfl
@[simp] theorem setCore_decisions (n : Nat) (c : Core) : (s.setCore n c).decisions = s.decisions := rfl
@[simp] theorem setCore_savedCtxs (n : Nat) (c : Core) : (s.setCore n c).savedCtxs = s.savedCtxs := rfl
@[simp] theorem setCore_savedCalls (n : Nat) (c : Core) : (s.setCore n c).savedCalls = s.savedCalls := rfl
@[simp] theorem setCore_ports (n : Nat) (c : Core) : (s.setCore n c).ports = s.ports := rfl
@[simp] theorem setCore_syncs (n : Nat) (c : Core) : (s.setCore n c).syncs = s.syncs := rfl
@[simp] theorem setCore_signatures (n : Nat) (c : Core) : (s.setCore n c).signatures = s.signatures := rfl
@[simp] theorem setCore_firmware (n : Nat) (c : Core) : (s.setCore n c).firmware = s.firmware := rfl
@[simp] theorem setCore_rollback (n : Nat) (c : Core) : (s.setCore n c).rollback = s.rollback := rfl
@[simp] theorem setCore_tripped (n : Nat) (c : Core) : (s.setCore n c).tripped = s.tripped := rfl
@[simp] theorem setCore_tableWrites (n : Nat) (c : Core) : (s.setCore n c).tableWrites = s.tableWrites := rfl
@[simp] theorem setCore_wlJobs (n : Nat) (c : Core) : (s.setCore n c).wlJobs = s.wlJobs := rfl
@[simp] theorem setCore_log (n : Nat) (c : Core) : (s.setCore n c).log = s.log := rfl
@[simp] theorem setCore_hostOut (n : Nat) (c : Core) : (s.setCore n c).hostOut = s.hostOut := rfl
@[simp] theorem setCore_nextId (n : Nat) (c : Core) : (s.setCore n c).nextId = s.nextId := rfl
@[simp] theorem setCore_free (n : Nat) (c : Core) : (s.setCore n c).free = s.free := rfl

@[simp] theorem setEngine_deviceId (e : Nat) (x : Engine) : (s.setEngine e x).deviceId = s.deviceId := rfl
@[simp] theorem setEngine_clk (e : Nat) (x : Engine) : (s.setEngine e x).clk = s.clk := rfl
@[simp] theorem setEngine_sampled (e : Nat) (x : Engine) : (s.setEngine e x).sampled = s.sampled := rfl
@[simp] theorem setEngine_timeClk (e : Nat) (x : Engine) : (s.setEngine e x).timeClk = s.timeClk := rfl
@[simp] theorem setEngine_timeNs (e : Nat) (x : Engine) : (s.setEngine e x).timeNs = s.timeNs := rfl
@[simp] theorem setEngine_ticked (e : Nat) (x : Engine) : (s.setEngine e x).ticked = s.ticked := rfl
@[simp] theorem setEngine_agenda (e : Nat) (x : Engine) : (s.setEngine e x).agenda = s.agenda := rfl
@[simp] theorem setEngine_focus (e : Nat) (x : Engine) : (s.setEngine e x).focus = s.focus := rfl
@[simp] theorem setEngine_bundle (e : Nat) (x : Engine) : (s.setEngine e x).bundle = s.bundle := rfl
@[simp] theorem setEngine_ctxs (e : Nat) (x : Engine) : (s.setEngine e x).ctxs = s.ctxs := rfl
@[simp] theorem setEngine_cores (e : Nat) (x : Engine) : (s.setEngine e x).cores = s.cores := rfl
@[simp] theorem setEngine_splits (e : Nat) (x : Engine) : (s.setEngine e x).splits = s.splits := rfl
@[simp] theorem setEngine_mem (e : Nat) (x : Engine) : (s.setEngine e x).mem = s.mem := rfl
@[simp] theorem setEngine_hostMem (e : Nat) (x : Engine) : (s.setEngine e x).hostMem = s.hostMem := rfl
@[simp] theorem setEngine_engineTiles (e : Nat) (x : Engine) : (s.setEngine e x).engineTiles = s.engineTiles := rfl
@[simp] theorem setEngine_emptyLines (e : Nat) (x : Engine) : (s.setEngine e x).emptyLines = s.emptyLines := rfl
@[simp] theorem setEngine_mmio (e : Nat) (x : Engine) : (s.setEngine e x).mmio = s.mmio := rfl
@[simp] theorem setEngine_tlb (e : Nat) (x : Engine) : (s.setEngine e x).tlb = s.tlb := rfl
@[simp] theorem setEngine_walks (e : Nat) (x : Engine) : (s.setEngine e x).walks = s.walks := rfl
@[simp] theorem setEngine_l2 (e : Nat) (x : Engine) : (s.setEngine e x).l2 = s.l2 := rfl
@[simp] theorem setEngine_llc (e : Nat) (x : Engine) : (s.setEngine e x).llc = s.llc := rfl
@[simp] theorem setEngine_badLines (e : Nat) (x : Engine) : (s.setEngine e x).badLines = s.badLines := rfl
@[simp] theorem setEngine_hostBad (e : Nat) (x : Engine) : (s.setEngine e x).hostBad = s.hostBad := rfl
@[simp] theorem setEngine_copies (e : Nat) (x : Engine) : (s.setEngine e x).copies = s.copies := rfl
@[simp] theorem setEngine_batches (e : Nat) (x : Engine) : (s.setEngine e x).batches = s.batches := rfl
@[simp] theorem setEngine_rreads (e : Nat) (x : Engine) : (s.setEngine e x).rreads = s.rreads := rfl
@[simp] theorem setEngine_fetches (e : Nat) (x : Engine) : (s.setEngine e x).fetches = s.fetches := rfl
@[simp] theorem setEngine_runs (e : Nat) (x : Engine) : (s.setEngine e x).runs = s.runs := rfl
@[simp] theorem setEngine_packets (e : Nat) (x : Engine) : (s.setEngine e x).packets = s.packets := rfl
@[simp] theorem setEngine_staggers (e : Nat) (x : Engine) : (s.setEngine e x).staggers = s.staggers := rfl
@[simp] theorem setEngine_launches (e : Nat) (x : Engine) : (s.setEngine e x).launches = s.launches := rfl
@[simp] theorem setEngine_validating (e : Nat) (x : Engine) : (s.setEngine e x).validating = s.validating := rfl
@[simp] theorem setEngine_stageZero (e : Nat) (x : Engine) : (s.setEngine e x).stageZero = s.stageZero := rfl
@[simp] theorem setEngine_cancelled (e : Nat) (x : Engine) : (s.setEngine e x).cancelled = s.cancelled := rfl
@[simp] theorem setEngine_levelJobs (e : Nat) (x : Engine) : (s.setEngine e x).levelJobs = s.levelJobs := rfl
@[simp] theorem setEngine_mailboxes (e : Nat) (x : Engine) : (s.setEngine e x).mailboxes = s.mailboxes := rfl
@[simp] theorem setEngine_faultSeq (e : Nat) (x : Engine) : (s.setEngine e x).faultSeq = s.faultSeq := rfl
@[simp] theorem setEngine_faultQueue (e : Nat) (x : Engine) : (s.setEngine e x).faultQueue = s.faultQueue := rfl
@[simp] theorem setEngine_decisions (e : Nat) (x : Engine) : (s.setEngine e x).decisions = s.decisions := rfl
@[simp] theorem setEngine_savedCtxs (e : Nat) (x : Engine) : (s.setEngine e x).savedCtxs = s.savedCtxs := rfl
@[simp] theorem setEngine_savedCalls (e : Nat) (x : Engine) : (s.setEngine e x).savedCalls = s.savedCalls := rfl
@[simp] theorem setEngine_ports (e : Nat) (x : Engine) : (s.setEngine e x).ports = s.ports := rfl
@[simp] theorem setEngine_syncs (e : Nat) (x : Engine) : (s.setEngine e x).syncs = s.syncs := rfl
@[simp] theorem setEngine_signatures (e : Nat) (x : Engine) : (s.setEngine e x).signatures = s.signatures := rfl
@[simp] theorem setEngine_firmware (e : Nat) (x : Engine) : (s.setEngine e x).firmware = s.firmware := rfl
@[simp] theorem setEngine_rollback (e : Nat) (x : Engine) : (s.setEngine e x).rollback = s.rollback := rfl
@[simp] theorem setEngine_tripped (e : Nat) (x : Engine) : (s.setEngine e x).tripped = s.tripped := rfl
@[simp] theorem setEngine_tableWrites (e : Nat) (x : Engine) : (s.setEngine e x).tableWrites = s.tableWrites := rfl
@[simp] theorem setEngine_wlJobs (e : Nat) (x : Engine) : (s.setEngine e x).wlJobs = s.wlJobs := rfl
@[simp] theorem setEngine_log (e : Nat) (x : Engine) : (s.setEngine e x).log = s.log := rfl
@[simp] theorem setEngine_hostOut (e : Nat) (x : Engine) : (s.setEngine e x).hostOut = s.hostOut := rfl
@[simp] theorem setEngine_nextId (e : Nat) (x : Engine) : (s.setEngine e x).nextId = s.nextId := rfl
@[simp] theorem setEngine_free (e : Nat) (x : Engine) : (s.setEngine e x).free = s.free := rfl

@[simp] theorem setPort_deviceId (n : Nat) (p : Port) : (s.setPort n p).deviceId = s.deviceId := rfl
@[simp] theorem setPort_clk (n : Nat) (p : Port) : (s.setPort n p).clk = s.clk := rfl
@[simp] theorem setPort_sampled (n : Nat) (p : Port) : (s.setPort n p).sampled = s.sampled := rfl
@[simp] theorem setPort_timeClk (n : Nat) (p : Port) : (s.setPort n p).timeClk = s.timeClk := rfl
@[simp] theorem setPort_timeNs (n : Nat) (p : Port) : (s.setPort n p).timeNs = s.timeNs := rfl
@[simp] theorem setPort_ticked (n : Nat) (p : Port) : (s.setPort n p).ticked = s.ticked := rfl
@[simp] theorem setPort_agenda (n : Nat) (p : Port) : (s.setPort n p).agenda = s.agenda := rfl
@[simp] theorem setPort_focus (n : Nat) (p : Port) : (s.setPort n p).focus = s.focus := rfl
@[simp] theorem setPort_bundle (n : Nat) (p : Port) : (s.setPort n p).bundle = s.bundle := rfl
@[simp] theorem setPort_ctxs (n : Nat) (p : Port) : (s.setPort n p).ctxs = s.ctxs := rfl
@[simp] theorem setPort_cores (n : Nat) (p : Port) : (s.setPort n p).cores = s.cores := rfl
@[simp] theorem setPort_engines (n : Nat) (p : Port) : (s.setPort n p).engines = s.engines := rfl
@[simp] theorem setPort_splits (n : Nat) (p : Port) : (s.setPort n p).splits = s.splits := rfl
@[simp] theorem setPort_mem (n : Nat) (p : Port) : (s.setPort n p).mem = s.mem := rfl
@[simp] theorem setPort_hostMem (n : Nat) (p : Port) : (s.setPort n p).hostMem = s.hostMem := rfl
@[simp] theorem setPort_engineTiles (n : Nat) (p : Port) : (s.setPort n p).engineTiles = s.engineTiles := rfl
@[simp] theorem setPort_emptyLines (n : Nat) (p : Port) : (s.setPort n p).emptyLines = s.emptyLines := rfl
@[simp] theorem setPort_mmio (n : Nat) (p : Port) : (s.setPort n p).mmio = s.mmio := rfl
@[simp] theorem setPort_tlb (n : Nat) (p : Port) : (s.setPort n p).tlb = s.tlb := rfl
@[simp] theorem setPort_walks (n : Nat) (p : Port) : (s.setPort n p).walks = s.walks := rfl
@[simp] theorem setPort_l2 (n : Nat) (p : Port) : (s.setPort n p).l2 = s.l2 := rfl
@[simp] theorem setPort_llc (n : Nat) (p : Port) : (s.setPort n p).llc = s.llc := rfl
@[simp] theorem setPort_badLines (n : Nat) (p : Port) : (s.setPort n p).badLines = s.badLines := rfl
@[simp] theorem setPort_hostBad (n : Nat) (p : Port) : (s.setPort n p).hostBad = s.hostBad := rfl
@[simp] theorem setPort_copies (n : Nat) (p : Port) : (s.setPort n p).copies = s.copies := rfl
@[simp] theorem setPort_batches (n : Nat) (p : Port) : (s.setPort n p).batches = s.batches := rfl
@[simp] theorem setPort_rreads (n : Nat) (p : Port) : (s.setPort n p).rreads = s.rreads := rfl
@[simp] theorem setPort_fetches (n : Nat) (p : Port) : (s.setPort n p).fetches = s.fetches := rfl
@[simp] theorem setPort_runs (n : Nat) (p : Port) : (s.setPort n p).runs = s.runs := rfl
@[simp] theorem setPort_packets (n : Nat) (p : Port) : (s.setPort n p).packets = s.packets := rfl
@[simp] theorem setPort_staggers (n : Nat) (p : Port) : (s.setPort n p).staggers = s.staggers := rfl
@[simp] theorem setPort_launches (n : Nat) (p : Port) : (s.setPort n p).launches = s.launches := rfl
@[simp] theorem setPort_validating (n : Nat) (p : Port) : (s.setPort n p).validating = s.validating := rfl
@[simp] theorem setPort_stageZero (n : Nat) (p : Port) : (s.setPort n p).stageZero = s.stageZero := rfl
@[simp] theorem setPort_cancelled (n : Nat) (p : Port) : (s.setPort n p).cancelled = s.cancelled := rfl
@[simp] theorem setPort_levelJobs (n : Nat) (p : Port) : (s.setPort n p).levelJobs = s.levelJobs := rfl
@[simp] theorem setPort_mailboxes (n : Nat) (p : Port) : (s.setPort n p).mailboxes = s.mailboxes := rfl
@[simp] theorem setPort_faultSeq (n : Nat) (p : Port) : (s.setPort n p).faultSeq = s.faultSeq := rfl
@[simp] theorem setPort_faultQueue (n : Nat) (p : Port) : (s.setPort n p).faultQueue = s.faultQueue := rfl
@[simp] theorem setPort_decisions (n : Nat) (p : Port) : (s.setPort n p).decisions = s.decisions := rfl
@[simp] theorem setPort_savedCtxs (n : Nat) (p : Port) : (s.setPort n p).savedCtxs = s.savedCtxs := rfl
@[simp] theorem setPort_savedCalls (n : Nat) (p : Port) : (s.setPort n p).savedCalls = s.savedCalls := rfl
@[simp] theorem setPort_syncs (n : Nat) (p : Port) : (s.setPort n p).syncs = s.syncs := rfl
@[simp] theorem setPort_signatures (n : Nat) (p : Port) : (s.setPort n p).signatures = s.signatures := rfl
@[simp] theorem setPort_firmware (n : Nat) (p : Port) : (s.setPort n p).firmware = s.firmware := rfl
@[simp] theorem setPort_rollback (n : Nat) (p : Port) : (s.setPort n p).rollback = s.rollback := rfl
@[simp] theorem setPort_tripped (n : Nat) (p : Port) : (s.setPort n p).tripped = s.tripped := rfl
@[simp] theorem setPort_tableWrites (n : Nat) (p : Port) : (s.setPort n p).tableWrites = s.tableWrites := rfl
@[simp] theorem setPort_wlJobs (n : Nat) (p : Port) : (s.setPort n p).wlJobs = s.wlJobs := rfl
@[simp] theorem setPort_log (n : Nat) (p : Port) : (s.setPort n p).log = s.log := rfl
@[simp] theorem setPort_hostOut (n : Nat) (p : Port) : (s.setPort n p).hostOut = s.hostOut := rfl
@[simp] theorem setPort_nextId (n : Nat) (p : Port) : (s.setPort n p).nextId = s.nextId := rfl
@[simp] theorem setPort_free (n : Nat) (p : Port) : (s.setPort n p).free = s.free := rfl

@[simp] theorem setWlJob_deviceId (j : Nat) (w : WlJob) : (s.setWlJob j w).deviceId = s.deviceId := rfl
@[simp] theorem setWlJob_clk (j : Nat) (w : WlJob) : (s.setWlJob j w).clk = s.clk := rfl
@[simp] theorem setWlJob_sampled (j : Nat) (w : WlJob) : (s.setWlJob j w).sampled = s.sampled := rfl
@[simp] theorem setWlJob_timeClk (j : Nat) (w : WlJob) : (s.setWlJob j w).timeClk = s.timeClk := rfl
@[simp] theorem setWlJob_timeNs (j : Nat) (w : WlJob) : (s.setWlJob j w).timeNs = s.timeNs := rfl
@[simp] theorem setWlJob_ticked (j : Nat) (w : WlJob) : (s.setWlJob j w).ticked = s.ticked := rfl
@[simp] theorem setWlJob_agenda (j : Nat) (w : WlJob) : (s.setWlJob j w).agenda = s.agenda := rfl
@[simp] theorem setWlJob_focus (j : Nat) (w : WlJob) : (s.setWlJob j w).focus = s.focus := rfl
@[simp] theorem setWlJob_bundle (j : Nat) (w : WlJob) : (s.setWlJob j w).bundle = s.bundle := rfl
@[simp] theorem setWlJob_ctxs (j : Nat) (w : WlJob) : (s.setWlJob j w).ctxs = s.ctxs := rfl
@[simp] theorem setWlJob_cores (j : Nat) (w : WlJob) : (s.setWlJob j w).cores = s.cores := rfl
@[simp] theorem setWlJob_engines (j : Nat) (w : WlJob) : (s.setWlJob j w).engines = s.engines := rfl
@[simp] theorem setWlJob_splits (j : Nat) (w : WlJob) : (s.setWlJob j w).splits = s.splits := rfl
@[simp] theorem setWlJob_mem (j : Nat) (w : WlJob) : (s.setWlJob j w).mem = s.mem := rfl
@[simp] theorem setWlJob_hostMem (j : Nat) (w : WlJob) : (s.setWlJob j w).hostMem = s.hostMem := rfl
@[simp] theorem setWlJob_engineTiles (j : Nat) (w : WlJob) : (s.setWlJob j w).engineTiles = s.engineTiles := rfl
@[simp] theorem setWlJob_emptyLines (j : Nat) (w : WlJob) : (s.setWlJob j w).emptyLines = s.emptyLines := rfl
@[simp] theorem setWlJob_mmio (j : Nat) (w : WlJob) : (s.setWlJob j w).mmio = s.mmio := rfl
@[simp] theorem setWlJob_tlb (j : Nat) (w : WlJob) : (s.setWlJob j w).tlb = s.tlb := rfl
@[simp] theorem setWlJob_walks (j : Nat) (w : WlJob) : (s.setWlJob j w).walks = s.walks := rfl
@[simp] theorem setWlJob_l2 (j : Nat) (w : WlJob) : (s.setWlJob j w).l2 = s.l2 := rfl
@[simp] theorem setWlJob_llc (j : Nat) (w : WlJob) : (s.setWlJob j w).llc = s.llc := rfl
@[simp] theorem setWlJob_badLines (j : Nat) (w : WlJob) : (s.setWlJob j w).badLines = s.badLines := rfl
@[simp] theorem setWlJob_hostBad (j : Nat) (w : WlJob) : (s.setWlJob j w).hostBad = s.hostBad := rfl
@[simp] theorem setWlJob_copies (j : Nat) (w : WlJob) : (s.setWlJob j w).copies = s.copies := rfl
@[simp] theorem setWlJob_batches (j : Nat) (w : WlJob) : (s.setWlJob j w).batches = s.batches := rfl
@[simp] theorem setWlJob_rreads (j : Nat) (w : WlJob) : (s.setWlJob j w).rreads = s.rreads := rfl
@[simp] theorem setWlJob_fetches (j : Nat) (w : WlJob) : (s.setWlJob j w).fetches = s.fetches := rfl
@[simp] theorem setWlJob_runs (j : Nat) (w : WlJob) : (s.setWlJob j w).runs = s.runs := rfl
@[simp] theorem setWlJob_packets (j : Nat) (w : WlJob) : (s.setWlJob j w).packets = s.packets := rfl
@[simp] theorem setWlJob_staggers (j : Nat) (w : WlJob) : (s.setWlJob j w).staggers = s.staggers := rfl
@[simp] theorem setWlJob_launches (j : Nat) (w : WlJob) : (s.setWlJob j w).launches = s.launches := rfl
@[simp] theorem setWlJob_validating (j : Nat) (w : WlJob) : (s.setWlJob j w).validating = s.validating := rfl
@[simp] theorem setWlJob_stageZero (j : Nat) (w : WlJob) : (s.setWlJob j w).stageZero = s.stageZero := rfl
@[simp] theorem setWlJob_cancelled (j : Nat) (w : WlJob) : (s.setWlJob j w).cancelled = s.cancelled := rfl
@[simp] theorem setWlJob_levelJobs (j : Nat) (w : WlJob) : (s.setWlJob j w).levelJobs = s.levelJobs := rfl
@[simp] theorem setWlJob_mailboxes (j : Nat) (w : WlJob) : (s.setWlJob j w).mailboxes = s.mailboxes := rfl
@[simp] theorem setWlJob_faultSeq (j : Nat) (w : WlJob) : (s.setWlJob j w).faultSeq = s.faultSeq := rfl
@[simp] theorem setWlJob_faultQueue (j : Nat) (w : WlJob) : (s.setWlJob j w).faultQueue = s.faultQueue := rfl
@[simp] theorem setWlJob_decisions (j : Nat) (w : WlJob) : (s.setWlJob j w).decisions = s.decisions := rfl
@[simp] theorem setWlJob_savedCtxs (j : Nat) (w : WlJob) : (s.setWlJob j w).savedCtxs = s.savedCtxs := rfl
@[simp] theorem setWlJob_savedCalls (j : Nat) (w : WlJob) : (s.setWlJob j w).savedCalls = s.savedCalls := rfl
@[simp] theorem setWlJob_ports (j : Nat) (w : WlJob) : (s.setWlJob j w).ports = s.ports := rfl
@[simp] theorem setWlJob_syncs (j : Nat) (w : WlJob) : (s.setWlJob j w).syncs = s.syncs := rfl
@[simp] theorem setWlJob_signatures (j : Nat) (w : WlJob) : (s.setWlJob j w).signatures = s.signatures := rfl
@[simp] theorem setWlJob_firmware (j : Nat) (w : WlJob) : (s.setWlJob j w).firmware = s.firmware := rfl
@[simp] theorem setWlJob_rollback (j : Nat) (w : WlJob) : (s.setWlJob j w).rollback = s.rollback := rfl
@[simp] theorem setWlJob_tripped (j : Nat) (w : WlJob) : (s.setWlJob j w).tripped = s.tripped := rfl
@[simp] theorem setWlJob_tableWrites (j : Nat) (w : WlJob) : (s.setWlJob j w).tableWrites = s.tableWrites := rfl
@[simp] theorem setWlJob_log (j : Nat) (w : WlJob) : (s.setWlJob j w).log = s.log := rfl
@[simp] theorem setWlJob_hostOut (j : Nat) (w : WlJob) : (s.setWlJob j w).hostOut = s.hostOut := rfl
@[simp] theorem setWlJob_nextId (j : Nat) (w : WlJob) : (s.setWlJob j w).nextId = s.nextId := rfl
@[simp] theorem setWlJob_free (j : Nat) (w : WlJob) : (s.setWlJob j w).free = s.free := rfl

@[simp] theorem setPhaser_deviceId (n i : Nat) (p : Phaser) : (s.setPhaser n i p).deviceId = s.deviceId := rfl
@[simp] theorem setPhaser_clk (n i : Nat) (p : Phaser) : (s.setPhaser n i p).clk = s.clk := rfl
@[simp] theorem setPhaser_sampled (n i : Nat) (p : Phaser) : (s.setPhaser n i p).sampled = s.sampled := rfl
@[simp] theorem setPhaser_timeClk (n i : Nat) (p : Phaser) : (s.setPhaser n i p).timeClk = s.timeClk := rfl
@[simp] theorem setPhaser_timeNs (n i : Nat) (p : Phaser) : (s.setPhaser n i p).timeNs = s.timeNs := rfl
@[simp] theorem setPhaser_ticked (n i : Nat) (p : Phaser) : (s.setPhaser n i p).ticked = s.ticked := rfl
@[simp] theorem setPhaser_agenda (n i : Nat) (p : Phaser) : (s.setPhaser n i p).agenda = s.agenda := rfl
@[simp] theorem setPhaser_focus (n i : Nat) (p : Phaser) : (s.setPhaser n i p).focus = s.focus := rfl
@[simp] theorem setPhaser_bundle (n i : Nat) (p : Phaser) : (s.setPhaser n i p).bundle = s.bundle := rfl
@[simp] theorem setPhaser_ctxs (n i : Nat) (p : Phaser) : (s.setPhaser n i p).ctxs = s.ctxs := rfl
@[simp] theorem setPhaser_engines (n i : Nat) (p : Phaser) : (s.setPhaser n i p).engines = s.engines := rfl
@[simp] theorem setPhaser_splits (n i : Nat) (p : Phaser) : (s.setPhaser n i p).splits = s.splits := rfl
@[simp] theorem setPhaser_mem (n i : Nat) (p : Phaser) : (s.setPhaser n i p).mem = s.mem := rfl
@[simp] theorem setPhaser_hostMem (n i : Nat) (p : Phaser) : (s.setPhaser n i p).hostMem = s.hostMem := rfl
@[simp] theorem setPhaser_engineTiles (n i : Nat) (p : Phaser) : (s.setPhaser n i p).engineTiles = s.engineTiles := rfl
@[simp] theorem setPhaser_emptyLines (n i : Nat) (p : Phaser) : (s.setPhaser n i p).emptyLines = s.emptyLines := rfl
@[simp] theorem setPhaser_mmio (n i : Nat) (p : Phaser) : (s.setPhaser n i p).mmio = s.mmio := rfl
@[simp] theorem setPhaser_tlb (n i : Nat) (p : Phaser) : (s.setPhaser n i p).tlb = s.tlb := rfl
@[simp] theorem setPhaser_walks (n i : Nat) (p : Phaser) : (s.setPhaser n i p).walks = s.walks := rfl
@[simp] theorem setPhaser_l2 (n i : Nat) (p : Phaser) : (s.setPhaser n i p).l2 = s.l2 := rfl
@[simp] theorem setPhaser_llc (n i : Nat) (p : Phaser) : (s.setPhaser n i p).llc = s.llc := rfl
@[simp] theorem setPhaser_badLines (n i : Nat) (p : Phaser) : (s.setPhaser n i p).badLines = s.badLines := rfl
@[simp] theorem setPhaser_hostBad (n i : Nat) (p : Phaser) : (s.setPhaser n i p).hostBad = s.hostBad := rfl
@[simp] theorem setPhaser_copies (n i : Nat) (p : Phaser) : (s.setPhaser n i p).copies = s.copies := rfl
@[simp] theorem setPhaser_batches (n i : Nat) (p : Phaser) : (s.setPhaser n i p).batches = s.batches := rfl
@[simp] theorem setPhaser_rreads (n i : Nat) (p : Phaser) : (s.setPhaser n i p).rreads = s.rreads := rfl
@[simp] theorem setPhaser_fetches (n i : Nat) (p : Phaser) : (s.setPhaser n i p).fetches = s.fetches := rfl
@[simp] theorem setPhaser_runs (n i : Nat) (p : Phaser) : (s.setPhaser n i p).runs = s.runs := rfl
@[simp] theorem setPhaser_packets (n i : Nat) (p : Phaser) : (s.setPhaser n i p).packets = s.packets := rfl
@[simp] theorem setPhaser_staggers (n i : Nat) (p : Phaser) : (s.setPhaser n i p).staggers = s.staggers := rfl
@[simp] theorem setPhaser_launches (n i : Nat) (p : Phaser) : (s.setPhaser n i p).launches = s.launches := rfl
@[simp] theorem setPhaser_validating (n i : Nat) (p : Phaser) : (s.setPhaser n i p).validating = s.validating := rfl
@[simp] theorem setPhaser_stageZero (n i : Nat) (p : Phaser) : (s.setPhaser n i p).stageZero = s.stageZero := rfl
@[simp] theorem setPhaser_cancelled (n i : Nat) (p : Phaser) : (s.setPhaser n i p).cancelled = s.cancelled := rfl
@[simp] theorem setPhaser_levelJobs (n i : Nat) (p : Phaser) : (s.setPhaser n i p).levelJobs = s.levelJobs := rfl
@[simp] theorem setPhaser_mailboxes (n i : Nat) (p : Phaser) : (s.setPhaser n i p).mailboxes = s.mailboxes := rfl
@[simp] theorem setPhaser_faultSeq (n i : Nat) (p : Phaser) : (s.setPhaser n i p).faultSeq = s.faultSeq := rfl
@[simp] theorem setPhaser_faultQueue (n i : Nat) (p : Phaser) : (s.setPhaser n i p).faultQueue = s.faultQueue := rfl
@[simp] theorem setPhaser_decisions (n i : Nat) (p : Phaser) : (s.setPhaser n i p).decisions = s.decisions := rfl
@[simp] theorem setPhaser_savedCtxs (n i : Nat) (p : Phaser) : (s.setPhaser n i p).savedCtxs = s.savedCtxs := rfl
@[simp] theorem setPhaser_savedCalls (n i : Nat) (p : Phaser) : (s.setPhaser n i p).savedCalls = s.savedCalls := rfl
@[simp] theorem setPhaser_ports (n i : Nat) (p : Phaser) : (s.setPhaser n i p).ports = s.ports := rfl
@[simp] theorem setPhaser_syncs (n i : Nat) (p : Phaser) : (s.setPhaser n i p).syncs = s.syncs := rfl
@[simp] theorem setPhaser_signatures (n i : Nat) (p : Phaser) : (s.setPhaser n i p).signatures = s.signatures := rfl
@[simp] theorem setPhaser_firmware (n i : Nat) (p : Phaser) : (s.setPhaser n i p).firmware = s.firmware := rfl
@[simp] theorem setPhaser_rollback (n i : Nat) (p : Phaser) : (s.setPhaser n i p).rollback = s.rollback := rfl
@[simp] theorem setPhaser_tripped (n i : Nat) (p : Phaser) : (s.setPhaser n i p).tripped = s.tripped := rfl
@[simp] theorem setPhaser_tableWrites (n i : Nat) (p : Phaser) : (s.setPhaser n i p).tableWrites = s.tableWrites := rfl
@[simp] theorem setPhaser_wlJobs (n i : Nat) (p : Phaser) : (s.setPhaser n i p).wlJobs = s.wlJobs := rfl
@[simp] theorem setPhaser_log (n i : Nat) (p : Phaser) : (s.setPhaser n i p).log = s.log := rfl
@[simp] theorem setPhaser_hostOut (n i : Nat) (p : Phaser) : (s.setPhaser n i p).hostOut = s.hostOut := rfl
@[simp] theorem setPhaser_nextId (n i : Nat) (p : Phaser) : (s.setPhaser n i p).nextId = s.nextId := rfl
@[simp] theorem setPhaser_free (n i : Nat) (p : Phaser) : (s.setPhaser n i p).free = s.free := rfl

@[simp] theorem setMmio_deviceId (die off : Nat) (v : W64) : (s.setMmio die off v).deviceId = s.deviceId := rfl
@[simp] theorem setMmio_clk (die off : Nat) (v : W64) : (s.setMmio die off v).clk = s.clk := rfl
@[simp] theorem setMmio_sampled (die off : Nat) (v : W64) : (s.setMmio die off v).sampled = s.sampled := rfl
@[simp] theorem setMmio_timeClk (die off : Nat) (v : W64) : (s.setMmio die off v).timeClk = s.timeClk := rfl
@[simp] theorem setMmio_timeNs (die off : Nat) (v : W64) : (s.setMmio die off v).timeNs = s.timeNs := rfl
@[simp] theorem setMmio_ticked (die off : Nat) (v : W64) : (s.setMmio die off v).ticked = s.ticked := rfl
@[simp] theorem setMmio_agenda (die off : Nat) (v : W64) : (s.setMmio die off v).agenda = s.agenda := rfl
@[simp] theorem setMmio_focus (die off : Nat) (v : W64) : (s.setMmio die off v).focus = s.focus := rfl
@[simp] theorem setMmio_bundle (die off : Nat) (v : W64) : (s.setMmio die off v).bundle = s.bundle := rfl
@[simp] theorem setMmio_ctxs (die off : Nat) (v : W64) : (s.setMmio die off v).ctxs = s.ctxs := rfl
@[simp] theorem setMmio_cores (die off : Nat) (v : W64) : (s.setMmio die off v).cores = s.cores := rfl
@[simp] theorem setMmio_engines (die off : Nat) (v : W64) : (s.setMmio die off v).engines = s.engines := rfl
@[simp] theorem setMmio_splits (die off : Nat) (v : W64) : (s.setMmio die off v).splits = s.splits := rfl
@[simp] theorem setMmio_mem (die off : Nat) (v : W64) : (s.setMmio die off v).mem = s.mem := rfl
@[simp] theorem setMmio_hostMem (die off : Nat) (v : W64) : (s.setMmio die off v).hostMem = s.hostMem := rfl
@[simp] theorem setMmio_engineTiles (die off : Nat) (v : W64) : (s.setMmio die off v).engineTiles = s.engineTiles := rfl
@[simp] theorem setMmio_emptyLines (die off : Nat) (v : W64) : (s.setMmio die off v).emptyLines = s.emptyLines := rfl
@[simp] theorem setMmio_tlb (die off : Nat) (v : W64) : (s.setMmio die off v).tlb = s.tlb := rfl
@[simp] theorem setMmio_walks (die off : Nat) (v : W64) : (s.setMmio die off v).walks = s.walks := rfl
@[simp] theorem setMmio_l2 (die off : Nat) (v : W64) : (s.setMmio die off v).l2 = s.l2 := rfl
@[simp] theorem setMmio_llc (die off : Nat) (v : W64) : (s.setMmio die off v).llc = s.llc := rfl
@[simp] theorem setMmio_badLines (die off : Nat) (v : W64) : (s.setMmio die off v).badLines = s.badLines := rfl
@[simp] theorem setMmio_hostBad (die off : Nat) (v : W64) : (s.setMmio die off v).hostBad = s.hostBad := rfl
@[simp] theorem setMmio_copies (die off : Nat) (v : W64) : (s.setMmio die off v).copies = s.copies := rfl
@[simp] theorem setMmio_batches (die off : Nat) (v : W64) : (s.setMmio die off v).batches = s.batches := rfl
@[simp] theorem setMmio_rreads (die off : Nat) (v : W64) : (s.setMmio die off v).rreads = s.rreads := rfl
@[simp] theorem setMmio_fetches (die off : Nat) (v : W64) : (s.setMmio die off v).fetches = s.fetches := rfl
@[simp] theorem setMmio_runs (die off : Nat) (v : W64) : (s.setMmio die off v).runs = s.runs := rfl
@[simp] theorem setMmio_packets (die off : Nat) (v : W64) : (s.setMmio die off v).packets = s.packets := rfl
@[simp] theorem setMmio_staggers (die off : Nat) (v : W64) : (s.setMmio die off v).staggers = s.staggers := rfl
@[simp] theorem setMmio_launches (die off : Nat) (v : W64) : (s.setMmio die off v).launches = s.launches := rfl
@[simp] theorem setMmio_validating (die off : Nat) (v : W64) : (s.setMmio die off v).validating = s.validating := rfl
@[simp] theorem setMmio_stageZero (die off : Nat) (v : W64) : (s.setMmio die off v).stageZero = s.stageZero := rfl
@[simp] theorem setMmio_cancelled (die off : Nat) (v : W64) : (s.setMmio die off v).cancelled = s.cancelled := rfl
@[simp] theorem setMmio_levelJobs (die off : Nat) (v : W64) : (s.setMmio die off v).levelJobs = s.levelJobs := rfl
@[simp] theorem setMmio_mailboxes (die off : Nat) (v : W64) : (s.setMmio die off v).mailboxes = s.mailboxes := rfl
@[simp] theorem setMmio_faultSeq (die off : Nat) (v : W64) : (s.setMmio die off v).faultSeq = s.faultSeq := rfl
@[simp] theorem setMmio_faultQueue (die off : Nat) (v : W64) : (s.setMmio die off v).faultQueue = s.faultQueue := rfl
@[simp] theorem setMmio_decisions (die off : Nat) (v : W64) : (s.setMmio die off v).decisions = s.decisions := rfl
@[simp] theorem setMmio_savedCtxs (die off : Nat) (v : W64) : (s.setMmio die off v).savedCtxs = s.savedCtxs := rfl
@[simp] theorem setMmio_savedCalls (die off : Nat) (v : W64) : (s.setMmio die off v).savedCalls = s.savedCalls := rfl
@[simp] theorem setMmio_ports (die off : Nat) (v : W64) : (s.setMmio die off v).ports = s.ports := rfl
@[simp] theorem setMmio_syncs (die off : Nat) (v : W64) : (s.setMmio die off v).syncs = s.syncs := rfl
@[simp] theorem setMmio_signatures (die off : Nat) (v : W64) : (s.setMmio die off v).signatures = s.signatures := rfl
@[simp] theorem setMmio_firmware (die off : Nat) (v : W64) : (s.setMmio die off v).firmware = s.firmware := rfl
@[simp] theorem setMmio_rollback (die off : Nat) (v : W64) : (s.setMmio die off v).rollback = s.rollback := rfl
@[simp] theorem setMmio_tripped (die off : Nat) (v : W64) : (s.setMmio die off v).tripped = s.tripped := rfl
@[simp] theorem setMmio_tableWrites (die off : Nat) (v : W64) : (s.setMmio die off v).tableWrites = s.tableWrites := rfl
@[simp] theorem setMmio_wlJobs (die off : Nat) (v : W64) : (s.setMmio die off v).wlJobs = s.wlJobs := rfl
@[simp] theorem setMmio_log (die off : Nat) (v : W64) : (s.setMmio die off v).log = s.log := rfl
@[simp] theorem setMmio_hostOut (die off : Nat) (v : W64) : (s.setMmio die off v).hostOut = s.hostOut := rfl
@[simp] theorem setMmio_nextId (die off : Nat) (v : W64) : (s.setMmio die off v).nextId = s.nextId := rfl
@[simp] theorem setMmio_free (die off : Nat) (v : W64) : (s.setMmio die off v).free = s.free := rfl

@[simp] theorem onCtx_deviceId (k : Nat) (f : Ctx → Ctx) : (s.onCtx k f).deviceId = s.deviceId := rfl
@[simp] theorem onCtx_clk (k : Nat) (f : Ctx → Ctx) : (s.onCtx k f).clk = s.clk := rfl
@[simp] theorem onCtx_sampled (k : Nat) (f : Ctx → Ctx) : (s.onCtx k f).sampled = s.sampled := rfl
@[simp] theorem onCtx_timeClk (k : Nat) (f : Ctx → Ctx) : (s.onCtx k f).timeClk = s.timeClk := rfl
@[simp] theorem onCtx_timeNs (k : Nat) (f : Ctx → Ctx) : (s.onCtx k f).timeNs = s.timeNs := rfl
@[simp] theorem onCtx_ticked (k : Nat) (f : Ctx → Ctx) : (s.onCtx k f).ticked = s.ticked := rfl
@[simp] theorem onCtx_agenda (k : Nat) (f : Ctx → Ctx) : (s.onCtx k f).agenda = s.agenda := rfl
@[simp] theorem onCtx_focus (k : Nat) (f : Ctx → Ctx) : (s.onCtx k f).focus = s.focus := rfl
@[simp] theorem onCtx_bundle (k : Nat) (f : Ctx → Ctx) : (s.onCtx k f).bundle = s.bundle := rfl
@[simp] theorem onCtx_cores (k : Nat) (f : Ctx → Ctx) : (s.onCtx k f).cores = s.cores := rfl
@[simp] theorem onCtx_engines (k : Nat) (f : Ctx → Ctx) : (s.onCtx k f).engines = s.engines := rfl
@[simp] theorem onCtx_splits (k : Nat) (f : Ctx → Ctx) : (s.onCtx k f).splits = s.splits := rfl
@[simp] theorem onCtx_mem (k : Nat) (f : Ctx → Ctx) : (s.onCtx k f).mem = s.mem := rfl
@[simp] theorem onCtx_hostMem (k : Nat) (f : Ctx → Ctx) : (s.onCtx k f).hostMem = s.hostMem := rfl
@[simp] theorem onCtx_engineTiles (k : Nat) (f : Ctx → Ctx) : (s.onCtx k f).engineTiles = s.engineTiles := rfl
@[simp] theorem onCtx_emptyLines (k : Nat) (f : Ctx → Ctx) : (s.onCtx k f).emptyLines = s.emptyLines := rfl
@[simp] theorem onCtx_mmio (k : Nat) (f : Ctx → Ctx) : (s.onCtx k f).mmio = s.mmio := rfl
@[simp] theorem onCtx_tlb (k : Nat) (f : Ctx → Ctx) : (s.onCtx k f).tlb = s.tlb := rfl
@[simp] theorem onCtx_walks (k : Nat) (f : Ctx → Ctx) : (s.onCtx k f).walks = s.walks := rfl
@[simp] theorem onCtx_l2 (k : Nat) (f : Ctx → Ctx) : (s.onCtx k f).l2 = s.l2 := rfl
@[simp] theorem onCtx_llc (k : Nat) (f : Ctx → Ctx) : (s.onCtx k f).llc = s.llc := rfl
@[simp] theorem onCtx_badLines (k : Nat) (f : Ctx → Ctx) : (s.onCtx k f).badLines = s.badLines := rfl
@[simp] theorem onCtx_hostBad (k : Nat) (f : Ctx → Ctx) : (s.onCtx k f).hostBad = s.hostBad := rfl
@[simp] theorem onCtx_copies (k : Nat) (f : Ctx → Ctx) : (s.onCtx k f).copies = s.copies := rfl
@[simp] theorem onCtx_batches (k : Nat) (f : Ctx → Ctx) : (s.onCtx k f).batches = s.batches := rfl
@[simp] theorem onCtx_rreads (k : Nat) (f : Ctx → Ctx) : (s.onCtx k f).rreads = s.rreads := rfl
@[simp] theorem onCtx_fetches (k : Nat) (f : Ctx → Ctx) : (s.onCtx k f).fetches = s.fetches := rfl
@[simp] theorem onCtx_runs (k : Nat) (f : Ctx → Ctx) : (s.onCtx k f).runs = s.runs := rfl
@[simp] theorem onCtx_packets (k : Nat) (f : Ctx → Ctx) : (s.onCtx k f).packets = s.packets := rfl
@[simp] theorem onCtx_staggers (k : Nat) (f : Ctx → Ctx) : (s.onCtx k f).staggers = s.staggers := rfl
@[simp] theorem onCtx_launches (k : Nat) (f : Ctx → Ctx) : (s.onCtx k f).launches = s.launches := rfl
@[simp] theorem onCtx_validating (k : Nat) (f : Ctx → Ctx) : (s.onCtx k f).validating = s.validating := rfl
@[simp] theorem onCtx_stageZero (k : Nat) (f : Ctx → Ctx) : (s.onCtx k f).stageZero = s.stageZero := rfl
@[simp] theorem onCtx_cancelled (k : Nat) (f : Ctx → Ctx) : (s.onCtx k f).cancelled = s.cancelled := rfl
@[simp] theorem onCtx_levelJobs (k : Nat) (f : Ctx → Ctx) : (s.onCtx k f).levelJobs = s.levelJobs := rfl
@[simp] theorem onCtx_mailboxes (k : Nat) (f : Ctx → Ctx) : (s.onCtx k f).mailboxes = s.mailboxes := rfl
@[simp] theorem onCtx_faultSeq (k : Nat) (f : Ctx → Ctx) : (s.onCtx k f).faultSeq = s.faultSeq := rfl
@[simp] theorem onCtx_faultQueue (k : Nat) (f : Ctx → Ctx) : (s.onCtx k f).faultQueue = s.faultQueue := rfl
@[simp] theorem onCtx_decisions (k : Nat) (f : Ctx → Ctx) : (s.onCtx k f).decisions = s.decisions := rfl
@[simp] theorem onCtx_savedCtxs (k : Nat) (f : Ctx → Ctx) : (s.onCtx k f).savedCtxs = s.savedCtxs := rfl
@[simp] theorem onCtx_savedCalls (k : Nat) (f : Ctx → Ctx) : (s.onCtx k f).savedCalls = s.savedCalls := rfl
@[simp] theorem onCtx_ports (k : Nat) (f : Ctx → Ctx) : (s.onCtx k f).ports = s.ports := rfl
@[simp] theorem onCtx_syncs (k : Nat) (f : Ctx → Ctx) : (s.onCtx k f).syncs = s.syncs := rfl
@[simp] theorem onCtx_signatures (k : Nat) (f : Ctx → Ctx) : (s.onCtx k f).signatures = s.signatures := rfl
@[simp] theorem onCtx_firmware (k : Nat) (f : Ctx → Ctx) : (s.onCtx k f).firmware = s.firmware := rfl
@[simp] theorem onCtx_rollback (k : Nat) (f : Ctx → Ctx) : (s.onCtx k f).rollback = s.rollback := rfl
@[simp] theorem onCtx_tripped (k : Nat) (f : Ctx → Ctx) : (s.onCtx k f).tripped = s.tripped := rfl
@[simp] theorem onCtx_tableWrites (k : Nat) (f : Ctx → Ctx) : (s.onCtx k f).tableWrites = s.tableWrites := rfl
@[simp] theorem onCtx_wlJobs (k : Nat) (f : Ctx → Ctx) : (s.onCtx k f).wlJobs = s.wlJobs := rfl
@[simp] theorem onCtx_log (k : Nat) (f : Ctx → Ctx) : (s.onCtx k f).log = s.log := rfl
@[simp] theorem onCtx_hostOut (k : Nat) (f : Ctx → Ctx) : (s.onCtx k f).hostOut = s.hostOut := rfl
@[simp] theorem onCtx_nextId (k : Nat) (f : Ctx → Ctx) : (s.onCtx k f).nextId = s.nextId := rfl
@[simp] theorem onCtx_free (k : Nat) (f : Ctx → Ctx) : (s.onCtx k f).free = s.free := rfl

@[simp] theorem seen_status (c : Ctx) : c.seen.status = c.status := by unfold Ctx.seen; split <;> rfl
@[simp] theorem seen_unit (c : Ctx) : c.seen.unit = c.unit := by unfold Ctx.seen; split <;> rfl
@[simp] theorem seen_pc (c : Ctx) : c.seen.pc = c.pc := by unfold Ctx.seen; split <;> rfl
@[simp] theorem seen_q (c : Ctx) : c.seen.q = c.q := by unfold Ctx.seen; split <;> rfl
@[simp] theorem seen_h (c : Ctx) : c.seen.h = c.h := by unfold Ctx.seen; split <;> rfl
@[simp] theorem seen_w (c : Ctx) : c.seen.w = c.w := by unfold Ctx.seen; split <;> rfl
@[simp] theorem seen_shadow (c : Ctx) : c.seen.shadow = c.shadow := by unfold Ctx.seen; split <;> rfl
@[simp] theorem seen_p (c : Ctx) : c.seen.p = c.p := by unfold Ctx.seen; split <;> rfl
@[simp] theorem seen_k (c : Ctx) : c.seen.k = c.k := by unfold Ctx.seen; split <;> rfl
@[simp] theorem seen_kHeld (c : Ctx) : c.seen.kHeld = c.kHeld := by unfold Ctx.seen; split <;> rfl
@[simp] theorem seen_c (c : Ctx) : c.seen.c = c.c := by unfold Ctx.seen; split <;> rfl
@[simp] theorem seen_mpc (c : Ctx) : c.seen.mpc = c.mpc := by unfold Ctx.seen; split <;> rfl
@[simp] theorem seen_asid (c : Ctx) : c.seen.asid = c.asid := by unfold Ctx.seen; split <;> rfl
@[simp] theorem seen_asperm (c : Ctx) : c.seen.asperm = c.asperm := by unfold Ctx.seen; split <;> rfl
@[simp] theorem seen_ptroot (c : Ctx) : c.seen.ptroot = c.ptroot := by unfold Ctx.seen; split <;> rfl
@[simp] theorem seen_pclass (c : Ctx) : c.seen.pclass = c.pclass := by unfold Ctx.seen; split <;> rfl
@[simp] theorem seen_fpflags (c : Ctx) : c.seen.fpflags = c.fpflags := by unfold Ctx.seen; split <;> rfl
@[simp] theorem seen_faultInfo (c : Ctx) : c.seen.faultInfo = c.faultInfo := by unfold Ctx.seen; split <;> rfl
@[simp] theorem seen_faultAddr (c : Ctx) : c.seen.faultAddr = c.faultAddr := by unfold Ctx.seen; split <;> rfl
@[simp] theorem seen_trapPc (c : Ctx) : c.seen.trapPc = c.trapPc := by unfold Ctx.seen; split <;> rfl
@[simp] theorem seen_stageCtr (c : Ctx) : c.seen.stageCtr = c.stageCtr := by unfold Ctx.seen; split <;> rfl
@[simp] theorem seen_task (c : Ctx) : c.seen.task = c.task := by unfold Ctx.seen; split <;> rfl
@[simp] theorem seen_monitor (c : Ctx) : c.seen.monitor = c.monitor := by unfold Ctx.seen; split <;> rfl
@[simp] theorem seen_given (c : Ctx) : c.seen.given = c.given := by unfold Ctx.seen; split <;> rfl
@[simp] theorem seen_skip (c : Ctx) : c.seen.skip = c.skip := by unfold Ctx.seen; split <;> rfl
@[simp] theorem seen_record (c : Ctx) : c.seen.record = c.record := by unfold Ctx.seen; split <;> rfl
@[simp] theorem seen_bank (c : Ctx) : c.seen.bank = c.bank := by unfold Ctx.seen; split <;> rfl
@[simp] theorem seen_handling (c : Ctx) : c.seen.handling = c.handling := by unfold Ctx.seen; split <;> rfl
@[simp] theorem seen_wait (c : Ctx) : c.seen.wait = c.wait := by unfold Ctx.seen; split <;> rfl
@[simp] theorem seen_pend (c : Ctx) : c.seen.pend = c.pend := by unfold Ctx.seen; split <;> rfl
@[simp] theorem seen_results (c : Ctx) : c.seen.results = c.results := by unfold Ctx.seen; split <;> rfl
@[simp] theorem seen_bundleNo (c : Ctx) : c.seen.bundleNo = c.bundleNo := by unfold Ctx.seen; split <;> rfl

/-- Outside handler code a context sees its own registers, and keeps what a bundle makes of them. -/
theorem Ctx.seen_eq {c : Ctx} (h : c.handling = false) : c.seen = c := by simp [Ctx.seen, h]
theorem Ctx.keep_eq {c : Ctx} (h : c.handling = false) (d : Ctx) : c.keep d = d := by simp [Ctx.keep, h]

@[simp] theorem ctx_setCtx (k : Nat) (c : Ctx) : (s.setCtx k c).ctx k = c := by
  simp [State.ctx, State.setCtx, tget_tset_self]
theorem ctx_setCtx_ne {k j : Nat} (c : Ctx) (h : j ≠ k) : (s.setCtx k c).ctx j = s.ctx j := by
  simp [State.ctx, State.setCtx, tget_tset_ne _ _ h]
@[simp] theorem core_setCore (n : Nat) (c : Core) : (s.setCore n c).core n = c := by
  simp [State.core, State.setCore, tget_tset_self]
theorem core_setCore_ne {n m : Nat} (c : Core) (h : m ≠ n) : (s.setCore n c).core m = s.core m := by
  simp [State.core, State.setCore, tget_tset_ne _ _ h]
@[simp] theorem engine_setEngine (e : Nat) (x : Engine) : (s.setEngine e x).engine e = x := by
  simp [State.engine, State.setEngine, tget_tset_self]
theorem engine_setEngine_ne {e f : Nat} (x : Engine) (h : f ≠ e) : (s.setEngine e x).engine f = s.engine f := by
  simp [State.engine, State.setEngine, tget_tset_ne _ _ h]
@[simp] theorem port_setPort (n : Nat) (p : Port) : (s.setPort n p).port n = p := by
  simp [State.port, State.setPort, tget_tset_self]
@[simp] theorem wlJob_setWlJob (j : Nat) (w : WlJob) : (s.setWlJob j w).wlJob j = w := by
  simp [State.wlJob, State.setWlJob, tget_tset_self]
@[simp] theorem phaser_setPhaser (n i : Nat) (p : Phaser) : (s.setPhaser n i p).phaser n i = p := by
  simp [State.phaser, State.setPhaser, tget_tset_self]
@[simp] theorem core_setCtx (k n : Nat) (c : Ctx) : (s.setCtx k c).core n = s.core n := rfl
@[simp] theorem engine_setCtx (k e : Nat) (c : Ctx) : (s.setCtx k c).engine e = s.engine e := rfl
@[simp] theorem ctx_setCore (k n : Nat) (c : Core) : (s.setCore n c).ctx k = s.ctx k := rfl
@[simp] theorem ctx_setEngine (k e : Nat) (x : Engine) : (s.setEngine e x).ctx k = s.ctx k := rfl
@[simp] theorem ctx_setPhaser (k n i : Nat) (p : Phaser) : (s.setPhaser n i p).ctx k = s.ctx k := rfl
@[simp] theorem ctx_onCtx (k : Nat) (f : Ctx → Ctx) : (s.onCtx k f).ctx k = f (s.ctx k) := by simp [State.onCtx]
theorem ctx_onCtx_ne {k j : Nat} (f : Ctx → Ctx) (h : j ≠ k) : (s.onCtx k f).ctx j = s.ctx j := ctx_setCtx_ne s _ h
@[simp] theorem split_setCtx (k n : Nat) (c : Ctx) : (s.setCtx k c).split n = s.split n := rfl
@[simp] theorem phaser_setCtx (k n i : Nat) (c : Ctx) : (s.setCtx k c).phaser n i = s.phaser n i := rfl

end Sys2Proof.Machine
end

