-- ==== Sys2Proof/Laws/Issue.lean ====
section
/-! SUPPORT. What issuing the last slot of a bundle comes to: the slot's effects commit, and what the commit of each common
effect leaves. -/
namespace Sys2Proof.Machine

theorem tset_tset {α : Type} (t : Tbl α) (k : Nat) (v w : α) : tset (tset t k v) k w = tset t k w := by
  induction t with
  | nil => simp [tset]
  | cons x r ih =>
    obtain ⟨j, u⟩ := x
    by_cases h1 : k < j
    · simp [tset, h1]
    · by_cases h2 : j = k
      · simp [tset, h2]
      · simp [tset, h1, h2, ih]

@[simp] theorem setCtx_setCtx (s : State) (k : Nat) (c d : Ctx) : (s.setCtx k c).setCtx k d = s.setCtx k d := by
  simp [State.setCtx, tset_tset]

theorem or_zero5 (f : BitVec 5) : f ||| 0 = f := by simp

/-- A slot that ends its bundle and asks for effects has them commit (R101, R190). -/
theorem issue_ends {i : Instr} {stop : BitVec 1} {s : State} {f : Env → Except Stop (List Effect)} {k n : Nat} {es : List Effect}
    (h : s.ends k n stop) (hf : formFault i = none) (he : f ⟨s, k, s.seen k, n⟩ = .ok es) :
    issue i stop s f = commit s k (n + 1) (es.map fun e => (n, e)) := by
  obtain ⟨hb, hs, hn⟩ := h
  have hn' : ¬ n < 3 := by omega
  simp only [State.seen] at he
  simp [issue, State.issues] at hb ⊢
  simp [hb, issueAt, slotEffects, hf, he, closeSlot, hs, hn']

/-- A slot whose own part stops it, its sources being of their types and full, stops for that (R193). -/
theorem issue_stop {i : Instr} {stop : BitVec 1} {s : State} {f : Env → Except Stop (List Effect)} {k n : Nat} {x : Stop}
    (h : s.issues k n) (hf : formFault i = none) (ho : operandStop i (s.seen k) = none)
    (he : f ⟨s, k, s.seen k, n⟩ = .error x) (hx : x.translates = false) :
    issue i stop s f = stopAt s k n x := by
  simp only [State.seen] at he ho
  simp [issue, State.issues] at h ⊢
  simp [h, issueAt, slotEffects, hf, he, ho, stopSlot, hx]

/-- A slot that traps at an issue check has the trap taken, with nothing of the bundle committed (R101, R388). -/
theorem issue_trap {i : Instr} {stop : BitVec 1} {s : State} {f : Env → Except Stop (List Effect)} {k n : Nat} {t : Trap}
    (h : s.issues k n) (hf : formFault i = none) (ho : operandStop i (s.seen k) = none)
    (he : f ⟨s, k, s.seen k, n⟩ = .error (.trap t)) (ht : (Stop.trap t).translates = false) :
    issue i stop s f = takeTrap s k n t := issue_stop h hf ho he ht

/-- What every commit does around its effects. -/
theorem endCommit_setCtx (s : State) (k : Nat) (c : Ctx) (fl : BitVec 5) :
    endCommit (s.setCtx k { c with wait := none }) k (s.ctx k) fl = s.over k { c with fpflags := c.fpflags ||| fl } := by
  simp only [endCommit, State.over, State.onCtx, ctx_setCtx, setCtx_setCtx]
  rfl

@[simp] theorem setDest_results (c : Ctx) (d : Dest) (b : Bool) (v : Vec) (p : Option Nat) : (c.setDest d b v p).results = c.results := by
  cases d <;> simp [Ctx.setDest, Ctx.push]; split <;> rfl
@[simp] theorem setDest_pc (c : Ctx) (d : Dest) (b : Bool) (v : Vec) (p : Option Nat) : (c.setDest d b v p).pc = c.pc := by
  cases d <;> simp [Ctx.setDest, Ctx.push]; split <;> rfl
@[simp] theorem setDest_bundleNo (c : Ctx) (d : Dest) (b : Bool) (v : Vec) (p : Option Nat) : (c.setDest d b v p).bundleNo = c.bundleNo := by
  cases d <;> simp [Ctx.setDest, Ctx.push]; split <;> rfl
@[simp] theorem setDest_fpflags (c : Ctx) (d : Dest) (b : Bool) (v : Vec) (p : Option Nat) : (c.setDest d b v p).fpflags = c.fpflags := by
  cases d <;> simp [Ctx.setDest, Ctx.push]; split <;> rfl

/-- The loops close alike whatever the flags. -/
theorem closeLoops_flags (c : Ctx) (f : BitVec 5) (a n : W64) :
    closeLoops { c with fpflags := f } a n = ({ (closeLoops c a n).1 with fpflags := f }, (closeLoops c a n).2) := by
  simp only [closeLoops]
  cases h1 : closeLevel c.lp1 a with
  | mk l1 p1 =>
    cases p1 with
    | some pc => rfl
    | none => cases h0 : closeLevel c.lp0 a with
      | mk l0 p0 => cases p0 <;> rfl

theorem closeLoops_fpflags (c : Ctx) (a n : W64) : (closeLoops c a n).1.fpflags = c.fpflags := by
  simp only [closeLoops]
  cases h1 : closeLevel c.lp1 a with
  | mk l1 p1 =>
    cases p1 with
    | some pc => rfl
    | none => cases h0 : closeLevel c.lp0 a with
      | mk l0 p0 => cases p0 <;> rfl

theorem closeLoops_bundleNo (c : Ctx) (a n : W64) : (closeLoops c a n).1.bundleNo = c.bundleNo := by
  simp only [closeLoops]
  cases h1 : closeLevel c.lp1 a with
  | mk l1 p1 =>
    cases p1 with
    | some pc => rfl
    | none => cases h0 : closeLevel c.lp0 a with
      | mk l0 p0 => cases p0 <;> rfl

/-- A bundle whose effects change the registers to `c`, and raise `fl`, ends so. -/
theorem endCommit_endBundle (s : State) (k n : Nat) (f : Ctx → Ctx) (c : Ctx) (fl : BitVec 5)
    (hc : f (s.seen k) = { c with fpflags := c.fpflags ||| fl }) :
    endCommit (s.setCtx k { (closeLoops c (s.ctx k).pc ((s.ctx k).pc + BitVec.ofNat 64 (4 * (n + 1)))).1 with
      pc := (closeLoops c (s.ctx k).pc ((s.ctx k).pc + BitVec.ofNat 64 (4 * (n + 1)))).2, wait := none }) k (s.ctx k) fl
    = s.endBundle k n f := by
  have h := endCommit_setCtx s k { (closeLoops c (s.ctx k).pc ((s.ctx k).pc + BitVec.ofNat 64 (4 * (n + 1)))).1 with
      pc := (closeLoops c (s.ctx k).pc ((s.ctx k).pc + BitVec.ofNat 64 (4 * (n + 1)))).2 } fl
  rw [h]
  simp only [State.endBundle, hc, closeLoops_flags, closeLoops_fpflags]

theorem commit_nothing (s : State) (k n : Nat) : commit s k (n + 1) [] = s.endBundle k n id := by
  have h : commit s k (n + 1) [] =
    let t := s.setCtx k (s.seen k)
    let r := closeLoops (t.ctx k) (s.ctx k).pc ((s.ctx k).pc + BitVec.ofNat 64 (4 * (n + 1)))
    endCommit (t.setCtx k { r.1 with pc := r.2, wait := none }) k (s.ctx k) 0 := rfl
  rw [h]
  simp only [ctx_setCtx, setCtx_setCtx]
  exact endCommit_endBundle s k n id (s.seen k) 0 (by rw [or_zero5]; rfl)

theorem commit_imm (s : State) (k n : Nat) (d : Dest) (v : W64) :
    commit s k (n + 1) [(n, .imm d v)] = s.endBundle k n (·.setDest d false (asVec v) none) := by
  have h : commit s k (n + 1) [(n, .imm d v)] =
    let t := (s.setCtx k (s.seen k)).onCtx k (·.setDest d false (asVec v) none)
    let r := closeLoops (t.ctx k) (s.ctx k).pc ((s.ctx k).pc + BitVec.ofNat 64 (4 * (n + 1)))
    endCommit (t.setCtx k { r.1 with pc := r.2, wait := none }) k (s.ctx k) 0 := rfl
  rw [h]
  simp only [State.onCtx, ctx_setCtx, setCtx_setCtx]
  exact endCommit_endBundle s k n (·.setDest d false (asVec v) none) ((s.seen k).setDest d false (asVec v) none) 0 (by rw [or_zero5])

theorem commit_late_flags (s : State) (k n : Nat) (d : Dest) (b : Bool) (v : Vec) (fl : BitVec 5) :
    commit s k (n + 1) [(n, .late d b v), (n, .flags fl)] = s.endLate k n d b v fl := by
  let u : State := { s with nextId := s.nextId + 1 }
  have h : commit s k (n + 1) [(n, .late d b v), (n, .flags fl)] =
    let t := (u.setCtx k (s.seen k)).onCtx k fun c : Ctx =>
      { c.setDest d b 0 (some s.nextId) with results := (c.setDest d b 0 (some s.nextId)).results ++ [⟨s.nextId, v, 0⟩] }
    let r := closeLoops (t.ctx k) (u.ctx k).pc ((u.ctx k).pc + BitVec.ofNat 64 (4 * (n + 1)))
    endCommit (t.setCtx k { r.1 with pc := r.2, wait := none }) k (u.ctx k) (0 ||| fl) := rfl
  rw [h]
  simp only [State.onCtx, ctx_setCtx, setCtx_setCtx, setDest_results]
  refine endCommit_endBundle u k n (fun c : Ctx => { c.expect d b s.nextId v with fpflags := c.fpflags ||| fl })
    ((s.seen k).expect d b s.nextId v) (0 ||| fl) ?_
  have e : u.seen k = s.seen k := rfl
  simp [e, Ctx.expect]

theorem commit_late (s : State) (k n : Nat) (d : Dest) (b : Bool) (v : Vec) :
    commit s k (n + 1) [(n, .late d b v)] = s.endLate k n d b v 0 := by
  rw [← commit_late_flags]
  rfl

end Sys2Proof.Machine
end

