-- ==== Sys2Proof/Laws/Lanes.lean ====
section
/-! SUPPORT. Vectors as lanes: the lanes of a vector built from lanes are those lanes, and the bits of a predicate built from
bits are those bits. -/
namespace Sys2Proof.Machine

/-- Digits below `b` packed into a number, the first lowest: the `j`-th comes out again. -/
theorem packed_digit {α : Type} (b : Nat) (f : α → Nat) (l : List α) (hf : ∀ x, f x < b) (j : Nat) (h : j < l.length) :
    l.foldr (fun w acc => f w + acc * b) 0 / b ^ j % b = f l[j] := by
  induction l generalizing j with
  | nil => exact absurd h (Nat.not_lt_zero j)
  | cons w r ih =>
    have hw := hf w
    cases j with
    | zero => rw [List.foldr_cons, Nat.pow_zero, Nat.div_one, Nat.add_mul_mod_self_right, Nat.mod_eq_of_lt hw]; rfl
    | succ j =>
      rw [List.foldr_cons, Nat.pow_succ, Nat.mul_comm (b ^ j) b, ← Nat.div_div_eq_div_mul,
        Nat.add_mul_div_right _ _ (Nat.lt_of_le_of_lt (Nat.zero_le _) hw), Nat.div_eq_of_lt hw, Nat.zero_add,
        ih j (Nat.lt_of_succ_lt_succ h)]
      rfl

/-- Words of 32 bits packed into a number: the `j`-th comes out again. -/
theorem packed_lane (l : List W32) (j : Nat) (h : j < l.length) :
    l.foldr (fun w acc => w.toNat + acc <<< 32) 0 / 2 ^ (32 * j) % 2 ^ 32 = (l[j]).toNat := by
  rw [Nat.pow_mul, ← packed_digit (2 ^ 32) BitVec.toNat l (fun x => x.isLt) j h]
  simp only [Nat.shiftLeft_eq]

theorem lane_ofLanes (l : List W32) (j : Nat) (h : j < l.length) (hj : j < 64) : lane (ofLanes l) j = l[j] := by
  apply BitVec.eq_of_toNat_eq
  rw [← packed_lane l j h]
  simp only [lane, ofLanes, BitVec.extractLsb'_toNat, BitVec.toNat_ofNat, Nat.shiftRight_eq_div_pow]
  rw [show 2 ^ 2048 = 2 ^ (32 * j) * 2 ^ (2048 - 32 * j) by rw [← Nat.pow_add]; congr 1; omega]
  rw [Nat.mod_mul_right_div_self]
  exact Nat.mod_mod_of_dvd _ (Nat.pow_dvd_pow 2 (by omega))

@[simp] theorem lane_tabulate (f : Nat → W32) (j : Nat) (hj : j < 64) : lane (tabulate f) j = f j := by
  rw [tabulate, lane_ofLanes _ _ (by simpa using hj) hj]
  simp

theorem lane_laneWise (f : Nat → W32 × Flags) (j : Nat) (hj : j < 64) : lane (laneWise f).1 j = (f j).1 := by
  rw [laneWise, lane_ofLanes _ _ (by simpa using hj) hj]
  simp

theorem laneWise_flags (f : Nat → W32 × Flags) :
    (laneWise f).2 = (List.range 64).foldl (fun acc j => acc ||| (f j).2) 0 := by
  simp only [laneWise, List.foldl_map]

@[simp] theorem lane_broadcast (w : W32) (j : Nat) (hj : j < 64) : lane (broadcast w) j = w := by simp [broadcast, hj]

/-- Bits packed into a number: the `j`-th comes out again. -/
theorem packed_bit (f : Nat → Bool) (l : List Nat) (j : Nat) (h : j < l.length) :
    (l.foldr (fun n acc => (if f n then 1 else 0) + 2 * acc) 0).testBit j = f l[j] := by
  induction l generalizing j with
  | nil => simp at h
  | cons n r ih =>
    cases j with
    | zero =>
      simp only [List.foldr_cons, List.getElem_cons_zero, Nat.testBit_zero]
      by_cases hf : f n <;> simp [hf]
    | succ j =>
      have hj : j < r.length := by simpa using h
      simp only [List.foldr_cons, List.getElem_cons_succ, Nat.testBit_add_one]
      rw [← ih j hj]
      congr 1
      split <;> omega

theorem lanePred_bit (f : Nat → Bool) (j : Nat) (hj : j < 64) : (lanePred f).getLsbD j = f j := by
  simp only [lanePred, BitVec.getLsbD_ofNat, hj, decide_true, Bool.true_and]
  rw [packed_bit f (List.range 64) j (by simpa using hj)]
  simp

end Sys2Proof.Machine
end

