-- ==== Sys2Proof/WellFormed.lean ====
section
/-! DEFINITION. Well-formed instructions: a slot whose operand and modifier codes pass the checks that R188 and R189 make on
its fields alone. Micro-words, steps and events have no such codes. -/
namespace Sys2Proof

/-- The operand and modifier codes of an instruction are in range (R188, R189, R193 step 2). -/
def Instr.wf (i : Instr) : Bool := (Machine.formFault i).isNone

end Sys2Proof
end

