-- ==== Sys2Proof/Laws/PerInstr.lean ====
section
/-! SUPPORT. Laws per instruction: what each row of the encoding tables makes of an instruction's fields. -/
set_option Elab.async false
set_option linter.unusedSimpArgs false

namespace Sys2Proof.Laws.Encoding
open Sys2Proof

/-- Bits below the seam of two words are those of the lower word. -/
theorem cut_low {m n : Nat} (x : BitVec m) (y : BitVec n) (i k : Nat) (h : i + k ≤ n) :
    (x ++ y).extractLsb' i k = y.extractLsb' i k := by
  ext j hj
  simp [BitVec.getElem_extractLsb', BitVec.getLsbD_append, show i + j < n by omega]

/-- Bits above the seam of two words are those of the upper word. -/
theorem cut_high {m n : Nat} (x : BitVec m) (y : BitVec n) (i k : Nat) (h : n ≤ i) :
    (x ++ y).extractLsb' i k = x.extractLsb' (i - n) k := by
  ext j hj
  simp [BitVec.getElem_extractLsb', BitVec.getLsbD_append, show ¬ i + j < n by omega, show i + j - n = i - n + j by omega]

/-- A word cut in two and put together again. -/
theorem join {n : Nat} (x : BitVec n) (a i k l : Nat) (h : a = i + k) :
    x.extractLsb' a l ++ x.extractLsb' i k = x.extractLsb' i (l + k) := by
  subst h
  ext j hj
  simp only [BitVec.getElem_append, BitVec.getElem_extractLsb']
  split
  · rfl
  · congr 1; omega

/-- The seam of 2 and 3 bits. -/
theorem cut_2_3 (x : BitVec 2) (y : BitVec 3) (i k : Nat) :
    (i + k ≤ 3 → BitVec.extractLsb' (n := 5) i k (x ++ y) = y.extractLsb' i k)
    ∧ (3 ≤ i → BitVec.extractLsb' (n := 5) i k (x ++ y) = x.extractLsb' (i - 3) k) :=
  ⟨cut_low x y i k, cut_high x y i k⟩

/-- The seam of 3 and 3 bits. -/
theorem cut_3_3 (x : BitVec 3) (y : BitVec 3) (i k : Nat) :
    (i + k ≤ 3 → BitVec.extractLsb' (n := 6) i k (x ++ y) = y.extractLsb' i k)
    ∧ (3 ≤ i → BitVec.extractLsb' (n := 6) i k (x ++ y) = x.extractLsb' (i - 3) k) :=
  ⟨cut_low x y i k, cut_high x y i k⟩

/-- The seam of 1 and 4 bits. -/
theorem cut_1_4 (x : BitVec 1) (y : BitVec 4) (i k : Nat) :
    (i + k ≤ 4 → BitVec.extractLsb' (n := 5) i k (x ++ y) = y.extractLsb' i k)
    ∧ (4 ≤ i → BitVec.extractLsb' (n := 5) i k (x ++ y) = x.extractLsb' (i - 4) k) :=
  ⟨cut_low x y i k, cut_high x y i k⟩

/-- The seam of 4 and 2 bits. -/
theorem cut_4_2 (x : BitVec 4) (y : BitVec 2) (i k : Nat) :
    (i + k ≤ 2 → BitVec.extractLsb' (n := 6) i k (x ++ y) = y.extractLsb' i k)
    ∧ (2 ≤ i → BitVec.extractLsb' (n := 6) i k (x ++ y) = x.extractLsb' (i - 2) k) :=
  ⟨cut_low x y i k, cut_high x y i k⟩

/-- The seam of 3 and 1 bits. -/
theorem cut_3_1 (x : BitVec 3) (y : BitVec 1) (i k : Nat) :
    (i + k ≤ 1 → BitVec.extractLsb' (n := 4) i k (x ++ y) = y.extractLsb' i k)
    ∧ (1 ≤ i → BitVec.extractLsb' (n := 4) i k (x ++ y) = x.extractLsb' (i - 1) k) :=
  ⟨cut_low x y i k, cut_high x y i k⟩

/-- The seam of 2 and 1 bits. -/
theorem cut_2_1 (x : BitVec 2) (y : BitVec 1) (i k : Nat) :
    (i + k ≤ 1 → BitVec.extractLsb' (n := 3) i k (x ++ y) = y.extractLsb' i k)
    ∧ (1 ≤ i → BitVec.extractLsb' (n := 3) i k (x ++ y) = x.extractLsb' (i - 1) k) :=
  ⟨cut_low x y i k, cut_high x y i k⟩

/-- The seam of 2 and 4 bits. -/
theorem cut_2_4 (x : BitVec 2) (y : BitVec 4) (i k : Nat) :
    (i + k ≤ 4 → BitVec.extractLsb' (n := 6) i k (x ++ y) = y.extractLsb' i k)
    ∧ (4 ≤ i → BitVec.extractLsb' (n := 6) i k (x ++ y) = x.extractLsb' (i - 4) k) :=
  ⟨cut_low x y i k, cut_high x y i k⟩

/-- The seam of 3 and 2 bits. -/
theorem cut_3_2 (x : BitVec 3) (y : BitVec 2) (i k : Nat) :
    (i + k ≤ 2 → BitVec.extractLsb' (n := 5) i k (x ++ y) = y.extractLsb' i k)
    ∧ (2 ≤ i → BitVec.extractLsb' (n := 5) i k (x ++ y) = x.extractLsb' (i - 2) k) :=
  ⟨cut_low x y i k, cut_high x y i k⟩

/-- The seam of 5 and 1 bits. -/
theorem cut_5_1 (x : BitVec 5) (y : BitVec 1) (i k : Nat) :
    (i + k ≤ 1 → BitVec.extractLsb' (n := 6) i k (x ++ y) = y.extractLsb' i k)
    ∧ (1 ≤ i → BitVec.extractLsb' (n := 6) i k (x ++ y) = x.extractLsb' (i - 1) k) :=
  ⟨cut_low x y i k, cut_high x y i k⟩

/-- The seam of 1 and 1 bits. -/
theorem cut_1_1 (x : BitVec 1) (y : BitVec 1) (i k : Nat) :
    (i + k ≤ 1 → BitVec.extractLsb' (n := 2) i k (x ++ y) = y.extractLsb' i k)
    ∧ (1 ≤ i → BitVec.extractLsb' (n := 2) i k (x ++ y) = x.extractLsb' (i - 1) k) :=
  ⟨cut_low x y i k, cut_high x y i k⟩

/-- The seam of 1 and 5 bits. -/
theorem cut_1_5 (x : BitVec 1) (y : BitVec 5) (i k : Nat) :
    (i + k ≤ 5 → BitVec.extractLsb' (n := 6) i k (x ++ y) = y.extractLsb' i k)
    ∧ (5 ≤ i → BitVec.extractLsb' (n := 6) i k (x ++ y) = x.extractLsb' (i - 5) k) :=
  ⟨cut_low x y i k, cut_high x y i k⟩

/-- The seam of 4 and 1 bits. -/
theorem cut_4_1 (x : BitVec 4) (y : BitVec 1) (i k : Nat) :
    (i + k ≤ 1 → BitVec.extractLsb' (n := 5) i k (x ++ y) = y.extractLsb' i k)
    ∧ (1 ≤ i → BitVec.extractLsb' (n := 5) i k (x ++ y) = x.extractLsb' (i - 1) k) :=
  ⟨cut_low x y i k, cut_high x y i k⟩

/-- The seam of 1 and 3 bits. -/
theorem cut_1_3 (x : BitVec 1) (y : BitVec 3) (i k : Nat) :
    (i + k ≤ 3 → BitVec.extractLsb' (n := 4) i k (x ++ y) = y.extractLsb' i k)
    ∧ (3 ≤ i → BitVec.extractLsb' (n := 4) i k (x ++ y) = x.extractLsb' (i - 3) k) :=
  ⟨cut_low x y i k, cut_high x y i k⟩

/-- The seam of 2 and 2 bits. -/
theorem cut_2_2 (x : BitVec 2) (y : BitVec 2) (i k : Nat) :
    (i + k ≤ 2 → BitVec.extractLsb' (n := 4) i k (x ++ y) = y.extractLsb' i k)
    ∧ (2 ≤ i → BitVec.extractLsb' (n := 4) i k (x ++ y) = x.extractLsb' (i - 2) k) :=
  ⟨cut_low x y i k, cut_high x y i k⟩

/-- A word of 19 bits cut as the rows cut it and put together again. -/
theorem join_19_6_1_6_1_5 (x : BitVec 19) : x.extractLsb' 13 6 ++ x.extractLsb' 12 1 ++ x.extractLsb' 6 6 ++ x.extractLsb' 5 1 ++ x.extractLsb' 0 5 = x := by
  simp (disch := omega) only [join]
  simp

/-- A word of 12 bits cut as the rows cut it and put together again. -/
theorem join_12_6_1_5 (x : BitVec 12) : x.extractLsb' 6 6 ++ x.extractLsb' 5 1 ++ x.extractLsb' 0 5 = x := by
  simp (disch := omega) only [join]
  simp

/-- A word of 7 bits cut as the rows cut it and put together again. -/
theorem join_7_6_1 (x : BitVec 7) : x.extractLsb' 1 6 ++ x.extractLsb' 0 1 = x := by
  simp (disch := omega) only [join]
  simp

/-- A word of 3 bits cut as the rows cut it and put together again. -/
theorem join_3_1_2 (x : BitVec 3) : x.extractLsb' 2 1 ++ x.extractLsb' 0 2 = x := by
  simp (disch := omega) only [join]
  simp

/-- A word of 6 bits cut as the rows cut it and put together again. -/
theorem join_6_1_5 (x : BitVec 6) : x.extractLsb' 5 1 ++ x.extractLsb' 0 5 = x := by
  simp (disch := omega) only [join]
  simp

/-- A word of 3 bits cut as the rows cut it and put together again. -/
theorem join_3_2_1 (x : BitVec 3) : x.extractLsb' 1 2 ++ x.extractLsb' 0 1 = x := by
  simp (disch := omega) only [join]
  simp

/-- A word of 4 bits cut as the rows cut it and put together again. -/
theorem join_4_3_1 (x : BitVec 4) : x.extractLsb' 1 3 ++ x.extractLsb' 0 1 = x := by
  simp (disch := omega) only [join]
  simp

/-- A word of 6 bits cut as the rows cut it and put together again. -/
theorem join_6_5_1 (x : BitVec 6) : x.extractLsb' 1 5 ++ x.extractLsb' 0 1 = x := by
  simp (disch := omega) only [join]
  simp

/-- A word of 8 bits cut as the rows cut it and put together again. -/
theorem join_8_2_1_5 (x : BitVec 8) : x.extractLsb' 6 2 ++ x.extractLsb' 5 1 ++ x.extractLsb' 0 5 = x := by
  simp (disch := omega) only [join]
  simp

/-- The instruction whose row an instruction's word has: the four rows of `sys.flush` have one word (R341). -/
def rowOf (i : Instr) : Instr :=
  match i with
  | .sysFlushL2 o => .sysFlushSplit o
  | .sysFlushL2Clean o => .sysFlushSplit o
  | .sysFlushL1 o => .sysFlushSplit o
  | i => i

/-- The fields that the encoding tables give an instruction name its own row, with every operand. -/
def Statement (i : Instr) : Prop := ∀ f, i.fields = some f → decodeFields f = .ok (rowOf i)

theorem aluAdd (o : C3) : Statement (.aluAdd o) := by
  intro _ h
  cases h
  rfl

theorem aluSub (o : C3) : Statement (.aluSub o) := by
  intro _ h
  cases h
  rfl

theorem aluMul (o : C3) : Statement (.aluMul o) := by
  intro _ h
  cases h
  rfl

theorem aluMulhs (o : C3) : Statement (.aluMulhs o) := by
  intro _ h
  cases h
  rfl

theorem aluMulhu (o : C3) : Statement (.aluMulhu o) := by
  intro _ h
  cases h
  rfl

theorem aluDiv (o : C3) : Statement (.aluDiv o) := by
  intro _ h
  cases h
  rfl

theorem aluDivu (o : C3) : Statement (.aluDivu o) := by
  intro _ h
  cases h
  rfl

theorem aluRem (o : C3) : Statement (.aluRem o) := by
  intro _ h
  cases h
  rfl

theorem aluRemu (o : C3) : Statement (.aluRemu o) := by
  intro _ h
  cases h
  rfl

theorem aluMin (o : C3) : Statement (.aluMin o) := by
  intro _ h
  cases h
  rfl

theorem aluMax (o : C3) : Statement (.aluMax o) := by
  intro _ h
  cases h
  rfl

theorem aluMinu (o : C3) : Statement (.aluMinu o) := by
  intro _ h
  cases h
  rfl

theorem aluMaxu (o : C3) : Statement (.aluMaxu o) := by
  intro _ h
  cases h
  rfl

theorem aluAnd (o : C3) : Statement (.aluAnd o) := by
  intro _ h
  cases h
  rfl

theorem aluOr (o : C3) : Statement (.aluOr o) := by
  intro _ h
  cases h
  rfl

theorem aluXor (o : C3) : Statement (.aluXor o) := by
  intro _ h
  cases h
  rfl

theorem aluAndn (o : C3) : Statement (.aluAndn o) := by
  intro _ h
  cases h
  rfl

theorem aluShl (o : C3) : Statement (.aluShl o) := by
  intro _ h
  cases h
  rfl

theorem aluShr (o : C3) : Statement (.aluShr o) := by
  intro _ h
  cases h
  rfl

theorem aluSar (o : C3) : Statement (.aluSar o) := by
  intro _ h
  cases h
  rfl

theorem aluRotl (o : C3) : Statement (.aluRotl o) := by
  intro _ h
  cases h
  rfl

theorem aluRotr (o : C3) : Statement (.aluRotr o) := by
  intro _ h
  cases h
  rfl

theorem aluClz (o : C2) : Statement (.aluClz o) := by
  intro _ h
  cases h
  rfl

theorem aluCtz (o : C2) : Statement (.aluCtz o) := by
  intro _ h
  cases h
  rfl

theorem aluPopc (o : C2) : Statement (.aluPopc o) := by
  intro _ h
  cases h
  rfl

theorem aluBswap (o : C2) : Statement (.aluBswap o) := by
  intro _ h
  cases h
  rfl

theorem aluMov (o : C2) : Statement (.aluMov o) := by
  intro _ h
  cases h
  rfl

theorem bitExt (o : C3) : Statement (.bitExt o) := by
  intro _ h
  cases h
  rfl

theorem bitExtu (o : C3) : Statement (.bitExtu o) := by
  intro _ h
  cases h
  rfl

theorem bitIns (o : C3) : Statement (.bitIns o) := by
  intro _ h
  cases h
  rfl

theorem bitSet (o : C3) : Statement (.bitSet o) := by
  intro _ h
  cases h
  rfl

theorem bitClr (o : C3) : Statement (.bitClr o) := by
  intro _ h
  cases h
  rfl

theorem bitTst (o : C3) : Statement (.bitTst o) := by
  intro _ h
  cases h
  rfl

theorem cmpEq (o : C3) : Statement (.cmpEq o) := by
  intro _ h
  cases h
  rfl

theorem cmpNe (o : C3) : Statement (.cmpNe o) := by
  intro _ h
  cases h
  rfl

theorem cmpLt (o : C3) : Statement (.cmpLt o) := by
  intro _ h
  cases h
  rfl

theorem cmpLtu (o : C3) : Statement (.cmpLtu o) := by
  intro _ h
  cases h
  rfl

theorem cmpLe (o : C3) : Statement (.cmpLe o) := by
  intro _ h
  cases h
  rfl

theorem cmpLeu (o : C3) : Statement (.cmpLeu o) := by
  intro _ h
  cases h
  rfl

theorem sel (o : Sel) : Statement (.sel o) := by
  intro _ h
  cases h
  simp (disch := omega) [decodeFields, decodeMaj04, Fields.unless, rowOf, cut_2_3, cut_3_3, cut_1_4, cut_4_2, cut_3_1, cut_2_1, cut_2_4, cut_3_2, cut_5_1, cut_1_1, cut_1_5, cut_4_1, cut_1_3, cut_2_2, join_19_6_1_6_1_5, join_12_6_1_5, join_7_6_1, join_3_1_2, join_6_1_5, join_3_2_1, join_4_3_1, join_6_5_1, join_8_2_1_5]

theorem prSet (o : PrS) : Statement (.prSet o) := by
  intro _ h
  cases h
  simp (disch := omega) [decodeFields, decodeMaj05, Fields.unless, rowOf, cut_2_3, cut_3_3, cut_1_4, cut_4_2, cut_3_1, cut_2_1, cut_2_4, cut_3_2, cut_5_1, cut_1_1, cut_1_5, cut_4_1, cut_1_3, cut_2_2, join_19_6_1_6_1_5, join_12_6_1_5, join_7_6_1, join_3_1_2, join_6_1_5, join_3_2_1, join_4_3_1, join_6_5_1, join_8_2_1_5]

theorem prGet (o : PrG) : Statement (.prGet o) := by
  intro _ h
  cases h
  simp (disch := omega) [decodeFields, decodeMaj05, Fields.unless, rowOf, cut_2_3, cut_3_3, cut_1_4, cut_4_2, cut_3_1, cut_2_1, cut_2_4, cut_3_2, cut_5_1, cut_1_1, cut_1_5, cut_4_1, cut_1_3, cut_2_2, join_19_6_1_6_1_5, join_12_6_1_5, join_7_6_1, join_3_1_2, join_6_1_5, join_3_2_1, join_4_3_1, join_6_5_1, join_8_2_1_5]

theorem prAnd (o : Pr3) : Statement (.prAnd o) := by
  intro _ h
  cases h
  simp (disch := omega) [decodeFields, decodeMaj05, Fields.unless, rowOf, cut_2_3, cut_3_3, cut_1_4, cut_4_2, cut_3_1, cut_2_1, cut_2_4, cut_3_2, cut_5_1, cut_1_1, cut_1_5, cut_4_1, cut_1_3, cut_2_2, join_19_6_1_6_1_5, join_12_6_1_5, join_7_6_1, join_3_1_2, join_6_1_5, join_3_2_1, join_4_3_1, join_6_5_1, join_8_2_1_5]

theorem prOr (o : Pr3) : Statement (.prOr o) := by
  intro _ h
  cases h
  simp (disch := omega) [decodeFields, decodeMaj05, Fields.unless, rowOf, cut_2_3, cut_3_3, cut_1_4, cut_4_2, cut_3_1, cut_2_1, cut_2_4, cut_3_2, cut_5_1, cut_1_1, cut_1_5, cut_4_1, cut_1_3, cut_2_2, join_19_6_1_6_1_5, join_12_6_1_5, join_7_6_1, join_3_1_2, join_6_1_5, join_3_2_1, join_4_3_1, join_6_5_1, join_8_2_1_5]

theorem prNot (o : Pr2) : Statement (.prNot o) := by
  intro _ h
  cases h
  simp (disch := omega) [decodeFields, decodeMaj05, Fields.unless, rowOf, cut_2_3, cut_3_3, cut_1_4, cut_4_2, cut_3_1, cut_2_1, cut_2_4, cut_3_2, cut_5_1, cut_1_1, cut_1_5, cut_4_1, cut_1_3, cut_2_2, join_19_6_1_6_1_5, join_12_6_1_5, join_7_6_1, join_3_1_2, join_6_1_5, join_3_2_1, join_4_3_1, join_6_5_1, join_8_2_1_5]

theorem addrTag (o : C2) : Statement (.addrTag o) := by
  intro _ h
  cases h
  rfl

theorem addrOff (o : C2) : Statement (.addrOff o) := by
  intro _ h
  cases h
  rfl

theorem addrSpl (o : C3) : Statement (.addrSpl o) := by
  intro _ h
  cases h
  rfl

theorem addrSpd (o : C3) : Statement (.addrSpd o) := by
  intro _ h
  cases h
  rfl

theorem addrPdv (o : C3) : Statement (.addrPdv o) := by
  intro _ h
  cases h
  rfl

theorem addrPeer (o : C3) : Statement (.addrPeer o) := by
  intro _ h
  cases h
  rfl

theorem immLo (o : L) : Statement (.immLo o) := by
  intro _ h
  cases h
  simp (disch := omega) [decodeFields, Fields.unless, rowOf, cut_2_3, cut_3_3, cut_1_4, cut_4_2, cut_3_1, cut_2_1, cut_2_4, cut_3_2, cut_5_1, cut_1_1, cut_1_5, cut_4_1, cut_1_3, cut_2_2, join_19_6_1_6_1_5, join_12_6_1_5, join_7_6_1, join_3_1_2, join_6_1_5, join_3_2_1, join_4_3_1, join_6_5_1, join_8_2_1_5]

theorem immHi (o : L) : Statement (.immHi o) := by
  intro _ h
  cases h
  simp (disch := omega) [decodeFields, Fields.unless, rowOf, cut_2_3, cut_3_3, cut_1_4, cut_4_2, cut_3_1, cut_2_1, cut_2_4, cut_3_2, cut_5_1, cut_1_1, cut_1_5, cut_4_1, cut_1_3, cut_2_2, join_19_6_1_6_1_5, join_12_6_1_5, join_7_6_1, join_3_1_2, join_6_1_5, join_3_2_1, join_4_3_1, join_6_5_1, join_8_2_1_5]

theorem aluAddi (o : FI) : Statement (.aluAddi o) := by
  intro _ h
  cases h
  simp (disch := omega) [decodeFields, Fields.unless, rowOf, cut_2_3, cut_3_3, cut_1_4, cut_4_2, cut_3_1, cut_2_1, cut_2_4, cut_3_2, cut_5_1, cut_1_1, cut_1_5, cut_4_1, cut_1_3, cut_2_2, join_19_6_1_6_1_5, join_12_6_1_5, join_7_6_1, join_3_1_2, join_6_1_5, join_3_2_1, join_4_3_1, join_6_5_1, join_8_2_1_5]

theorem aluAndi (o : FI) : Statement (.aluAndi o) := by
  intro _ h
  cases h
  simp (disch := omega) [decodeFields, Fields.unless, rowOf, cut_2_3, cut_3_3, cut_1_4, cut_4_2, cut_3_1, cut_2_1, cut_2_4, cut_3_2, cut_5_1, cut_1_1, cut_1_5, cut_4_1, cut_1_3, cut_2_2, join_19_6_1_6_1_5, join_12_6_1_5, join_7_6_1, join_3_1_2, join_6_1_5, join_3_2_1, join_4_3_1, join_6_5_1, join_8_2_1_5]

theorem addrTagi (o : TagI) : Statement (.addrTagi o) := by
  intro _ h
  cases h
  simp (disch := omega) [decodeFields, Fields.unless, rowOf, cut_2_3, cut_3_3, cut_1_4, cut_4_2, cut_3_1, cut_2_1, cut_2_4, cut_3_2, cut_5_1, cut_1_1, cut_1_5, cut_4_1, cut_1_3, cut_2_2, join_19_6_1_6_1_5, join_12_6_1_5, join_7_6_1, join_3_1_2, join_6_1_5, join_3_2_1, join_4_3_1, join_6_5_1, join_8_2_1_5]

theorem fpAdd (o : C3) : Statement (.fpAdd o) := by
  intro _ h
  cases h
  rfl

theorem fpSub (o : C3) : Statement (.fpSub o) := by
  intro _ h
  cases h
  rfl

theorem fpMul (o : C3) : Statement (.fpMul o) := by
  intro _ h
  cases h
  rfl

theorem fpDiv (o : C3) : Statement (.fpDiv o) := by
  intro _ h
  cases h
  rfl

theorem fpSqrt (o : C2) : Statement (.fpSqrt o) := by
  intro _ h
  cases h
  rfl

theorem fpFma (o : C3) : Statement (.fpFma o) := by
  intro _ h
  cases h
  rfl

theorem fpMin (o : C3) : Statement (.fpMin o) := by
  intro _ h
  cases h
  rfl

theorem fpMax (o : C3) : Statement (.fpMax o) := by
  intro _ h
  cases h
  rfl

theorem fpAbs (o : C2) : Statement (.fpAbs o) := by
  intro _ h
  cases h
  rfl

theorem fpNeg (o : C2) : Statement (.fpNeg o) := by
  intro _ h
  cases h
  rfl

theorem fpEq (o : C3) : Statement (.fpEq o) := by
  intro _ h
  cases h
  rfl

theorem fpLt (o : C3) : Statement (.fpLt o) := by
  intro _ h
  cases h
  rfl

theorem fpLe (o : C3) : Statement (.fpLe o) := by
  intro _ h
  cases h
  rfl

theorem fpUn (o : C3) : Statement (.fpUn o) := by
  intro _ h
  cases h
  rfl

theorem ctlNop (o : N) : Statement (.ctlNop o) := by
  intro _ h
  cases h
  rfl

theorem ctlEnd (o : N) : Statement (.ctlEnd o) := by
  intro _ h
  cases h
  rfl

theorem ctlJr (o : A1) : Statement (.ctlJr o) := by
  intro _ h
  cases h
  rfl

theorem ctlCallr (o : C2) : Statement (.ctlCallr o) := by
  intro _ h
  cases h
  rfl

theorem ctlRet (o : A1) : Statement (.ctlRet o) := by
  intro _ h
  cases h
  rfl

theorem ctlLoop (o : Lp) : Statement (.ctlLoop o) := by
  intro _ h
  cases h
  simp (disch := omega) [decodeFields, decodeMaj10, Fields.unless, rowOf, cut_2_3, cut_3_3, cut_1_4, cut_4_2, cut_3_1, cut_2_1, cut_2_4, cut_3_2, cut_5_1, cut_1_1, cut_1_5, cut_4_1, cut_1_3, cut_2_2, join_19_6_1_6_1_5, join_12_6_1_5, join_7_6_1, join_3_1_2, join_6_1_5, join_3_2_1, join_4_3_1, join_6_5_1, join_8_2_1_5]

theorem ctlSetmpc (o : A1) : Statement (.ctlSetmpc o) := by
  intro _ h
  cases h
  rfl

theorem ctlKadd (o : Ka) : Statement (.ctlKadd o) := by
  intro _ h
  cases h
  simp (disch := omega) [decodeFields, decodeMaj10, Fields.unless, rowOf, cut_2_3, cut_3_3, cut_1_4, cut_4_2, cut_3_1, cut_2_1, cut_2_4, cut_3_2, cut_5_1, cut_1_1, cut_1_5, cut_4_1, cut_1_3, cut_2_2, join_19_6_1_6_1_5, join_12_6_1_5, join_7_6_1, join_3_1_2, join_6_1_5, join_3_2_1, join_4_3_1, join_6_5_1, join_8_2_1_5]

theorem ctlBr (o : Br) : Statement (.ctlBr o) := by
  intro _ h
  cases h
  simp (disch := omega) [decodeFields, Fields.unless, rowOf, cut_2_3, cut_3_3, cut_1_4, cut_4_2, cut_3_1, cut_2_1, cut_2_4, cut_3_2, cut_5_1, cut_1_1, cut_1_5, cut_4_1, cut_1_3, cut_2_2, join_19_6_1_6_1_5, join_12_6_1_5, join_7_6_1, join_3_1_2, join_6_1_5, join_3_2_1, join_4_3_1, join_6_5_1, join_8_2_1_5]

theorem ctlCall (o : L) : Statement (.ctlCall o) := by
  intro _ h
  cases h
  simp (disch := omega) [decodeFields, Fields.unless, rowOf, cut_2_3, cut_3_3, cut_1_4, cut_4_2, cut_3_1, cut_2_1, cut_2_4, cut_3_2, cut_5_1, cut_1_1, cut_1_5, cut_4_1, cut_1_3, cut_2_2, join_19_6_1_6_1_5, join_12_6_1_5, join_7_6_1, join_3_1_2, join_6_1_5, join_3_2_1, join_4_3_1, join_6_5_1, join_8_2_1_5]

theorem ctlWait (o : Kw) : Statement (.ctlWait o) := by
  intro _ h
  cases h
  simp (disch := omega) [decodeFields, decodeMaj13, Fields.unless, rowOf, cut_2_3, cut_3_3, cut_1_4, cut_4_2, cut_3_1, cut_2_1, cut_2_4, cut_3_2, cut_5_1, cut_1_1, cut_1_5, cut_4_1, cut_1_3, cut_2_2, join_19_6_1_6_1_5, join_12_6_1_5, join_7_6_1, join_3_1_2, join_6_1_5, join_3_2_1, join_4_3_1, join_6_5_1, join_8_2_1_5]

theorem memLd (o : E) : Statement (.memLd o) := by
  intro _ h
  cases h
  simp (disch := omega) [decodeFields, Fields.unless, rowOf, cut_2_3, cut_3_3, cut_1_4, cut_4_2, cut_3_1, cut_2_1, cut_2_4, cut_3_2, cut_5_1, cut_1_1, cut_1_5, cut_4_1, cut_1_3, cut_2_2, join_19_6_1_6_1_5, join_12_6_1_5, join_7_6_1, join_3_1_2, join_6_1_5, join_3_2_1, join_4_3_1, join_6_5_1, join_8_2_1_5]

theorem memSt (o : E) : Statement (.memSt o) := by
  intro _ h
  cases h
  simp (disch := omega) [decodeFields, Fields.unless, rowOf, cut_2_3, cut_3_3, cut_1_4, cut_4_2, cut_3_1, cut_2_1, cut_2_4, cut_3_2, cut_5_1, cut_1_1, cut_1_5, cut_4_1, cut_1_3, cut_2_2, join_19_6_1_6_1_5, join_12_6_1_5, join_7_6_1, join_3_1_2, join_6_1_5, join_3_2_1, join_4_3_1, join_6_5_1, join_8_2_1_5]

theorem memLdxb (o : C3) : Statement (.memLdxb o) := by
  intro _ h
  cases h
  rfl

theorem memLdxh (o : C3) : Statement (.memLdxh o) := by
  intro _ h
  cases h
  rfl

theorem memLdxw (o : C3) : Statement (.memLdxw o) := by
  intro _ h
  cases h
  rfl

theorem memLdxd (o : C3) : Statement (.memLdxd o) := by
  intro _ h
  cases h
  rfl

theorem memLdxv (o : C3) : Statement (.memLdxv o) := by
  intro _ h
  cases h
  rfl

theorem memStxb (o : C3) : Statement (.memStxb o) := by
  intro _ h
  cases h
  rfl

theorem memStxh (o : C3) : Statement (.memStxh o) := by
  intro _ h
  cases h
  rfl

theorem memStxw (o : C3) : Statement (.memStxw o) := by
  intro _ h
  cases h
  rfl

theorem memStxd (o : C3) : Statement (.memStxd o) := by
  intro _ h
  cases h
  rfl

theorem memStxv (o : C3) : Statement (.memStxv o) := by
  intro _ h
  cases h
  rfl

theorem memDrain (o : Dr) : Statement (.memDrain o) := by
  intro _ h
  cases h
  simp (disch := omega) [decodeFields, decodeMaj16, Fields.unless, rowOf, cut_2_3, cut_3_3, cut_1_4, cut_4_2, cut_3_1, cut_2_1, cut_2_4, cut_3_2, cut_5_1, cut_1_1, cut_1_5, cut_4_1, cut_1_3, cut_2_2, join_19_6_1_6_1_5, join_12_6_1_5, join_7_6_1, join_3_1_2, join_6_1_5, join_3_2_1, join_4_3_1, join_6_5_1, join_8_2_1_5]

theorem memPf (o : A2) : Statement (.memPf o) := by
  intro _ h
  cases h
  rfl

theorem viewOpen (o : Vo) : Statement (.viewOpen o) := by
  intro _ h
  cases h
  simp (disch := omega) [decodeFields, decodeMaj17, Fields.unless, rowOf, cut_2_3, cut_3_3, cut_1_4, cut_4_2, cut_3_1, cut_2_1, cut_2_4, cut_3_2, cut_5_1, cut_1_1, cut_1_5, cut_4_1, cut_1_3, cut_2_2, join_19_6_1_6_1_5, join_12_6_1_5, join_7_6_1, join_3_1_2, join_6_1_5, join_3_2_1, join_4_3_1, join_6_5_1, join_8_2_1_5]

theorem viewRetire (o : Vr) : Statement (.viewRetire o) := by
  intro _ h
  cases h
  simp (disch := omega) [decodeFields, decodeMaj17, Fields.unless, rowOf, cut_2_3, cut_3_3, cut_1_4, cut_4_2, cut_3_1, cut_2_1, cut_2_4, cut_3_2, cut_5_1, cut_1_1, cut_1_5, cut_4_1, cut_1_3, cut_2_2, join_19_6_1_6_1_5, join_12_6_1_5, join_7_6_1, join_3_1_2, join_6_1_5, join_3_2_1, join_4_3_1, join_6_5_1, join_8_2_1_5]

theorem viewSet (o : Vs) : Statement (.viewSet o) := by
  intro _ h
  cases h
  simp (disch := omega) [decodeFields, decodeMaj17, Fields.unless, rowOf, cut_2_3, cut_3_3, cut_1_4, cut_4_2, cut_3_1, cut_2_1, cut_2_4, cut_3_2, cut_5_1, cut_1_1, cut_1_5, cut_4_1, cut_1_3, cut_2_2, join_19_6_1_6_1_5, join_12_6_1_5, join_7_6_1, join_3_1_2, join_6_1_5, join_3_2_1, join_4_3_1, join_6_5_1, join_8_2_1_5]

theorem viewGet (o : Vg) : Statement (.viewGet o) := by
  intro _ h
  cases h
  simp (disch := omega) [decodeFields, decodeMaj17, Fields.unless, rowOf, cut_2_3, cut_3_3, cut_1_4, cut_4_2, cut_3_1, cut_2_1, cut_2_4, cut_3_2, cut_5_1, cut_1_1, cut_1_5, cut_4_1, cut_1_3, cut_2_2, join_19_6_1_6_1_5, join_12_6_1_5, join_7_6_1, join_3_1_2, join_6_1_5, join_3_2_1, join_4_3_1, join_6_5_1, join_8_2_1_5]

theorem tenLd (o : Ten) : Statement (.tenLd o) := by
  intro _ h
  cases h
  simp (disch := omega) [decodeFields, Fields.unless, rowOf, cut_2_3, cut_3_3, cut_1_4, cut_4_2, cut_3_1, cut_2_1, cut_2_4, cut_3_2, cut_5_1, cut_1_1, cut_1_5, cut_4_1, cut_1_3, cut_2_2, join_19_6_1_6_1_5, join_12_6_1_5, join_7_6_1, join_3_1_2, join_6_1_5, join_3_2_1, join_4_3_1, join_6_5_1, join_8_2_1_5]

theorem tenSt (o : Ten) : Statement (.tenSt o) := by
  intro _ h
  cases h
  simp (disch := omega) [decodeFields, Fields.unless, rowOf, cut_2_3, cut_3_3, cut_1_4, cut_4_2, cut_3_1, cut_2_1, cut_2_4, cut_3_2, cut_5_1, cut_1_1, cut_1_5, cut_4_1, cut_1_3, cut_2_2, join_19_6_1_6_1_5, join_12_6_1_5, join_7_6_1, join_3_1_2, join_6_1_5, join_3_2_1, join_4_3_1, join_6_5_1, join_8_2_1_5]

theorem atomAdd (o : At) : Statement (.atomAdd o) := by
  intro _ h
  cases h
  simp (disch := omega) [decodeFields, decodeMaj1C, Fields.unless, rowOf, cut_2_3, cut_3_3, cut_1_4, cut_4_2, cut_3_1, cut_2_1, cut_2_4, cut_3_2, cut_5_1, cut_1_1, cut_1_5, cut_4_1, cut_1_3, cut_2_2, join_19_6_1_6_1_5, join_12_6_1_5, join_7_6_1, join_3_1_2, join_6_1_5, join_3_2_1, join_4_3_1, join_6_5_1, join_8_2_1_5]

theorem atomAnd (o : At) : Statement (.atomAnd o) := by
  intro _ h
  cases h
  simp (disch := omega) [decodeFields, decodeMaj1C, Fields.unless, rowOf, cut_2_3, cut_3_3, cut_1_4, cut_4_2, cut_3_1, cut_2_1, cut_2_4, cut_3_2, cut_5_1, cut_1_1, cut_1_5, cut_4_1, cut_1_3, cut_2_2, join_19_6_1_6_1_5, join_12_6_1_5, join_7_6_1, join_3_1_2, join_6_1_5, join_3_2_1, join_4_3_1, join_6_5_1, join_8_2_1_5]

theorem atomOr (o : At) : Statement (.atomOr o) := by
  intro _ h
  cases h
  simp (disch := omega) [decodeFields, decodeMaj1C, Fields.unless, rowOf, cut_2_3, cut_3_3, cut_1_4, cut_4_2, cut_3_1, cut_2_1, cut_2_4, cut_3_2, cut_5_1, cut_1_1, cut_1_5, cut_4_1, cut_1_3, cut_2_2, join_19_6_1_6_1_5, join_12_6_1_5, join_7_6_1, join_3_1_2, join_6_1_5, join_3_2_1, join_4_3_1, join_6_5_1, join_8_2_1_5]

theorem atomXor (o : At) : Statement (.atomXor o) := by
  intro _ h
  cases h
  simp (disch := omega) [decodeFields, decodeMaj1C, Fields.unless, rowOf, cut_2_3, cut_3_3, cut_1_4, cut_4_2, cut_3_1, cut_2_1, cut_2_4, cut_3_2, cut_5_1, cut_1_1, cut_1_5, cut_4_1, cut_1_3, cut_2_2, join_19_6_1_6_1_5, join_12_6_1_5, join_7_6_1, join_3_1_2, join_6_1_5, join_3_2_1, join_4_3_1, join_6_5_1, join_8_2_1_5]

theorem atomSmin (o : At) : Statement (.atomSmin o) := by
  intro _ h
  cases h
  simp (disch := omega) [decodeFields, decodeMaj1C, Fields.unless, rowOf, cut_2_3, cut_3_3, cut_1_4, cut_4_2, cut_3_1, cut_2_1, cut_2_4, cut_3_2, cut_5_1, cut_1_1, cut_1_5, cut_4_1, cut_1_3, cut_2_2, join_19_6_1_6_1_5, join_12_6_1_5, join_7_6_1, join_3_1_2, join_6_1_5, join_3_2_1, join_4_3_1, join_6_5_1, join_8_2_1_5]

theorem atomSmax (o : At) : Statement (.atomSmax o) := by
  intro _ h
  cases h
  simp (disch := omega) [decodeFields, decodeMaj1C, Fields.unless, rowOf, cut_2_3, cut_3_3, cut_1_4, cut_4_2, cut_3_1, cut_2_1, cut_2_4, cut_3_2, cut_5_1, cut_1_1, cut_1_5, cut_4_1, cut_1_3, cut_2_2, join_19_6_1_6_1_5, join_12_6_1_5, join_7_6_1, join_3_1_2, join_6_1_5, join_3_2_1, join_4_3_1, join_6_5_1, join_8_2_1_5]

theorem atomUmin (o : At) : Statement (.atomUmin o) := by
  intro _ h
  cases h
  simp (disch := omega) [decodeFields, decodeMaj1C, Fields.unless, rowOf, cut_2_3, cut_3_3, cut_1_4, cut_4_2, cut_3_1, cut_2_1, cut_2_4, cut_3_2, cut_5_1, cut_1_1, cut_1_5, cut_4_1, cut_1_3, cut_2_2, join_19_6_1_6_1_5, join_12_6_1_5, join_7_6_1, join_3_1_2, join_6_1_5, join_3_2_1, join_4_3_1, join_6_5_1, join_8_2_1_5]

theorem atomUmax (o : At) : Statement (.atomUmax o) := by
  intro _ h
  cases h
  simp (disch := omega) [decodeFields, decodeMaj1C, Fields.unless, rowOf, cut_2_3, cut_3_3, cut_1_4, cut_4_2, cut_3_1, cut_2_1, cut_2_4, cut_3_2, cut_5_1, cut_1_1, cut_1_5, cut_4_1, cut_1_3, cut_2_2, join_19_6_1_6_1_5, join_12_6_1_5, join_7_6_1, join_3_1_2, join_6_1_5, join_3_2_1, join_4_3_1, join_6_5_1, join_8_2_1_5]

theorem atomSwap (o : At) : Statement (.atomSwap o) := by
  intro _ h
  cases h
  simp (disch := omega) [decodeFields, decodeMaj1C, Fields.unless, rowOf, cut_2_3, cut_3_3, cut_1_4, cut_4_2, cut_3_1, cut_2_1, cut_2_4, cut_3_2, cut_5_1, cut_1_1, cut_1_5, cut_4_1, cut_1_3, cut_2_2, join_19_6_1_6_1_5, join_12_6_1_5, join_7_6_1, join_3_1_2, join_6_1_5, join_3_2_1, join_4_3_1, join_6_5_1, join_8_2_1_5]

theorem atomFadd (o : AtF) : Statement (.atomFadd o) := by
  intro _ h
  cases h
  simp (disch := omega) [decodeFields, decodeMaj1C, Fields.unless, rowOf, cut_2_3, cut_3_3, cut_1_4, cut_4_2, cut_3_1, cut_2_1, cut_2_4, cut_3_2, cut_5_1, cut_1_1, cut_1_5, cut_4_1, cut_1_3, cut_2_2, join_19_6_1_6_1_5, join_12_6_1_5, join_7_6_1, join_3_1_2, join_6_1_5, join_3_2_1, join_4_3_1, join_6_5_1, join_8_2_1_5]

theorem atomFmin (o : AtF) : Statement (.atomFmin o) := by
  intro _ h
  cases h
  simp (disch := omega) [decodeFields, decodeMaj1C, Fields.unless, rowOf, cut_2_3, cut_3_3, cut_1_4, cut_4_2, cut_3_1, cut_2_1, cut_2_4, cut_3_2, cut_5_1, cut_1_1, cut_1_5, cut_4_1, cut_1_3, cut_2_2, join_19_6_1_6_1_5, join_12_6_1_5, join_7_6_1, join_3_1_2, join_6_1_5, join_3_2_1, join_4_3_1, join_6_5_1, join_8_2_1_5]

theorem atomFmax (o : AtF) : Statement (.atomFmax o) := by
  intro _ h
  cases h
  simp (disch := omega) [decodeFields, decodeMaj1C, Fields.unless, rowOf, cut_2_3, cut_3_3, cut_1_4, cut_4_2, cut_3_1, cut_2_1, cut_2_4, cut_3_2, cut_5_1, cut_1_1, cut_1_5, cut_4_1, cut_1_3, cut_2_2, join_19_6_1_6_1_5, join_12_6_1_5, join_7_6_1, join_3_1_2, join_6_1_5, join_3_2_1, join_4_3_1, join_6_5_1, join_8_2_1_5]

theorem atomCas (o : Cas) : Statement (.atomCas o) := by
  intro _ h
  cases h
  simp (disch := omega) [decodeFields, Fields.unless, rowOf, cut_2_3, cut_3_3, cut_1_4, cut_4_2, cut_3_1, cut_2_1, cut_2_4, cut_3_2, cut_5_1, cut_1_1, cut_1_5, cut_4_1, cut_1_3, cut_2_2, join_19_6_1_6_1_5, join_12_6_1_5, join_7_6_1, join_3_1_2, join_6_1_5, join_3_2_1, join_4_3_1, join_6_5_1, join_8_2_1_5]

theorem monWait (o : Mon) : Statement (.monWait o) := by
  intro _ h
  cases h
  simp (disch := omega) [decodeFields, Fields.unless, rowOf, cut_2_3, cut_3_3, cut_1_4, cut_4_2, cut_3_1, cut_2_1, cut_2_4, cut_3_2, cut_5_1, cut_1_1, cut_1_5, cut_4_1, cut_1_3, cut_2_2, join_19_6_1_6_1_5, join_12_6_1_5, join_7_6_1, join_3_1_2, join_6_1_5, join_3_2_1, join_4_3_1, join_6_5_1, join_8_2_1_5]

theorem phWait (o : Ph) : Statement (.phWait o) := by
  intro _ h
  cases h
  simp (disch := omega) [decodeFields, decodeMaj1F, Fields.unless, rowOf, cut_2_3, cut_3_3, cut_1_4, cut_4_2, cut_3_1, cut_2_1, cut_2_4, cut_3_2, cut_5_1, cut_1_1, cut_1_5, cut_4_1, cut_1_3, cut_2_2, join_19_6_1_6_1_5, join_12_6_1_5, join_7_6_1, join_3_1_2, join_6_1_5, join_3_2_1, join_4_3_1, join_6_5_1, join_8_2_1_5]

theorem phSig (o : Ph) : Statement (.phSig o) := by
  intro _ h
  cases h
  simp (disch := omega) [decodeFields, decodeMaj1F, Fields.unless, rowOf, cut_2_3, cut_3_3, cut_1_4, cut_4_2, cut_3_1, cut_2_1, cut_2_4, cut_3_2, cut_5_1, cut_1_1, cut_1_5, cut_4_1, cut_1_3, cut_2_2, join_19_6_1_6_1_5, join_12_6_1_5, join_7_6_1, join_3_1_2, join_6_1_5, join_3_2_1, join_4_3_1, join_6_5_1, join_8_2_1_5]

theorem phReg (o : PhR) : Statement (.phReg o) := by
  intro _ h
  cases h
  simp (disch := omega) [decodeFields, decodeMaj1F, Fields.unless, rowOf, cut_2_3, cut_3_3, cut_1_4, cut_4_2, cut_3_1, cut_2_1, cut_2_4, cut_3_2, cut_5_1, cut_1_1, cut_1_5, cut_4_1, cut_1_3, cut_2_2, join_19_6_1_6_1_5, join_12_6_1_5, join_7_6_1, join_3_1_2, join_6_1_5, join_3_2_1, join_4_3_1, join_6_5_1, join_8_2_1_5]

theorem phDrop (o : Ph) : Statement (.phDrop o) := by
  intro _ h
  cases h
  simp (disch := omega) [decodeFields, decodeMaj1F, Fields.unless, rowOf, cut_2_3, cut_3_3, cut_1_4, cut_4_2, cut_3_1, cut_2_1, cut_2_4, cut_3_2, cut_5_1, cut_1_1, cut_1_5, cut_4_1, cut_1_3, cut_2_2, join_19_6_1_6_1_5, join_12_6_1_5, join_7_6_1, join_3_1_2, join_6_1_5, join_3_2_1, join_4_3_1, join_6_5_1, join_8_2_1_5]

theorem phExpect (o : PhE) : Statement (.phExpect o) := by
  intro _ h
  cases h
  rfl

theorem vecAdd (o : C3) : Statement (.vecAdd o) := by
  intro _ h
  cases h
  rfl

theorem vecSub (o : C3) : Statement (.vecSub o) := by
  intro _ h
  cases h
  rfl

theorem vecMul (o : C3) : Statement (.vecMul o) := by
  intro _ h
  cases h
  rfl

theorem vecFma (o : C3) : Statement (.vecFma o) := by
  intro _ h
  cases h
  rfl

theorem vecMin (o : C3) : Statement (.vecMin o) := by
  intro _ h
  cases h
  rfl

theorem vecMax (o : C3) : Statement (.vecMax o) := by
  intro _ h
  cases h
  rfl

theorem vecAbs (o : C2) : Statement (.vecAbs o) := by
  intro _ h
  cases h
  rfl

theorem vecNeg (o : C2) : Statement (.vecNeg o) := by
  intro _ h
  cases h
  rfl

theorem vecDiv (o : C3) : Statement (.vecDiv o) := by
  intro _ h
  cases h
  rfl

theorem vecSqrt (o : C2) : Statement (.vecSqrt o) := by
  intro _ h
  cases h
  rfl

theorem vecIadd (o : C3) : Statement (.vecIadd o) := by
  intro _ h
  cases h
  rfl

theorem vecIsub (o : C3) : Statement (.vecIsub o) := by
  intro _ h
  cases h
  rfl

theorem vecImul (o : C3) : Statement (.vecImul o) := by
  intro _ h
  cases h
  rfl

theorem vecAnd (o : C3) : Statement (.vecAnd o) := by
  intro _ h
  cases h
  rfl

theorem vecOr (o : C3) : Statement (.vecOr o) := by
  intro _ h
  cases h
  rfl

theorem vecXor (o : C3) : Statement (.vecXor o) := by
  intro _ h
  cases h
  rfl

theorem vecShl (o : C3) : Statement (.vecShl o) := by
  intro _ h
  cases h
  rfl

theorem vecShr (o : C3) : Statement (.vecShr o) := by
  intro _ h
  cases h
  rfl

theorem vecSar (o : C3) : Statement (.vecSar o) := by
  intro _ h
  cases h
  rfl

theorem vecImin (o : C3) : Statement (.vecImin o) := by
  intro _ h
  cases h
  rfl

theorem vecImax (o : C3) : Statement (.vecImax o) := by
  intro _ h
  cases h
  rfl

theorem vecEq (o : VC) : Statement (.vecEq o) := by
  intro _ h
  cases h
  simp (disch := omega) [decodeFields, decodeMaj22, Fields.unless, rowOf, cut_2_3, cut_3_3, cut_1_4, cut_4_2, cut_3_1, cut_2_1, cut_2_4, cut_3_2, cut_5_1, cut_1_1, cut_1_5, cut_4_1, cut_1_3, cut_2_2, join_19_6_1_6_1_5, join_12_6_1_5, join_7_6_1, join_3_1_2, join_6_1_5, join_3_2_1, join_4_3_1, join_6_5_1, join_8_2_1_5]

theorem vecNe (o : VC) : Statement (.vecNe o) := by
  intro _ h
  cases h
  simp (disch := omega) [decodeFields, decodeMaj22, Fields.unless, rowOf, cut_2_3, cut_3_3, cut_1_4, cut_4_2, cut_3_1, cut_2_1, cut_2_4, cut_3_2, cut_5_1, cut_1_1, cut_1_5, cut_4_1, cut_1_3, cut_2_2, join_19_6_1_6_1_5, join_12_6_1_5, join_7_6_1, join_3_1_2, join_6_1_5, join_3_2_1, join_4_3_1, join_6_5_1, join_8_2_1_5]

theorem vecLt (o : VC) : Statement (.vecLt o) := by
  intro _ h
  cases h
  simp (disch := omega) [decodeFields, decodeMaj22, Fields.unless, rowOf, cut_2_3, cut_3_3, cut_1_4, cut_4_2, cut_3_1, cut_2_1, cut_2_4, cut_3_2, cut_5_1, cut_1_1, cut_1_5, cut_4_1, cut_1_3, cut_2_2, join_19_6_1_6_1_5, join_12_6_1_5, join_7_6_1, join_3_1_2, join_6_1_5, join_3_2_1, join_4_3_1, join_6_5_1, join_8_2_1_5]

theorem vecLe (o : VC) : Statement (.vecLe o) := by
  intro _ h
  cases h
  simp (disch := omega) [decodeFields, decodeMaj22, Fields.unless, rowOf, cut_2_3, cut_3_3, cut_1_4, cut_4_2, cut_3_1, cut_2_1, cut_2_4, cut_3_2, cut_5_1, cut_1_1, cut_1_5, cut_4_1, cut_1_3, cut_2_2, join_19_6_1_6_1_5, join_12_6_1_5, join_7_6_1, join_3_1_2, join_6_1_5, join_3_2_1, join_4_3_1, join_6_5_1, join_8_2_1_5]

theorem vecIeq (o : VC) : Statement (.vecIeq o) := by
  intro _ h
  cases h
  simp (disch := omega) [decodeFields, decodeMaj22, Fields.unless, rowOf, cut_2_3, cut_3_3, cut_1_4, cut_4_2, cut_3_1, cut_2_1, cut_2_4, cut_3_2, cut_5_1, cut_1_1, cut_1_5, cut_4_1, cut_1_3, cut_2_2, join_19_6_1_6_1_5, join_12_6_1_5, join_7_6_1, join_3_1_2, join_6_1_5, join_3_2_1, join_4_3_1, join_6_5_1, join_8_2_1_5]

theorem vecIlt (o : VC) : Statement (.vecIlt o) := by
  intro _ h
  cases h
  simp (disch := omega) [decodeFields, decodeMaj22, Fields.unless, rowOf, cut_2_3, cut_3_3, cut_1_4, cut_4_2, cut_3_1, cut_2_1, cut_2_4, cut_3_2, cut_5_1, cut_1_1, cut_1_5, cut_4_1, cut_1_3, cut_2_2, join_19_6_1_6_1_5, join_12_6_1_5, join_7_6_1, join_3_1_2, join_6_1_5, join_3_2_1, join_4_3_1, join_6_5_1, join_8_2_1_5]

theorem vecSigm (o : C2) : Statement (.vecSigm o) := by
  intro _ h
  cases h
  rfl

theorem vecExp2 (o : C2) : Statement (.vecExp2 o) := by
  intro _ h
  cases h
  rfl

theorem vecRcp (o : C2) : Statement (.vecRcp o) := by
  intro _ h
  cases h
  rfl

theorem vecRsq (o : C2) : Statement (.vecRsq o) := by
  intro _ h
  cases h
  rfl

theorem vecLog2 (o : C2) : Statement (.vecLog2 o) := by
  intro _ h
  cases h
  rfl

theorem vecTanh (o : C2) : Statement (.vecTanh o) := by
  intro _ h
  cases h
  rfl

theorem vecRsum (o : Red) : Statement (.vecRsum o) := by
  intro _ h
  cases h
  simp (disch := omega) [decodeFields, decodeMaj24, Fields.unless, rowOf, cut_2_3, cut_3_3, cut_1_4, cut_4_2, cut_3_1, cut_2_1, cut_2_4, cut_3_2, cut_5_1, cut_1_1, cut_1_5, cut_4_1, cut_1_3, cut_2_2, join_19_6_1_6_1_5, join_12_6_1_5, join_7_6_1, join_3_1_2, join_6_1_5, join_3_2_1, join_4_3_1, join_6_5_1, join_8_2_1_5]

theorem vecRmax (o : Red) : Statement (.vecRmax o) := by
  intro _ h
  cases h
  simp (disch := omega) [decodeFields, decodeMaj24, Fields.unless, rowOf, cut_2_3, cut_3_3, cut_1_4, cut_4_2, cut_3_1, cut_2_1, cut_2_4, cut_3_2, cut_5_1, cut_1_1, cut_1_5, cut_4_1, cut_1_3, cut_2_2, join_19_6_1_6_1_5, join_12_6_1_5, join_7_6_1, join_3_1_2, join_6_1_5, join_3_2_1, join_4_3_1, join_6_5_1, join_8_2_1_5]

theorem vecRmin (o : Red) : Statement (.vecRmin o) := by
  intro _ h
  cases h
  simp (disch := omega) [decodeFields, decodeMaj24, Fields.unless, rowOf, cut_2_3, cut_3_3, cut_1_4, cut_4_2, cut_3_1, cut_2_1, cut_2_4, cut_3_2, cut_5_1, cut_1_1, cut_1_5, cut_4_1, cut_1_3, cut_2_2, join_19_6_1_6_1_5, join_12_6_1_5, join_7_6_1, join_3_1_2, join_6_1_5, join_3_2_1, join_4_3_1, join_6_5_1, join_8_2_1_5]

theorem vecDotg (o : Fm) : Statement (.vecDotg o) := by
  intro _ h
  cases h
  simp (disch := omega) [decodeFields, decodeMaj24, Fields.unless, rowOf, cut_2_3, cut_3_3, cut_1_4, cut_4_2, cut_3_1, cut_2_1, cut_2_4, cut_3_2, cut_5_1, cut_1_1, cut_1_5, cut_4_1, cut_1_3, cut_2_2, join_19_6_1_6_1_5, join_12_6_1_5, join_7_6_1, join_3_1_2, join_6_1_5, join_3_2_1, join_4_3_1, join_6_5_1, join_8_2_1_5]

theorem vecMov (o : C2) : Statement (.vecMov o) := by
  intro _ h
  cases h
  rfl

theorem vecBcast (o : C2) : Statement (.vecBcast o) := by
  intro _ h
  cases h
  rfl

theorem vecPerm (o : C3) : Statement (.vecPerm o) := by
  intro _ h
  cases h
  rfl

theorem vecSel (o : VSel) : Statement (.vecSel o) := by
  intro _ h
  cases h
  simp (disch := omega) [decodeFields, decodeMaj25, Fields.unless, rowOf, cut_2_3, cut_3_3, cut_1_4, cut_4_2, cut_3_1, cut_2_1, cut_2_4, cut_3_2, cut_5_1, cut_1_1, cut_1_5, cut_4_1, cut_1_3, cut_2_2, join_19_6_1_6_1_5, join_12_6_1_5, join_7_6_1, join_3_1_2, join_6_1_5, join_3_2_1, join_4_3_1, join_6_5_1, join_8_2_1_5]

theorem vecLane (o : Ln) : Statement (.vecLane o) := by
  intro _ h
  cases h
  simp (disch := omega) [decodeFields, decodeMaj25, Fields.unless, rowOf, cut_2_3, cut_3_3, cut_1_4, cut_4_2, cut_3_1, cut_2_1, cut_2_4, cut_3_2, cut_5_1, cut_1_1, cut_1_5, cut_4_1, cut_1_3, cut_2_2, join_19_6_1_6_1_5, join_12_6_1_5, join_7_6_1, join_3_1_2, join_6_1_5, join_3_2_1, join_4_3_1, join_6_5_1, join_8_2_1_5]

theorem vecIns (o : Ln) : Statement (.vecIns o) := by
  intro _ h
  cases h
  simp (disch := omega) [decodeFields, decodeMaj25, Fields.unless, rowOf, cut_2_3, cut_3_3, cut_1_4, cut_4_2, cut_3_1, cut_2_1, cut_2_4, cut_3_2, cut_5_1, cut_1_1, cut_1_5, cut_4_1, cut_1_3, cut_2_2, join_19_6_1_6_1_5, join_12_6_1_5, join_7_6_1, join_3_1_2, join_6_1_5, join_3_2_1, join_4_3_1, join_6_5_1, join_8_2_1_5]

theorem accRd (o : Acc) : Statement (.accRd o) := by
  intro _ h
  cases h
  simp (disch := omega) [decodeFields, decodeMaj26, Fields.unless, rowOf, cut_2_3, cut_3_3, cut_1_4, cut_4_2, cut_3_1, cut_2_1, cut_2_4, cut_3_2, cut_5_1, cut_1_1, cut_1_5, cut_4_1, cut_1_3, cut_2_2, join_19_6_1_6_1_5, join_12_6_1_5, join_7_6_1, join_3_1_2, join_6_1_5, join_3_2_1, join_4_3_1, join_6_5_1, join_8_2_1_5]

theorem accRdk (o : Acc) : Statement (.accRdk o) := by
  intro _ h
  cases h
  simp (disch := omega) [decodeFields, decodeMaj26, Fields.unless, rowOf, cut_2_3, cut_3_3, cut_1_4, cut_4_2, cut_3_1, cut_2_1, cut_2_4, cut_3_2, cut_5_1, cut_1_1, cut_1_5, cut_4_1, cut_1_3, cut_2_2, join_19_6_1_6_1_5, join_12_6_1_5, join_7_6_1, join_3_1_2, join_6_1_5, join_3_2_1, join_4_3_1, join_6_5_1, join_8_2_1_5]

theorem cvtNar (o : C3) : Statement (.cvtNar o) := by
  intro _ h
  cases h
  rfl

theorem cvtWid (o : C3) : Statement (.cvtWid o) := by
  intro _ h
  cases h
  rfl

theorem cvtF2i (o : C3) : Statement (.cvtF2i o) := by
  intro _ h
  cases h
  rfl

theorem cvtI2f (o : C3) : Statement (.cvtI2f o) := by
  intro _ h
  cases h
  rfl

theorem cvtE8 (o : C2) : Statement (.cvtE8 o) := by
  intro _ h
  cases h
  rfl

theorem cvtSf2i (o : S2B) : Statement (.cvtSf2i o) := by
  intro _ h
  cases h
  simp (disch := omega) [decodeFields, decodeMaj2D, Fields.unless, rowOf, cut_2_3, cut_3_3, cut_1_4, cut_4_2, cut_3_1, cut_2_1, cut_2_4, cut_3_2, cut_5_1, cut_1_1, cut_1_5, cut_4_1, cut_1_3, cut_2_2, join_19_6_1_6_1_5, join_12_6_1_5, join_7_6_1, join_3_1_2, join_6_1_5, join_3_2_1, join_4_3_1, join_6_5_1, join_8_2_1_5]

theorem cvtSi2f (o : S2B) : Statement (.cvtSi2f o) := by
  intro _ h
  cases h
  simp (disch := omega) [decodeFields, decodeMaj2D, Fields.unless, rowOf, cut_2_3, cut_3_3, cut_1_4, cut_4_2, cut_3_1, cut_2_1, cut_2_4, cut_3_2, cut_5_1, cut_1_1, cut_1_5, cut_4_1, cut_1_3, cut_2_2, join_19_6_1_6_1_5, join_12_6_1_5, join_7_6_1, join_3_1_2, join_6_1_5, join_3_2_1, join_4_3_1, join_6_5_1, join_8_2_1_5]

theorem cvtSf2b (o : S2B) : Statement (.cvtSf2b o) := by
  intro _ h
  cases h
  simp (disch := omega) [decodeFields, decodeMaj2D, Fields.unless, rowOf, cut_2_3, cut_3_3, cut_1_4, cut_4_2, cut_3_1, cut_2_1, cut_2_4, cut_3_2, cut_5_1, cut_1_1, cut_1_5, cut_4_1, cut_1_3, cut_2_2, join_19_6_1_6_1_5, join_12_6_1_5, join_7_6_1, join_3_1_2, join_6_1_5, join_3_2_1, join_4_3_1, join_6_5_1, join_8_2_1_5]

theorem matCall (o : MC) : Statement (.matCall o) := by
  intro _ h
  cases h
  simp (disch := omega) [decodeFields, Fields.unless, rowOf, cut_2_3, cut_3_3, cut_1_4, cut_4_2, cut_3_1, cut_2_1, cut_2_4, cut_3_2, cut_5_1, cut_1_1, cut_1_5, cut_4_1, cut_1_3, cut_2_2, join_19_6_1_6_1_5, join_12_6_1_5, join_7_6_1, join_3_1_2, join_6_1_5, join_3_2_1, join_4_3_1, join_6_5_1, join_8_2_1_5]

theorem matDrain (o : En) : Statement (.matDrain o) := by
  intro _ h
  cases h
  simp (disch := omega) [decodeFields, decodeMaj31, Fields.unless, rowOf, cut_2_3, cut_3_3, cut_1_4, cut_4_2, cut_3_1, cut_2_1, cut_2_4, cut_3_2, cut_5_1, cut_1_1, cut_1_5, cut_4_1, cut_1_3, cut_2_2, join_19_6_1_6_1_5, join_12_6_1_5, join_7_6_1, join_3_1_2, join_6_1_5, join_3_2_1, join_4_3_1, join_6_5_1, join_8_2_1_5]

theorem matSetp (o : PnS) : Statement (.matSetp o) := by
  intro _ h
  cases h
  simp (disch := omega) [decodeFields, decodeMaj31, Fields.unless, rowOf, cut_2_3, cut_3_3, cut_1_4, cut_4_2, cut_3_1, cut_2_1, cut_2_4, cut_3_2, cut_5_1, cut_1_1, cut_1_5, cut_4_1, cut_1_3, cut_2_2, join_19_6_1_6_1_5, join_12_6_1_5, join_7_6_1, join_3_1_2, join_6_1_5, join_3_2_1, join_4_3_1, join_6_5_1, join_8_2_1_5]

theorem matGetp (o : PnG) : Statement (.matGetp o) := by
  intro _ h
  cases h
  simp (disch := omega) [decodeFields, decodeMaj31, Fields.unless, rowOf, cut_2_3, cut_3_3, cut_1_4, cut_4_2, cut_3_1, cut_2_1, cut_2_4, cut_3_2, cut_5_1, cut_1_1, cut_1_5, cut_4_1, cut_1_3, cut_2_2, join_19_6_1_6_1_5, join_12_6_1_5, join_7_6_1, join_3_1_2, join_6_1_5, join_3_2_1, join_4_3_1, join_6_5_1, join_8_2_1_5]

theorem matCfg (o : EnA) : Statement (.matCfg o) := by
  intro _ h
  cases h
  simp (disch := omega) [decodeFields, decodeMaj31, Fields.unless, rowOf, cut_2_3, cut_3_3, cut_1_4, cut_4_2, cut_3_1, cut_2_1, cut_2_4, cut_3_2, cut_5_1, cut_1_1, cut_1_5, cut_4_1, cut_1_3, cut_2_2, join_19_6_1_6_1_5, join_12_6_1_5, join_7_6_1, join_3_1_2, join_6_1_5, join_3_2_1, join_4_3_1, join_6_5_1, join_8_2_1_5]

theorem matPert (o : EnA2) : Statement (.matPert o) := by
  intro _ h
  cases h
  simp (disch := omega) [decodeFields, decodeMaj31, Fields.unless, rowOf, cut_2_3, cut_3_3, cut_1_4, cut_4_2, cut_3_1, cut_2_1, cut_2_4, cut_3_2, cut_5_1, cut_1_1, cut_1_5, cut_4_1, cut_1_3, cut_2_2, join_19_6_1_6_1_5, join_12_6_1_5, join_7_6_1, join_3_1_2, join_6_1_5, join_3_2_1, join_4_3_1, join_6_5_1, join_8_2_1_5]

theorem cpStage (o : N) : Statement (.cpStage o) := by
  intro _ h
  cases h
  rfl

theorem cpBatch (o : A2) : Statement (.cpBatch o) := by
  intro _ h
  cases h
  rfl

theorem cpRread (o : A2) : Statement (.cpRread o) := by
  intro _ h
  cases h
  rfl

theorem ownGive (o : A1) : Statement (.ownGive o) := by
  intro _ h
  cases h
  rfl

theorem ownTake (o : A1) : Statement (.ownTake o) := by
  intro _ h
  cases h
  rfl

theorem nmCas (o : C3) : Statement (.nmCas o) := by
  intro _ h
  cases h
  rfl

theorem nmEnq (o : C3) : Statement (.nmEnq o) := by
  intro _ h
  cases h
  rfl

theorem nmDeq (o : C2) : Statement (.nmDeq o) := by
  intro _ h
  cases h
  rfl

theorem nmChase (o : C3) : Statement (.nmChase o) := by
  intro _ h
  cases h
  rfl

theorem collRun (o : C2) : Statement (.collRun o) := by
  intro _ h
  cases h
  rfl

theorem collAbort (o : A1) : Statement (.collAbort o) := by
  intro _ h
  cases h
  rfl

theorem collStat (o : C2) : Statement (.collStat o) := by
  intro _ h
  cases h
  rfl

theorem logAppend (o : C3) : Statement (.logAppend o) := by
  intro _ h
  cases h
  rfl

theorem logReplay (o : C2) : Statement (.logReplay o) := by
  intro _ h
  cases h
  rfl

theorem logResume (o : A1) : Statement (.logResume o) := by
  intro _ h
  cases h
  rfl

theorem wlPush (o : A2) : Statement (.wlPush o) := by
  intro _ h
  cases h
  rfl

theorem wlPop (o : D1) : Statement (.wlPop o) := by
  intro _ h
  cases h
  rfl

theorem wlDone (o : N) : Statement (.wlDone o) := by
  intro _ h
  cases h
  rfl

theorem sysFlushSplit (o : A1) : Statement (.sysFlushSplit o) := by
  intro _ h
  cases h
  rfl

theorem sysFlushL2 (o : A1) : Statement (.sysFlushL2 o) := by
  intro _ h
  cases h
  rfl

theorem sysFlushL2Clean (o : A1) : Statement (.sysFlushL2Clean o) := by
  intro _ h
  cases h
  rfl

theorem sysFlushL1 (o : A1) : Statement (.sysFlushL1 o) := by
  intro _ h
  cases h
  rfl

theorem sysShinv (o : N) : Statement (.sysShinv o) := by
  intro _ h
  cases h
  rfl

theorem sysTinv (o : A2) : Statement (.sysTinv o) := by
  intro _ h
  cases h
  rfl

theorem lvlCancel (o : C2) : Statement (.lvlCancel o) := by
  intro _ h
  cases h
  rfl

theorem lvlStat (o : C2) : Statement (.lvlStat o) := by
  intro _ h
  cases h
  rfl

theorem trapRaise (o : A1) : Statement (.trapRaise o) := by
  intro _ h
  cases h
  rfl

theorem trapRet (o : N) : Statement (.trapRet o) := by
  intro _ h
  cases h
  rfl

theorem sysCsrr (o : CsR) : Statement (.sysCsrr o) := by
  intro _ h
  cases h
  simp (disch := omega) [decodeFields, Fields.unless, rowOf, cut_2_3, cut_3_3, cut_1_4, cut_4_2, cut_3_1, cut_2_1, cut_2_4, cut_3_2, cut_5_1, cut_1_1, cut_1_5, cut_4_1, cut_1_3, cut_2_2, join_19_6_1_6_1_5, join_12_6_1_5, join_7_6_1, join_3_1_2, join_6_1_5, join_3_2_1, join_4_3_1, join_6_5_1, join_8_2_1_5]

theorem sysCsrw (o : CsW) : Statement (.sysCsrw o) := by
  intro _ h
  cases h
  simp (disch := omega) [decodeFields, Fields.unless, rowOf, cut_2_3, cut_3_3, cut_1_4, cut_4_2, cut_3_1, cut_2_1, cut_2_4, cut_3_2, cut_5_1, cut_1_1, cut_1_5, cut_4_1, cut_1_3, cut_2_2, join_19_6_1_6_1_5, join_12_6_1_5, join_7_6_1, join_3_1_2, join_6_1_5, join_3_2_1, join_4_3_1, join_6_5_1, join_8_2_1_5]

theorem muDecl (e : Nat) (m : Micro) : Statement (.muDecl e m) := by
  intro _ h
  cases h

theorem muEnd (e : Nat) (m : Micro) : Statement (.muEnd e m) := by
  intro _ h
  cases h

theorem muLdb (e : Nat) (m : Micro) : Statement (.muLdb e m) := by
  intro _ h
  cases h

theorem muLda (e : Nat) (m : Micro) : Statement (.muLda e m) := by
  intro _ h
  cases h

theorem muMac (e : Nat) (m : Micro) : Statement (.muMac e m) := by
  intro _ h
  cases h

theorem muZacc (e : Nat) (m : Micro) : Statement (.muZacc e m) := by
  intro _ h
  cases h

theorem muLdacc (e : Nat) (m : Micro) : Statement (.muLdacc e m) := by
  intro _ h
  cases h

theorem muStacc (e : Nat) (m : Micro) : Statement (.muStacc e m) := by
  intro _ h
  cases h

theorem muAccadd (e : Nat) (m : Micro) : Statement (.muAccadd e m) := by
  intro _ h
  cases h

theorem muPadd (e : Nat) (m : Micro) : Statement (.muPadd e m) := by
  intro _ h
  cases h

theorem muLbadd (e : Nat) (m : Micro) : Statement (.muLbadd e m) := by
  intro _ h
  cases h

theorem muCset (e : Nat) (m : Micro) : Statement (.muCset e m) := by
  intro _ h
  cases h

theorem muCloop (e : Nat) (m : Micro) : Statement (.muCloop e m) := by
  intro _ h
  cases h

theorem muSig (e : Nat) (m : Micro) : Statement (.muSig e m) := by
  intro _ h
  cases h

theorem collSend (run : Nat) (w : StepWord) : Statement (.collSend run w) := by
  intro _ h
  cases h

theorem collRecv (run : Nat) (w : StepWord) : Statement (.collRecv run w) := by
  intro _ h
  cases h

theorem collRrs (run : Nat) (w : StepWord) : Statement (.collRrs run w) := by
  intro _ h
  cases h

theorem collCopy (run : Nat) (w : StepWord) : Statement (.collCopy run w) := by
  intro _ h
  cases h

theorem collWait (run : Nat) (w : StepWord) : Statement (.collWait run w) := by
  intro _ h
  cases h

theorem collLoop (run : Nat) (w : StepWord) : Statement (.collLoop run w) := by
  intro _ h
  cases h

theorem collEnd (run : Nat) : Statement (.collEnd run) := by
  intro _ h
  cases h

theorem unassignedEncoding (cause : Illegal) (w : W32) : Statement (.unassignedEncoding cause w) := by
  intro _ h
  cases h

theorem contextWake (k : Nat) : Statement (.contextWake k) := by
  intro _ h
  cases h

theorem resultArrive (k id : Nat) : Statement (.resultArrive k id) := by
  intro _ h
  cases h

theorem accessPerform (k id : Nat) : Statement (.accessPerform k id) := by
  intro _ h
  cases h

theorem walkComplete (i : Nat) : Statement (.walkComplete i) := by
  intro _ h
  cases h

theorem peerAccessArrive (r : PeerReq) : Statement (.peerAccessArrive r) := by
  intro _ h
  cases h

theorem hostMemWrite (a : HostAddr) (data : List Byte) : Statement (.hostMemWrite a data) := by
  intro _ h
  cases h

theorem collAbortFlit (group seq : Nat) : Statement (.collAbortFlit group seq) := by
  intro _ h
  cases h

theorem logEntryArrive (entry : BitVec 256) : Statement (.logEntryArrive entry) := by
  intro _ h
  cases h

theorem logReleasedArrive (entry : BitVec 256) : Statement (.logReleasedArrive entry) := by
  intro _ h
  cases h

theorem wlShipmentArrive (job bucket : Nat) (task : W64) (src : Nat) : Statement (.wlShipmentArrive job bucket task src) := by
  intro _ h
  cases h

theorem ptpSync (time : Nat) : Statement (.ptpSync time) := by
  intro _ h
  cases h

theorem powerUp (r : SelfTest) : Statement (.powerUp r) := by
  intro _ h
  cases h

theorem wlShipmentAck (job : Nat) : Statement (.wlShipmentAck job) := by
  intro _ h
  cases h

theorem registerWrite (die off n : Nat) (v : W64) : Statement (.registerWrite die off n v) := by
  intro _ h
  cases h

theorem monTimeout (k : Nat) : Statement (.monTimeout k) := by
  intro _ h
  cases h

theorem splitConversion (core new : Nat) : Statement (.splitConversion core new) := by
  intro _ h
  cases h

theorem matCallStart (e : Nat) : Statement (.matCallStart e) := by
  intro _ h
  cases h

theorem lqSubmit (die q : Nat) (ptr : W64) : Statement (.lqSubmit die q ptr) := by
  intro _ h
  cases h

theorem unitPlace (k : Nat) : Statement (.unitPlace k) := by
  intro _ h
  cases h

theorem unitStart (k : Nat) : Statement (.unitStart k) := by
  intro _ h
  cases h

theorem overlayLoad (k : Nat) : Statement (.overlayLoad k) := by
  intro _ h
  cases h

theorem unitRetireComplete (k : Nat) : Statement (.unitRetireComplete k) := by
  intro _ h
  cases h

theorem unitStopFree (k : Nat) : Statement (.unitStopFree k) := by
  intro _ h
  cases h

theorem levelEntryFree (i : Nat) : Statement (.levelEntryFree i) := by
  intro _ h
  cases h

theorem jobEnd (slot : Nat) : Statement (.jobEnd slot) := by
  intro _ h
  cases h

theorem mailboxHandlerStart (die n : Nat) : Statement (.mailboxHandlerStart die n) := by
  intro _ h
  cases h

theorem mailboxOvfClear (die n : Nat) : Statement (.mailboxOvfClear die n) := by
  intro _ h
  cases h

theorem liveViewEntryFree (core i : Nat) : Statement (.liveViewEntryFree core i) := by
  intro _ h
  cases h

theorem targetErrorResponse (k id : Nat) : Statement (.targetErrorResponse k id) := by
  intro _ h
  cases h

theorem hostMemRead (a : HostAddr) (n : Nat) : Statement (.hostMemRead a n) := by
  intro _ h
  cases h

theorem copyBacklogDrain (octant : Nat) : Statement (.copyBacklogDrain octant) := by
  intro _ h
  cases h

theorem copyEntryStart (id : Nat) : Statement (.copyEntryStart id) := by
  intro _ h
  cases h

theorem copyChunk (id : Nat) (ev : ChunkEvent) : Statement (.copyChunk id ev) := by
  intro _ h
  cases h

theorem copyEntryComplete (id : Nat) : Statement (.copyEntryComplete id) := by
  intro _ h
  cases h

theorem copyRecordWrite (id : Nat) : Statement (.copyRecordWrite id) := by
  intro _ h
  cases h

theorem batchAtomicComplete (id : Nat) : Statement (.batchAtomicComplete id) := by
  intro _ h
  cases h

theorem rreadComplete (id : Nat) : Statement (.rreadComplete id) := by
  intro _ h
  cases h

theorem mepreSave (e : Nat) : Statement (.mepreSave e) := by
  intro _ h
  cases h

theorem mepreRestore (e : Nat) : Statement (.mepreRestore e) := by
  intro _ h
  cases h

theorem contextSave (k : Nat) : Statement (.contextSave k) := by
  intro _ h
  cases h

theorem contextSaveComplete (k : Nat) : Statement (.contextSaveComplete k) := by
  intro _ h
  cases h

theorem contextRestore (k : Nat) : Statement (.contextRestore k) := by
  intro _ h
  cases h

theorem collGroupDefine (g : Nat) (v : W64) : Statement (.collGroupDefine g v) := by
  intro _ h
  cases h

theorem collCheckTick : Statement (.collCheckTick) := by
  intro _ h
  cases h

theorem collOrder (group seq : Nat) : Statement (.collOrder group seq) := by
  intro _ h
  cases h

theorem staggerRelease (i : Nat) : Statement (.staggerRelease i) := by
  intro _ h
  cases h

theorem logEnable (v : W64) : Statement (.logEnable v) := by
  intro _ h
  cases h

theorem logDisable : Statement (.logDisable) := by
  intro _ h
  cases h

theorem logTickSend : Statement (.logTickSend) := by
  intro _ h
  cases h

theorem logVoidTimeout : Statement (.logVoidTimeout) := by
  intro _ h
  cases h

theorem mordantRound : Statement (.mordantRound) := by
  intro _ h
  cases h

theorem logGap : Statement (.logGap) := by
  intro _ h
  cases h

theorem wlSample : Statement (.wlSample) := by
  intro _ h
  cases h

theorem wlTreeTick (job : Nat) : Statement (.wlTreeTick job) := by
  intro _ h
  cases h

theorem wlBalanceTick (job : Nat) : Statement (.wlBalanceTick job) := by
  intro _ h
  cases h

theorem pipeRebalance (launch : Nat) : Statement (.pipeRebalance launch) := by
  intro _ h
  cases h

theorem slewGovernor (iest : Nat) (rise : Bool) : Statement (.slewGovernor iest rise) := by
  intro _ h
  cases h

theorem thermalLimit (die temp : Nat) : Statement (.thermalLimit die temp) := by
  intro _ h
  cases h

theorem thermalTrip (die temp : Nat) : Statement (.thermalTrip die temp) := by
  intro _ h
  cases h

theorem thermalRecover (die temp : Nat) : Statement (.thermalRecover die temp) := by
  intro _ h
  cases h

theorem tickRelease : Statement (.tickRelease) := by
  intro _ h
  cases h

theorem tickDetWrite (v : W32) : Statement (.tickDetWrite v) := by
  intro _ h
  cases h

theorem flitReceive (port : Nat) (f : Flit) : Statement (.flitReceive port f) := by
  intro _ h
  cases h

theorem replayRequest (port fseq : Nat) : Statement (.replayRequest port fseq) := by
  intro _ h
  cases h

theorem portReattest (port : Nat) : Statement (.portReattest port) := by
  intro _ h
  cases h

theorem memoryError (pa : Nat) (launch : Option Nat) : Statement (.memoryError pa launch) := by
  intro _ h
  cases h

theorem faultRecordWrite : Statement (.faultRecordWrite) := by
  intro _ h
  cases h

theorem fresumeResume (seq : Nat) : Statement (.fresumeResume seq) := by
  intro _ h
  cases h

theorem fresumeSkip (seq : Nat) : Statement (.fresumeSkip seq) := by
  intro _ h
  cases h

theorem fresumeCancel (seq : Nat) : Statement (.fresumeCancel seq) := by
  intro _ h
  cases h

theorem fresumeRedirect (seq : Nat) : Statement (.fresumeRedirect seq) := by
  intro _ h
  cases h

theorem emulationComplete (k : Nat) : Statement (.emulationComplete k) := by
  intro _ h
  cases h

theorem mprogWrite (die off : Nat) (v : W64) : Statement (.mprogWrite die off v) := by
  intro _ h
  cases h

theorem tableWrite (die off n : Nat) (v : W64) : Statement (.tableWrite die off n v) := by
  intro _ h
  cases h

theorem spuriousWake (k : Nat) : Statement (.spuriousWake k) := by
  intro _ h
  cases h

theorem portAttestation (port : Nat) : Statement (.portAttestation port) := by
  intro _ h
  cases h

theorem copyPreEmption (id : Nat) : Statement (.copyPreEmption id) := by
  intro _ h
  cases h

theorem internalParityError (launch : Nat) : Statement (.internalParityError launch) := by
  intro _ h
  cases h

end Sys2Proof.Laws.Encoding
end

