-- ==== Sys2Proof/Machine/Adko.lean ====
section
/-! DEFINITION. ADKO files: reading one with every check of R203 to R211, applying relocations (R212), linking (R213,
R214), writing an image, and the steps by which system software loads it (R215, R305). -/
namespace Sys2Proof.Machine

/-- What makes a file invalid (R203 to R211). -/
inductive FileError where
  /-- a header field breaks R203 -/
  | header
  /-- CRC does not match (R204) -/
  | crc
  /-- a table or the contents of a section extend past the end of the file (R204) -/
  | table
  /-- a NAME field does not point at the start of a name (R204) -/
  | name
  /-- a section entry breaks R205, R206 or R207 -/
  | sect
  /-- a symbol entry breaks R209 -/
  | symbol
  /-- a relocation entry breaks R211 -/
  | reloc
deriving DecidableEq, Repr

/-- The kinds of section (R206). -/
inductive SectKind where
  | code | sparsity | mprog | tdesc | shard | launch | copysched | pipe | data | spad | views | note
deriving DecidableEq, Repr

/-- The section kind of a code (R206). -/
def SectKind.ofCode : Nat → Option SectKind
  | 1 => some .code
  | 2 => some .sparsity
  | 3 => some .mprog
  | 4 => some .tdesc
  | 5 => some .shard
  | 6 => some .launch
  | 7 => some .copysched
  | 8 => some .pipe
  | 9 => some .data
  | 10 => some .spad
  | 11 => some .views
  | 12 => some .note
  | _ => none

/-- The code of a section kind (R206). -/
def SectKind.toCode : SectKind → Nat
  | .code => 1
  | .sparsity => 2
  | .mprog => 3
  | .tdesc => 4
  | .shard => 5
  | .launch => 6
  | .copysched => 7
  | .pipe => 8
  | .data => 9
  | .spad => 10
  | .views => 11
  | .note => 12

/-- A name as bytes (R204). -/
def ascii (l : List Char) : List Byte := l.map fun c => BitVec.ofNat 8 c.toNat

/-- The name of a section (R206). -/
def SectKind.spelled : SectKind → List Byte
  | .code => ascii ['.', 'c', 'o', 'd', 'e']
  | .sparsity => ascii ['.', 'm', 'e', 't', 'a']
  | .mprog => ascii ['.', 'm', 'p', 'r', 'o', 'g']
  | .tdesc => ascii ['.', 't', 'd', 'e', 's', 'c']
  | .shard => ascii ['.', 's', 'h', 'a', 'r', 'd']
  | .launch => ascii ['.', 'l', 'a', 'u', 'n', 'c', 'h']
  | .copysched => ascii ['.', 'c', 'o', 'p', 'y', 's', 'c', 'h', 'e', 'd']
  | .pipe => ascii ['.', 'p', 'i', 'p', 'e']
  | .data => ascii ['.', 'd', 'a', 't', 'a']
  | .spad => ascii ['.', 's', 'p', 'a', 'd']
  | .views => ascii ['.', 'v', 'i', 'e', 'w', 's']
  | .note => ascii ['.', 'n', 'o', 't', 'e']

/-- Bytes of one item (R206). -/
def SectKind.item : SectKind → Nat
  | .code => 4
  | .sparsity => 32
  | .mprog => 8
  | .tdesc => 128
  | .shard => 40
  | .launch => 256
  | .copysched => 64
  | .pipe => 384
  | .views => 64
  | .data | .spad | .note => 1

/-- Least ALIGN (R206). -/
def SectKind.leastAlign : SectKind → Nat
  | .code | .launch => 8
  | .sparsity => 5
  | .mprog | .tdesc | .shard => 3
  | .copysched | .views => 6
  | .pipe | .spad => 7
  | .data | .note => 0

/-- What a relocation computes (R211, R212). -/
inductive RelKind where
  | abs | unitOff | size
deriving DecidableEq, Repr

/-- A relocation entry (R211). -/
structure Reloc where
  (offset sym : Nat) (kind : RelKind) (pos width : Nat) (signed cont : Bool) (slot : Nat) (trunc : Bool) (shr : Nat)
  (addend : W64)
deriving DecidableEq, Repr

/-- A section: `size` is SIZE, which counts reserved bytes for `.spad` (R205). -/
structure Sect where
  (kind : SectKind) (align vault size : Nat) (data : List Byte) (rels : List Reloc) (addr : W64)
deriving DecidableEq, Repr

/-- A symbol with its fields as the table holds them (R209). -/
structure Sym where
  (name : List Byte) (sect kind bind : Nat) (value size : W64)
deriving DecidableEq, Repr

/-- An object or an image (R203): KIND, the sections and the symbols. -/
structure Adko where
  (image : Bool) (sects : List Sect) (syms : List Sym)
deriving DecidableEq, Repr

/-- `n` bytes of a file at an offset, as a little-endian number (R7). -/
def fileNat (f : List Byte) (off n : Nat) : Nat := ofBytes ((f.drop off).take n)

/-- The 64-bit word of a file at an offset. -/
def fileWord (f : List Byte) (off : Nat) : W64 := BitVec.ofNat 64 (fileNat f off 8)

/-- The CRC of a file, computed with bytes 56 to 59 taken as 0 (R203). -/
def fileCrc (f : List Byte) : W32 := crc32c (ofBytes (f.take 56 ++ [0, 0, 0, 0] ++ f.drop 60)) f.length

/-- The conditions of R203 on the header but for CRC. -/
def headerOk (f : List Byte) : Bool :=
  let w (i : Nat) := fileWord f (8 * i)
  64 ≤ f.length && fld (w 0) 0 32 == 0x4F4B4441 && fld (w 0) 32 16 == 1 && (fld (w 0) 48 8 == 1 || fld (w 0) 48 8 == 2)
    && fld (w 0) 56 8 == 0 && 1 ≤ fld (w 1) 0 32 && fld (w 1) 0 32 ≤ 254 && (w 2).toNat % 8 == 0 && (w 3).toNat % 8 == 0
    && fld (w 5) 32 32 == 0 && w 6 == 0 && fld (w 7) 32 32 == 0

/-- A character of a name other than a digit (R204). -/
def nameStart (c : Byte) : Bool :=
  (0x41 ≤ c && c ≤ 0x5A) || (0x61 ≤ c && c ≤ 0x7A) || c == 0x5F || c == 0x2E

/-- A character of a name (R204). -/
def nameChar (c : Byte) : Bool := nameStart c || (0x30 ≤ c && c ≤ 0x39)

/-- A name: 1 to 255 characters, the first no digit (R204). -/
def nameOk (l : List Byte) : Bool := l.length ≤ 255 && l.all nameChar && (l.head?.map nameStart).getD false

/-- The name at an offset of the string table, where a name starts there (R204). -/
def nameAt (strs : List Byte) (o : Nat) : Option (List Byte) :=
  let l := (strs.drop o).takeWhile (· != 0)
  if nameOk l && o + l.length < strs.length && (o == 0 || strs.getD (o - 1) 1 == 0) then some l else none

/-- A relocation entry at an offset of the file (R211), of a section with the given contents. -/
def readReloc (f : List Byte) (nsym size off : Nat) : Except FileError Reloc :=
  let w := fileWord f (off + 8)
  let kind := match fld w 32 4 with
    | 0 => some RelKind.abs
    | 1 => some .unitOff
    | 2 => some .size
    | _ => none
  match kind with
  | none => .error .reloc
  | some k =>
    let cont := fld w 50 1 == 1
    let r : Reloc := ⟨(fileWord f off).toNat, fld w 0 32, k, fld w 36 6, fld w 42 7, fld w 49 1 == 1, cont, fld w 51 3,
      fld w 54 1 == 1, fld w 58 6, fileWord f (off + 16)⟩
    let at' := r.offset + 4 * r.slot
    if fld w 55 3 == 0 && r.offset % 4 == 0 && r.sym < nsym && 1 ≤ r.width && r.width ≤ 64
        && r.pos + r.width ≤ (if cont then 64 else 32)
        && (if cont then r.slot == 0 && r.offset % 8 == 0 && r.offset + 8 ≤ size else at' + 4 ≤ size)
    then .ok r else .error .reloc

/-- The results of several reads, or the first error. -/
def readAll {α : Type} (read : Nat → Except FileError α) : List Nat → Except FileError (List α)
  | [] => .ok []
  | o :: os =>
    match read o with
    | .error e => .error e
    | .ok a =>
      match readAll read os with
      | .error e => .error e
      | .ok l => .ok (a :: l)

/-- A section entry at an offset of the file, with its contents and relocations (R205 to R207, R211). -/
def readSect (f strs : List Byte) (nsym : Nat) (image : Bool) (off : Nat) : Except FileError Sect :=
  let w (i : Nat) := fileWord f (off + 8 * i)
  let size := (w 2).toNat
  let nrel := fld (w 3) 0 32
  match SectKind.ofCode (fld (w 0) 0 8) with
  | none => .error .sect
  | some k =>
    match nameAt strs (fld (w 0) 32 32) with
    | none => .error .name
    | some n =>
      if !(n == k.spelled && k.leastAlign ≤ fld (w 0) 8 8 && fld (w 0) 8 8 ≤ 16 && (k == .spad || fld (w 0) 16 2 == 0)
          && fld (w 0) 18 14 == 0 && (w 1).toNat % 8 == 0 && (k != .spad || (w 1 == 0 && nrel == 0))
          && size % k.item == 0 && fld (w 3) 32 32 == 0 && (!image || nrel == 0) && (w 4).toNat % 8 == 0
          && (image || w 5 == 0)) then .error .sect
      else if !((k == .spad || (w 1).toNat + size ≤ f.length) && (nrel == 0 || (w 4).toNat + 24 * nrel ≤ f.length)) then .error .table
      else
        match readAll (readReloc f nsym size) ((List.range nrel).map fun i => (w 4).toNat + 24 * i) with
        | .error e => .error e
        | .ok rels => .ok ⟨k, fld (w 0) 8 8, fld (w 0) 16 2, size, if k == .spad then [] else (f.drop (w 1).toNat).take size, rels, w 5⟩

/-- A symbol entry at an offset of the file (R209); SECT 0xFE is section index 253 where the file has that many. DESIGN CHOICE,
log 101. -/
def readSym (f strs : List Byte) (nsect : Nat) (off : Nat) : Except FileError Sym :=
  let w := fileWord f off
  match nameAt strs (fld w 0 32) with
  | none => .error .name
  | some n =>
    let sect := fld w 32 8
    let kind := fld w 40 4
    if fld w 46 18 == 0 && kind ≤ 9 && fld w 44 2 ≤ 2 && (sect == 0xFF || sect ≤ nsect) && (fld w 44 2 == 2) == (sect == 0)
        && (sect == 0 || !(kind == 3 || kind == 8 || kind == 9) || sect == 0xFF)
    then .ok ⟨n, sect, kind, fld w 44 2, fileWord f (off + 8), fileWord f (off + 16)⟩ else .error .symbol

/-- Read a file (R203 to R211). -/
def readFile (f : List Byte) : Except FileError Adko :=
  let w (i : Nat) := fileWord f (8 * i)
  let nsect := fld (w 1) 0 32
  let nsym := fld (w 1) 32 32
  let strs := (f.drop (w 4).toNat).take (fld (w 5) 0 32)
  if !headerOk f then .error .header
  else if fileCrc f != (w 7).extractLsb' 0 32 then .error .crc
  else if !((w 2).toNat + 48 * nsect ≤ f.length && (w 3).toNat + 24 * nsym ≤ f.length
      && (w 4).toNat + fld (w 5) 0 32 ≤ f.length) then .error .table
  else
    match readAll (readSect f strs nsym (fld (w 0) 48 8 == 2)) ((List.range nsect).map fun i => (w 2).toNat + 48 * i) with
    | .error e => .error e
    | .ok sects =>
      match readAll (readSym f strs nsect) ((List.range nsym).map fun i => (w 3).toNat + 24 * i) with
      | .error e => .error e
      | .ok syms => .ok ⟨fld (w 0) 48 8 == 2, sects, syms⟩

/-! Relocations and linking. -/

/-- The next multiple of `2 ^ a`. -/
def alignUp (n a : Nat) : Nat := (n + 2 ^ a - 1) / 2 ^ a * 2 ^ a

/-- What stops a link (R212, R214). -/
inductive LinkError where
  /-- an input is no object -/
  | notObject
  /-- UNITOFF: the symbol of a relocation lies in no unit (R212) -/
  | unitOff
  /-- RANGE: a value does not fit its field (R212) -/
  | range
  /-- OVERLAP: the fields of two relocations share a bit (R212) -/
  | overlap
  /-- the cases of R214; `routine`: an `.mprog` block breaks R207 -/
  | twoGlobals | noGlobal | twoTensors | twoShards | twoRoutines | storeFull | twoOverlays | spadFull | stageOutside | routine
deriving DecidableEq, Repr

/-- One section of the output: its kind and vault, ALIGN, SIZE, where it stands, and for each input section the object, the
index in it and the offset (R213). -/
structure Joined where
  (kind : SectKind) (vault align size : Nat) (addr : W64) (parts : List (Nat × Nat × Nat))
deriving DecidableEq, Repr

/-- The input sections of one kind and vault in input order: object, index, section (R213). -/
def inputsOf (objs : List Adko) (k : SectKind) (v : Nat) : List (Nat × Nat × Sect) :=
  objs.zipIdx.flatMap fun (o, i) => o.sects.zipIdx.filterMap fun (t, j) =>
    if t.kind == k && t.vault == v then some (i, j, t) else none

/-- Concatenate input sections, each at its own alignment (R213): SIZE and the places. -/
def concatParts : Nat → List (Nat × Nat × Sect) → Nat × List (Nat × Nat × Nat)
  | off, [] => (off, [])
  | off, (i, j, t) :: r =>
    let o := alignUp off t.align
    let (n, l) := concatParts (o + t.size) r
    (n, (i, j, o) :: l)

/-- The output section of one kind and vault, at no address yet; none where no input has one (R213). -/
def joinKind (objs : List Adko) (k : SectKind) (v : Nat) : Option Joined :=
  match inputsOf objs k v with
  | [] => none
  | l =>
    let (n, parts) := concatParts 0 l
    some ⟨k, v, l.foldl (fun a x => max a x.2.2.align) 0, n, 0, parts⟩

/-- Place the VA sections from a base onward (R213). -/
def placeVa : Nat → List Joined → List Joined
  | _, [] => []
  | b, g :: r =>
    let a := alignUp b g.align
    { g with addr := BitVec.ofNat 64 a } :: placeVa (a + g.size) r

/-- The output sections in their places (R210, R213). -/
def layout (objs : List Adko) (base : W64) : List Joined :=
  placeVa base.toNat
      ([SectKind.code, .launch, .copysched, .pipe, .sparsity, .views, .data].filterMap fun k => joinKind objs k 0)
    ++ ([SectKind.mprog, .tdesc, .shard, .note].filterMap fun k => joinKind objs k 0)
    ++ (List.range 4).filterMap fun v => (joinKind objs .spad v).map fun g =>
        { g with addr := BitVec.ofNat 64 (2 ^ 60 + v * 2 ^ 22) }

/-- Where section `j` of object `i` goes: the output section's index and the offset in it. -/
def partOf (gs : List Joined) (i j : Nat) : Option (Nat × Nat) :=
  gs.zipIdx.findSome? fun (g, n) => (g.parts.find? fun p => p.1 == i && p.2.1 == j).map fun p => (n, p.2.2)

/-- The pointer of section `j` of object `i` (R210). -/
def partAddr (gs : List Joined) (i j : Nat) : W64 :=
  match partOf gs i j with
  | none => 0
  | some (n, o) => (gs[n]?.map Joined.addr).getD 0 + BitVec.ofNat 64 o

/-- The symbol that a symbol of object `i` stands for, with its object: itself, or for an external the global of that name in
another input (R210). -/
def resolveSym (objs : List Adko) (i : Nat) (y : Sym) : Option (Nat × Sym) :=
  if y.sect != 0 then some (i, y)
  else objs.zipIdx.findSome? fun (o, k) =>
    if k == i then none else (o.syms.find? fun z => z.bind == 1 && z.name == y.name).map fun z => (k, z)

/-- The value S of a symbol of object `i` that is defined there (R210). -/
def symValue (gs : List Joined) (i : Nat) (y : Sym) : W64 :=
  if y.sect == 0xFF then y.value else partAddr gs i (y.sect - 1) + y.value

/-- The unit of an object that holds a symbol (R212). -/
def unitOf (o : Adko) (y : Sym) : Option Sym :=
  o.syms.find? fun u => u.kind == 1 && u.sect != 0 && u.sect == y.sect && u.value ≤ y.value
    && y.value.toNat < u.value.toNat + u.size.toNat

/-- Whether a shifted value fits its field (R212). -/
def fits (v : W64) (width : Nat) (signed : Bool) : Bool :=
  if signed then -(2 ^ (width - 1) : Int) ≤ v.toInt && v.toInt < 2 ^ (width - 1) else v.toNat < 2 ^ width

/-- The value of a relocation of object `i` before it is inserted (R212). -/
def relValue (objs : List Adko) (gs : List Joined) (i : Nat) (r : Reloc) : Except LinkError W64 :=
  match (objs[i]?.bind fun o => o.syms[r.sym]?).bind (resolveSym objs i) with
  | none => .error .noGlobal
  | some (k, y) =>
    let v := match r.kind with
      | .abs => Except.ok (symValue gs k y + r.addend)
      | .unitOff =>
        match objs[k]?.bind fun o => unitOf o y with
        | none => .error LinkError.unitOff
        | some u => .ok (symValue gs k y - symValue gs k u + r.addend)
      | .size => .ok (y.size + r.addend)
    match v with
    | .error e => .error e
    | .ok v =>
      let v := if r.signed then v.sshiftRight r.shr else v >>> r.shr
      if r.trunc || fits v r.width r.signed then .ok v else .error .range

/-- Bytes of a relocation's container, and where it stands (R211). -/
def Reloc.bytes (r : Reloc) : Nat := if r.cont then 8 else 4
def Reloc.place (r : Reloc) : Nat := if r.cont then r.offset else r.offset + 4 * r.slot

/-- Insert a value in its field (R212). -/
def insertRel (r : Reloc) (v : W64) (d : List Byte) : List Byte :=
  let c := setFld (fileNat d r.place r.bytes) r.pos r.width v.toNat
  d.take r.place ++ toBytes c.toNat r.bytes ++ d.drop (r.place + r.bytes)

/-- Apply relocations in entry order (R212). -/
def applyRels (objs : List Adko) (gs : List Joined) (i : Nat) : List Reloc → List Byte → Except LinkError (List Byte)
  | [], d => .ok d
  | r :: rs, d =>
    match relValue objs gs i r with
    | .error e => .error e
    | .ok v => applyRels objs gs i rs (insertRel r v d)

/-- The bits of a section that a relocation's field covers: first and count (R211). -/
def Reloc.span (r : Reloc) : Nat × Nat := (8 * r.place + r.pos, r.width)

/-- Whether the fields of two relocations share a bit (R212). -/
def overlaps : List Reloc → Bool
  | [] => false
  | r :: rs => rs.any (fun q => r.span.1 < q.span.1 + q.span.2 && q.span.1 < r.span.1 + r.span.2) || overlaps rs

/-- Every section of every object with its relocations applied: object, index, contents (R212). -/
def patchAll (objs : List Adko) (gs : List Joined) : List (Nat × Nat × Sect) → Except LinkError (List (Nat × Nat × List Byte))
  | [] => .ok []
  | (i, j, t) :: r =>
    if overlaps t.rels then .error .overlap
    else
      match applyRels objs gs i t.rels t.data with
      | .error e => .error e
      | .ok d =>
        match patchAll objs gs r with
        | .error e => .error e
        | .ok l => .ok ((i, j, d) :: l)

/-- The contents of an output section, zeros between its parts. DESIGN CHOICE, log 88. -/
def fillParts (ds : List (Nat × Nat × List Byte)) : List Byte → List (Nat × Nat × Nat) → List Byte
  | acc, [] => acc
  | acc, (i, j, o) :: r =>
    let d := ((ds.find? fun x => x.1 == i && x.2.1 == j).map fun x => x.2.2).getD []
    fillParts ds (acc ++ List.replicate (o - acc.length) 0 ++ d) r

/-- The output section with its contents. -/
def Joined.build (ds : List (Nat × Nat × List Byte)) (g : Joined) : Sect :=
  ⟨g.kind, g.align, g.vault, g.size, if g.kind == .spad then [] else fillParts ds [] g.parts, [], g.addr⟩

/-- Cut bytes into items of `n` bytes, at most `k` of them. -/
def cut (n : Nat) : Nat → List Byte → List (List Byte)
  | 0, _ => []
  | k + 1, d => if d.isEmpty then [] else d.take n :: cut n k (d.drop n)

/-- The items of a section (R206). -/
def Sect.items (t : Sect) : List (List Byte) := cut t.kind.item t.data.length t.data

/-- Routine blocks from the words of `.mprog`: INDEX and micro-words; none where a header breaks R207. -/
def blocks : Nat → List W64 → Option (List (Nat × List W64))
  | _, [] => some []
  | 0, _ => none
  | n + 1, h :: r =>
    let len := fld h 8 13
    if fld h 21 43 == 0 && 1 ≤ len && len ≤ 4096 && len ≤ r.length
    then (blocks n (r.drop len)).map fun l => (fld h 0 8, r.take len) :: l else none

/-- The routine blocks of a section (R207). -/
def Sect.blocks (t : Sect) : Option (List (Nat × List W64)) :=
  Machine.blocks t.data.length (t.items.map fun d => fileWord d 0)

/-- Whether a list repeats an element. -/
def repeats {α : Type} [DecidableEq α] : List α → Bool
  | [] => false
  | a :: l => l.contains a || repeats l

/-- Word `i` of a launch record in the image (R157). -/
def recWord (r : List Byte) (i : Nat) : W64 := fileWord r (8 * i)

/-- Two records whose nonzero overlay identifiers agree but whose units differ (R214). DEDUCED, log 88. -/
def overlayClash (recs : List (List Byte)) : Bool :=
  recs.any fun a => recs.any fun b => fld (recWord a 4) 32 32 != 0 && fld (recWord a 4) 32 32 == fld (recWord b 4) 32 32
    && recWord a 0 != recWord b 0

/-- The units that the relocations of a word of `.pipe` name, as pointers to their starts (R212, R221); `a` is the pointer of
the word. -/
def unitsNamed (objs : List Adko) (gs : List Joined) (a : W64) : List W64 :=
  (inputsOf objs .pipe 0).flatMap fun (i, j, t) => t.rels.filterMap fun r =>
    if r.kind == .unitOff && partAddr gs i j + BitVec.ofNat 64 r.place == a then
      ((objs[i]?.bind fun o => o.syms[r.sym]?).bind (resolveSym objs i)).bind fun (k, y) =>
        (objs[k]?.bind fun o => unitOf o y).map (symValue gs k)
    else none

/-- A record that names a stage entry outside its own unit (R163, R214). DEDUCED, log 88. -/
def stageClash (objs : List Adko) (gs : List Joined) (pipes : List Sect) (r : List Byte) : Bool :=
  fld (recWord r 3) 12 1 == 1 && (List.range (fld (recWord r 3) 13 3 + 1)).any fun n =>
    let a := recWord r 8 + BitVec.ofNat 64 (32 * n)
    let entry := (pipes.findSome? fun t => if t.addr ≤ a && a.toNat < t.addr.toNat + t.size
      then some (fileNat t.data (a - t.addr).toNat 2) else none).getD 0
    fld (recWord r 1) 0 32 ≤ entry || (unitsNamed objs gs a).any (· != recWord r 0)

/-- Whether an external of object `i` has no global in the other inputs (R214). -/
def lacksGlobal (objs : List Adko) : Bool :=
  objs.zipIdx.any fun (o, i) => o.syms.any fun y => (resolveSym objs i y).isNone

/-- The names of all global symbols (R214). -/
def globals (objs : List Adko) : List (List Byte) := objs.flatMap fun o => (o.syms.filter (·.bind == 1)).map Sym.name

/-- The items of one kind in all inputs. -/
def allItems (objs : List Adko) (k : SectKind) : List (List Byte) := (inputsOf objs k 0).flatMap fun (_, _, t) => t.items

/-- All routine blocks of the inputs; none where one is malformed (R207). -/
def allBlocks (objs : List Adko) : Option (List (Nat × List W64)) :=
  ((inputsOf objs .mprog 0).mapM fun (x : Nat × Nat × Sect) => x.2.2.blocks).map List.flatten

/-- The first link error that the inputs alone show (R214). -/
def inputError (objs : List Adko) (gs : List Joined) : Option LinkError :=
  let tid (d : List Byte) := fld (fileWord d 0) 0 12
  if objs.any Adko.image then some .notObject
  else if repeats (globals objs) then some .twoGlobals
  else if lacksGlobal objs then some .noGlobal
  else if repeats ((allItems objs .tdesc).map tid) then some .twoTensors
  else if repeats ((allItems objs .shard).map tid) then some .twoShards
  else match allBlocks objs with
    | none => some .routine
    | some bs =>
      if repeats (bs.map Prod.fst) then some .twoRoutines
      else if 4096 < (bs.map fun b => b.2.length).foldl (· + ·) 0 then some .storeFull
      else if gs.any fun g => g.kind == .spad && 0x300000 < g.size then some .spadFull else none

/-- The symbols of an image: those the inputs define, each in its output section. DESIGN CHOICE, log 88. -/
def imageSyms (objs : List Adko) (gs : List Joined) : List Sym :=
  objs.zipIdx.flatMap fun (o, i) => o.syms.filterMap fun y =>
    if y.sect == 0 then none else if y.sect == 0xFF then some y
    else (partOf gs i (y.sect - 1)).map fun (n, off) => { y with sect := n + 1, value := y.value + BitVec.ofNat 64 off }

/-- Link objects at a base (R212 to R214). -/
def linkObjects (base : W64) (objs : List Adko) : Except LinkError Adko :=
  let gs := layout objs base
  match inputError objs gs with
  | some e => .error e
  | none =>
    match patchAll objs gs (objs.zipIdx.flatMap fun (o, i) => o.sects.zipIdx.map fun (t, j) => (i, j, t)) with
    | .error e => .error e
    | .ok ds =>
      let ts := gs.map (Joined.build ds)
      let recs := (inputsOf objs .launch 0).flatMap fun (i, j, t) =>
        cut 256 t.size (((ds.find? fun x => x.1 == i && x.2.1 == j).map fun x => x.2.2).getD [])
      if overlayClash recs then .error .twoOverlays
      else if recs.any (stageClash objs gs (ts.filter (·.kind == .pipe))) then .error .stageOutside
      else .ok ⟨true, ts, imageSyms objs gs⟩

/-! Writing a file. The order in which the tables stand is the model's: header, section table, symbol table, relocations,
contents, each at a multiple of 8, and the names last. DESIGN CHOICE, log 88. -/

/-- The entry of a relocation (R211). -/
def Reloc.encode (r : Reloc) : List Byte :=
  let kind := match r.kind with
    | .abs => 0
    | .unitOff => 1
    | .size => 2
  toBytes r.offset 8 ++ toBytes (r.sym + kind <<< 32 + r.pos <<< 36 + r.width <<< 42 + r.signed.toNat <<< 49
    + r.cont.toNat <<< 50 + r.slot <<< 51 + r.trunc.toNat <<< 54 + r.shr <<< 58) 8 ++ toBytes r.addend.toNat 8

/-- Bytes padded with zeros to a multiple of 8. -/
def pad8 (d : List Byte) : List Byte := d ++ List.replicate (alignUp d.length 3 - d.length) 0

/-- The names of a file, each with its end, and the offset of each (R204). -/
def nameTable : Nat → List (List Byte) → List Nat × List Byte
  | _, [] => ([], [])
  | o, n :: r =>
    let (os, b) := nameTable (o + n.length + 1) r
    (o :: os, n ++ [0] ++ b)

/-- The section table, from the offset of the first section's relocations on: entries and what they point at (R205). -/
def sectTable : Nat → List (Sect × Nat) → List Byte × List Byte
  | _, [] => ([], [])
  | o, (t, n) :: r =>
    let rel := t.rels.flatMap Reloc.encode
    let body := rel ++ pad8 t.data
    let (es, bs) := sectTable (o + body.length) r
    let off := if t.kind == .spad then 0 else o + rel.length
    (toBytes (t.kind.toCode + t.align <<< 8 + t.vault <<< 16 + n <<< 32) 8 ++ toBytes off 8 ++ toBytes t.size 8
      ++ toBytes t.rels.length 8 ++ toBytes (if t.rels.isEmpty then 0 else o) 8 ++ toBytes t.addr.toNat 8 ++ es, body ++ bs)

/-- The symbol table (R209). -/
def symTable (l : List (Sym × Nat)) : List Byte :=
  l.flatMap fun (y, n) => toBytes (n + y.sect <<< 32 + y.kind <<< 40 + y.bind <<< 44) 8 ++ toBytes y.value.toNat 8
    ++ toBytes y.size.toNat 8

/-- The bytes of a file (R203 to R211). -/
def Adko.bytes (a : Adko) : List Byte :=
  let (os, names) := nameTable 0 (a.sects.map (fun t => t.kind.spelled) ++ a.syms.map Sym.name)
  let symOff := 64 + 48 * a.sects.length
  let bodyOff := symOff + 24 * a.syms.length
  let (es, body) := sectTable bodyOff (a.sects.zip os)
  let head (crc : Nat) : List Byte :=
    toBytes (0x4F4B4441 + 1 <<< 32 + (if a.image then 2 else 1) <<< 48) 8
      ++ toBytes (a.sects.length + a.syms.length <<< 32) 8 ++ toBytes 64 8 ++ toBytes symOff 8
      ++ toBytes (bodyOff + body.length) 8 ++ toBytes names.length 8 ++ toBytes 0 8 ++ toBytes crc 8
  let rest := es ++ symTable (a.syms.zip (os.drop a.sects.length)) ++ body ++ names
  head (fileCrc (head 0 ++ rest)).toNat ++ rest

/-! Loading (R215). -/

/-- A step of system software that loads an image (R215). -/
inductive LoadStep where
  /-- bytes to physical memory -/
  | copy (pa : Nat) (data : List Byte)
  /-- a word to a register of a die's window -/
  | register (die off : Nat) (v : W64)
  /-- `sys.shinv`, waited for -/
  | shinv
deriving DecidableEq, Repr

/-- What a step of the loader does to the device: a host write, a register write, or a completed `sys.shinv`, after which every
table write is in effect (R35). -/
def LoadStep.run (l : LoadStep) (s : State) : State :=
  match l with
  | .copy pa d => hostWrite s (.hdm pa) d
  | .register die off v => writeReg s die off 8 v
  | .shinv => s.tableWrites.foldl (fun t (off, n, v) => applyTable t off n v) s

/-- The VA kinds (R206). -/
def SectKind.isVa : SectKind → Bool
  | .code | .sparsity | .launch | .copysched | .pipe | .data | .views => true
  | .mprog | .tdesc | .shard | .spad | .note => false

/-- The writes that put bytes at a virtual address through page tables: at most `n` pieces, none of which crosses 4 KiB; none
where the tables map no page (R68, R215). -/
def copyWrites (m : List Host.Cell) (root : Nat) : Nat → Nat → List Byte → Option (List LoadStep)
  | 0, _, d => if d.isEmpty then some [] else none
  | n + 1, va, d =>
    if d.isEmpty then some []
    else
      let len := 4096 - va % 4096
      match walk m root va false with
      | .page size frame _ =>
        (copyWrites m root n (va + len) (d.drop len)).map fun l => .copy (frame + va % size) (d.take len) :: l
      | .fault _ => none
      | .phys => none
      | .bad _ => none

/-- Step 1: each VA section to the memory that the job's tables give (R215). -/
def loadCopies (m : List Host.Cell) (root : Nat) (a : Adko) : Option (List LoadStep) :=
  ((a.sects.filter fun t => t.kind.isVa).mapM fun t =>
    copyWrites m root (t.data.length + 1) (t.addr.toNat % 2 ^ 48) t.data).map List.flatten

/-- Writes of consecutive words of a register window (R22). -/
def wordWrites (die off : Nat) (ws : List W64) : List LoadStep := ws.zipIdx.map fun (w, i) => .register die (off + 8 * i) w

/-- The words of some bytes. -/
def wordsOf (d : List Byte) : List W64 := (cut 8 d.length d).map fun x => fileWord x 0

/-- Step 2: descriptors at their own TID and sharding entries at their index, then `sys.shinv` (R34, R207, R215). -/
def loadTables (a : Adko) : List LoadStep :=
  (a.sects.flatMap fun t => match t.kind with
    | .tdesc => t.items.flatMap fun d => wordWrites 0 (0x200000 + 128 * fld (fileWord d 0) 0 12) (wordsOf d)
    | .shard => t.items.flatMap fun d => wordWrites 0 (0x100000 + 32 * fld (fileWord d 0) 0 12) (wordsOf (d.drop 8))
    | .code | .sparsity | .mprog | .launch | .copysched | .pipe | .data | .spad | .views | .note => [])
    ++ [.shinv]

/-- Put a routine block in its place by INDEX. -/
def insertBlock (b : Nat × List W64) : List (Nat × List W64) → List (Nat × List W64)
  | [] => [b]
  | c :: r => if b.1 < c.1 then b :: c :: r else c :: insertBlock b r

/-- Routines from a word of the stores on, through the broadcast windows of one die: store words and directory entries (R305). -/
def routineWrites (die : Nat) : Nat → List (Nat × List W64) → List LoadStep
  | _, [] => []
  | w, (n, ws) :: r =>
    wordWrites die (0x1C00000 + 8 * w) ws
      ++ [.register die (0x1C80000 + 8 * n) (BitVec.ofNat 64 (2 ^ 25 + ws.length % 2 ^ 13 * 2 ^ 12 + w % 2 ^ 12))]
      ++ routineWrites die (w + ws.length) r

/-- Step 3: the routines in ascending INDEX on every die (R215, R305). -/
def loadRoutines (a : Adko) : Option (List LoadStep) :=
  ((a.sects.filter (·.kind == .mprog)).mapM Sect.blocks).map fun l =>
    let bs := l.flatten.foldr insertBlock []
    (List.range 4).flatMap fun die => routineWrites die 0 bs

/-- Step 4: submit a launch record to a queue (R155, R215). -/
def submitLaunch (die queue : Nat) (a : W64) : LoadStep := .register die (0xA008 + 32 * queue) a

/-- The pointers of an image's launch records, in order. -/
def Adko.launches (a : Adko) : List W64 :=
  (a.sects.filter (·.kind == .launch)).flatMap fun t =>
    (List.range t.items.length).map fun i => t.addr + BitVec.ofNat 64 (256 * i)

/-- The steps by which system software loads an image and submits its records, in order (R215): the page tables that stand
in memory, their root, and the queue. -/
def loadSteps (m : List Host.Cell) (root die queue : Nat) (a : Adko) : Option (List LoadStep) :=
  match loadCopies m root a, loadRoutines a with
  | some copies, some routines => some (copies ++ loadTables a ++ routines ++ a.launches.map (submitLaunch die queue))
  | _, _ => none

end Sys2Proof.Machine
end

