-- ==== Sys2Proof/Machine/Assemble.lean ====
section
/-! DEFINITION. The assembler: parsed source lines to an ADKO object (R198, R201, R216 to R221, R417). A line
stands here with its slots and values as numbers; Source.lean reads it from text. -/
namespace Sys2Proof.Machine

/-- A name of the source (R204). -/
abbrev Name := List Byte

/-- A number, or a symbol plus or minus a number (R216). -/
inductive Expr where
  | num (v : Int)
  | sym (name : Name) (add : Int)
deriving DecidableEq, Repr

/-- The keys of `.tensor` (R218). `strides` is empty where the key is missing. -/
structure TensorKeys where
  (tid fmt : Nat) (ext : List Nat) (strides : List Int) (base : Expr) (aliased tscale : Nat) (bscale : Option (Nat × Expr))
  (shard : Nat) (sdim sext sgrid : List Nat)
deriving DecidableEq, Repr

/-- The keys of `.shard` (R219). -/
structure ShardKeys where
  (tid device die column vault space layout base : Nat)
deriving DecidableEq, Repr

/-- The keys of `.view` (R219): `m` holds one dimension, view dimension and value for each entry. -/
structure ViewKeys where
  (tid : Nat) (origin : List Int) (m : List (Nat × Nat × Int)) (vext : List Nat) (edge : Nat)
deriving DecidableEq, Repr

/-- The keys of `.launch` (R220); none is a missing key. -/
structure LaunchKeys where
  (unit : Name) (entry : Option Name) (id : Nat) (grid : Nat × Nat × Nat) (units : Option Nat)
  (split prio pclass det priv circ : Nat) (ovl : Option Nat) (job graph graphn phase phasen : Nat) (pred : List Nat)
  (sched : Option Expr) (ncstage : Option Nat) (inputs : List (Nat × Nat)) (meta' : Expr) (pipe : Option Name)
deriving DecidableEq, Repr

/-- A source line. A slot carries a label where it is a branch to one (R201). -/
inductive Line where
  | label (name : Name)
  /-- a label that stands on a bundle's line -/
  | bundleLabel (name : Name)
  | bundle (slots : List (W32 × Option Name))
  | into (kind : SectKind) (vault : Nat)
  | unit (name : Name) | endUnit | overlay (n : Nat)
  | align (n : Nat)
  | word (es : List Expr) | dword (es : List Expr) | fill (count size : Nat) (value : Int)
  | equ (name : Name) (e : Expr)
  | scope (glob : Bool) (names : List Name)
  | tensor (name : Name) (keys : TensorKeys) | shard (index : Nat) (keys : ShardKeys) | view (name : Name) (keys : ViewKeys)
  | launch (name : Name) (keys : LaunchKeys)
  | copysched (name : Name) | endCopysched
  | pipe (name : Name) | stage (n : Nat) (entry : Name) (inq outq : Option Nat) (minc maxc : Nat)
  | queue (m : Nat) (base : Expr) (depth : Nat) | endPipe
  | mroutine (name : Name) (index : Nat) | micro (w : Nat) | endMroutine
  | sparsity (name : Name)
deriving DecidableEq, Repr

/-- The structure that is open, with its symbol and where it started (R217). -/
inductive OpenStruct where
  | none
  | unit (name : Name) (start : Nat)
  | copysched (name : Name) (start : Nat)
  | pipe (name : Name) (start : Nat) (stages queues : List Nat)
  | mroutine (start : Nat)
  | sparsity (name : Name) (start : Nat)
deriving DecidableEq, Repr

/-- The assembler between two lines: the sections with relocations that name their symbols, the symbols, `.scope` lines, the
current section, the open structure, whether a `.section` inside it has turned data lines elsewhere, branches of the open unit
(slot, bundle, label), its labels, those that no bundle has followed yet, overlay identifiers, the stages of each stage table,
and the descriptors and launch records to check at the end. -/
structure Asm where
  (sects : List (Sect × List (Reloc × Name))) (syms : List Sym) (scopes : List (Name × Bool))
  (cur : Option (SectKind × Nat)) (opened : OpenStruct) (aside : Bool) (branches : List (Nat × Nat × Name)) (labels : List (Name × Nat))
  (ahead : List Name) (overlays : List (Name × Nat)) (stages : List (Name × Nat)) (tensors : List TensorKeys)
  (launches : List (Nat × LaunchKeys))
deriving DecidableEq, Repr

/-- The index of a section. -/
def Asm.index (a : Asm) (k : SectKind) (v : Nat) : Option Nat := a.sects.findIdx? fun x => x.1.kind == k && x.1.vault == v

/-- The assembler with a section of a kind, made at its least ALIGN on first use. -/
def Asm.need (a : Asm) (k : SectKind) (v : Nat) : Asm :=
  if (a.index k v).isSome then a else { a with sects := a.sects ++ [(⟨k, k.leastAlign, v, 0, [], [], 0⟩, [])] }

/-- A section, empty where there is none. -/
def Asm.sect (a : Asm) (k : SectKind) (v : Nat) : Sect :=
  ((a.index k v).bind fun i => a.sects[i]?.map Prod.fst).getD ⟨k, k.leastAlign, v, 0, [], [], 0⟩

/-- The assembler with a section changed. -/
def Asm.put (a : Asm) (t : Sect) : Asm :=
  { a with sects := a.sects.map fun x => if x.1.kind == t.kind && x.1.vault == t.vault then (t, x.2) else x }

/-- The offset of the next byte of a section. -/
def Asm.here (a : Asm) (k : SectKind) (v : Nat) : Nat := (a.sect k v).size

/-- Bytes at the end of a section. -/
def Asm.emit (a : Asm) (k : SectKind) (d : List Byte) : Asm :=
  let t := (a.need k 0).sect k 0
  (a.need k 0).put { t with size := t.size + d.length, data := t.data ++ d }

/-- A relocation of a section. -/
def Asm.rel (a : Asm) (k : SectKind) (r : Reloc) (n : Name) : Asm :=
  { a with sects := a.sects.map fun x => if x.1.kind == k then (x.1, x.2 ++ [(r, n)]) else x }

/-- Bytes of a section replaced from an offset on. -/
def Asm.patch (a : Asm) (k : SectKind) (off : Nat) (d : List Byte) : Asm :=
  let t := a.sect k 0
  a.put { t with data := t.data.take off ++ d ++ t.data.drop (off + d.length) }

/-- `n` bytes of padding, which is slots of `ctl.nop` in `.code` (R202, R217). -/
def padding (k : SectKind) (n : Nat) : List Byte :=
  if k == .code then (List.replicate (n / 4) (toBytes 0x20000000 4)).flatten else List.replicate n 0

/-- Pad a section to a multiple of `2 ^ p` and raise its ALIGN (R217). -/
def Asm.alignTo (a : Asm) (k : SectKind) (v p : Nat) : Asm :=
  let t := (a.need k v).sect k v
  let n := alignUp t.size p - t.size
  (a.need k v).put { t with align := max t.align p, size := t.size + n, data := if k == .spad then [] else t.data ++ padding k n }

/-- A new symbol; none where the name is taken or malformed. -/
def Asm.define (a : Asm) (n : Name) (sect kind : Nat) (value size : W64) : Option Asm :=
  if nameOk n && a.syms.all (·.name != n) then some { a with syms := a.syms ++ [⟨n, sect, kind, 0, value, size⟩] } else none

/-- A new symbol at the next byte of a section, which must be there. -/
def Asm.mark (a : Asm) (n : Name) (k : SectKind) (v kind size : Nat) : Option Asm :=
  (a.index k v).bind fun i => a.define n (i + 1) kind (BitVec.ofNat 64 (a.here k v)) (BitVec.ofNat 64 size)

/-- The SIZE of a symbol set. -/
def Asm.setSize (a : Asm) (n : Name) (size : Nat) : Asm :=
  { a with syms := a.syms.map fun y => if y.name == n then { y with size := BitVec.ofNat 64 size } else y }

/-- The section in which data lines and labels stand (R217, R417). -/
def Asm.place (a : Asm) : Option (SectKind × Nat) :=
  if a.aside then a.cur
  else match a.opened with
  | .none => a.cur
  | .unit _ _ => some (.code, 0)
  | .copysched _ _ => some (.copysched, 0)
  | .pipe _ _ _ _ => some (.pipe, 0)
  | .mroutine _ => some (.mprog, 0)
  | .sparsity _ _ => some (.sparsity, 0)

/-- Fields as first bit, width and value, packed; none where a value does not fit (R201). -/
def pack : List (Nat × Nat × Nat) → Option Nat
  | [] => some 0
  | (lo, w, v) :: r => if v < 2 ^ w then (pack r).map (· + v <<< lo) else none

/-- A number in a field of `w` bits, signed or unsigned; none where it does not fit (R201). -/
def numField (w : Nat) (v : Int) : Option Nat :=
  if -(2 ^ (w - 1) : Int) ≤ v && v < 2 ^ w then some (v % 2 ^ w).toNat else none

/-- A signed number in a field of `w` bits. -/
def signedField (w : Nat) (v : Int) : Option Nat :=
  if -(2 ^ (w - 1) : Int) ≤ v && v < 2 ^ (w - 1) then some (v % 2 ^ w).toNat else none

/-- A relocation that puts a whole 64-bit word. -/
def abs64 (off : Nat) (add : Int) : Reloc := ⟨off, 0, .abs, 0, 64, false, true, 0, false, 0, BitVec.ofInt 64 add⟩

/-- One value of `.word` (`n` = 4) or `.dword` (`n` = 8) (R217): every symbol gets a relocation, an absolute one of this source
too. DESIGN CHOICE, log 101. -/
def Asm.value (a : Asm) (k : SectKind) (n : Nat) (e : Expr) : Option Asm :=
  match e with
  | .num v => (numField (8 * n) v).map fun x => a.emit k (toBytes x n)
  | .sym m add =>
    let off := a.here k 0
    if off % n != 0 then none
    else some ((a.emit k (toBytes 0 n)).rel k (if n == 8 then abs64 off add
      else ⟨off, 0, .abs, 0, 32, false, false, 0, false, 0, BitVec.ofInt 64 add⟩) m)

/-- Values in order. -/
def Asm.values (a : Asm) (k : SectKind) (n : Nat) : List Expr → Option Asm
  | [] => some a
  | e :: r => (a.value k n e).bind fun b => b.values k n r

/-- Where data lines are accepted (R217). -/
def takesData : SectKind → Bool
  | .data | .note | .sparsity | .mprog | .copysched => true
  | .code | .tdesc | .shard | .launch | .pipe | .spad | .views => false

/-- The slots of a line: padded with `ctl.nop`, S in the last; none where there are none or more than eight, or where R191 is
broken (R198). -/
def lineSlots (ws : List W32) : Option (List W32) :=
  let l := ws ++ List.replicate (4 - ws.length) 0x20000000
  if ws.isEmpty || 8 < ws.length || !classesOk (l.map fun w => slotClass (w.extractLsb' 25 6).toNat (w.extractLsb' 0 5).toNat)
  then none
  else some (l.zipIdx.map fun (w, i) => if i + 1 == l.length then w ||| 0x80000000 else w &&& 0x7FFFFFFF)

/-- A branch to a label of the unit: IMM19 of its slot (R186, R201). -/
def Asm.branch (a : Asm) (off bundle : Nat) (target : Nat) : Option Asm :=
  (signedField 19 (((target : Int) - bundle) / 4)).map fun x =>
    let w := fileNat (a.sect .code 0).data off 4
    a.patch .code off (toBytes (w / 2 ^ 19 * 2 ^ 19 + x) 4)

/-- All branches of a unit. -/
def Asm.branchAll (a : Asm) : List (Nat × Nat × Name) → Option Asm
  | [] => some a
  | (off, bundle, n) :: r =>
    match a.labels.find? (·.1 == n) with
    | none => none
    | some (_, target) => (a.branch off bundle target).bind fun b => b.branchAll r

/-- The descriptor of `.tensor` (R218), with the values that symbols have in BASE and BSBASE; none where a value does not fit, or
where `stride=` has not RANK values. DESIGN CHOICE, log 101. -/
def tensorItem (symbol : Name → Int → Int) (k : TensorKeys) : Option (BitVec 1024) := do
  let rank := k.ext.length
  let strides : List Int := if k.strides.isEmpty
    then (List.range rank).map fun d => ((k.ext.take d).foldl (· * ·) 1 : Nat) else k.strides
  let sext (i : Nat) := k.sext.getD i 1
  let sgrid (i : Nat) := k.sgrid.getD i 1
  let num (e : Expr) : Int := match e with
    | .num v => v
    | .sym n add => symbol n add
  if !(rank ≤ 5 && strides.length == rank && k.sdim.length ≤ 2 && k.sext.length ≤ 2 && k.sgrid.length ≤ 2) then none
  let w0 ← pack [(0, 12, k.tid), (12, 3, rank), (16, 4, k.fmt), (20, 4, k.aliased), (24, 2, k.sdim.length),
    (26, 3, k.sdim.getD 0 0), (29, 3, k.sdim.getD 1 0), (32, 12, k.shard)]
  let w1 ← numField 64 (num k.base)
  let exts ← pack (k.ext.zipIdx.map fun (e, i) => (32 * i, 32, e))
  let sts ← strides.mapM (numField 64)
  let st ← pack (sts.zipIdx.map fun (e, i) => (64 * i, 64, e))
  let w10 ← pack [(0, 32, sext 0), (32, 32, sext 1)]
  let w11 ← pack [(0, 16, sgrid 0), (16, 16, sgrid 1)]
  let w12 ← pack [(0, 8, k.tscale), (8, 3, (k.bscale.map Prod.fst).getD 0), (11, 1, if k.bscale.isSome then 1 else 0)]
  let w13 ← numField 64 ((k.bscale.map fun b => num b.2).getD 0)
  some (BitVec.ofNat 1024 (w0 + w1 <<< 64 + exts <<< 128 + st <<< 320 + w10 <<< 640 + w11 <<< 704 + w12 <<< 768 + w13 <<< 832))

/-- BASE of a `.tensor` is a symbol with no value in the source (R210): none of `absolute`. -/
def TensorKeys.symbolic (k : TensorKeys) (absolute : List Name) : Bool := match k.base with
  | .num _ => false
  | .sym n _ => !absolute.contains n

/-- The item of `.shard` (R40, R207, R219). -/
def shardItem (index : Nat) (k : ShardKeys) : Option (List Byte) := do
  let w ← pack [(0, 12, index)]
  let e ← pack [(0, 12, k.tid), (12, 1, 1), (16, 16, k.device), (32, 2, k.die), (34, 6, k.column), (40, 2, k.space), (42, 2, k.vault),
    (44, 4, k.layout)]
  let b ← pack [(0, 48, k.base)]
  if k.base % 128 == 0 && k.space ≤ 2 then some (toBytes w 8 ++ toBytes e 8 ++ toBytes b 8 ++ toBytes 0 16) else none

/-- The template of `.view` (R43, R207, R219). -/
def viewItem (k : ViewKeys) : Option (List Byte) := do
  let w0 ← pack [(0, 12, k.tid), (16, 3, k.vext.length), (21, 1, k.edge)]
  let os ← k.origin.mapM (signedField 32)
  let o ← pack (os.zipIdx.map fun (v, i) => (32 * i, 32, v))
  let ms ← k.m.mapM fun (d, j, v) => if d < 5 && j < 4 then (signedField 8 v).map fun x => (8 * (4 * d + j), 8, x) else none
  let m ← pack ms
  let e ← pack (k.vext.zipIdx.map fun (v, i) => (32 * i, 32, v))
  if 1 ≤ k.vext.length && k.vext.length ≤ 4 && k.origin.length ≤ 5 && !repeats (ms.map Prod.fst)
  then some (toBytes (w0 + o <<< 64 + m <<< 224 + e <<< 384) 64) else none

/-- The fields of a launch record that need no symbol, word by word (R157, R220); `ovl` and `nstage` come from the unit and the
stage table. -/
def launchWords (k : LaunchKeys) (ovl nstage : Nat) : Option (List Nat) := do
  let (gx, gy, gz) := k.grid
  let w2 ← pack [(0, 16, gx), (16, 16, gy), (32, 16, gz)]
  let w3 ← pack [(0, 4, k.split), (4, 2, k.pclass), (6, 3, k.prio), (9, 1, k.priv), (10, 1, k.det), (11, 1, k.circ),
    (12, 1, if k.pipe.isSome then 1 else 0), (13, 3, nstage)]
  let w4 ← pack [(0, 32, k.units.getD (gx * gy * gz)), (32, 32, k.ovl.getD ovl)]
  let w5 ← pack [(0, 10, k.id), (16, 8, k.graph), (24, 4, k.phase), (32, 16, k.job)]
  let w6 ← pack [(0, 16, k.graphn), (16, 8, k.phasen)]
  let ps ← k.pred.mapM fun p => if p < 1024 then some (p + 2 ^ 15) else none
  let w7 ← pack (ps.zipIdx.map fun (p, i) => (16 * i, 16, p))
  let w10 ← pack [(16, 8, k.ncstage.getD (if k.sched.isSome then 1 else 0)), (24, 8, k.inputs.length)]
  let ins ← k.inputs.mapM fun (v, o) => pack [(0, 22, o), (22, 2, v)]
  if k.pred.length ≤ 4 && k.inputs.length ≤ 8
  then some ([0, 0, w2, w3, w4, w5, w6, w7, 0, 0, w10, 0] ++ ins ++ List.replicate (20 - ins.length) 0) else none

/-- A relocation of the record at `off`: word, kind, first bit, width and shift of its field. -/
def recRel (off word : Nat) (kind : RelKind) (pos width shr : Nat) (add : Int) : Reloc :=
  ⟨off + 8 * word, 0, kind, pos, width, false, true, 0, false, shr, BitVec.ofInt 64 add⟩

/-- A word of a record that holds an expression (R220). -/
def Asm.recExpr (a : Asm) (off word : Nat) (e : Expr) : Option Asm :=
  match e with
  | .num v => (numField 64 v).map fun x => a.patch .launch (off + 8 * word) (toBytes x 8)
  | .sym n add => some (a.rel .launch (recRel off word .abs 0 64 0 add) n)

/-- `.launch` (R220): OVL and NSTAGE follow at the end. `sched=` with a plain number is an error, as is a `grid=` of other than
three values. DESIGN CHOICE, log 101. -/
def Asm.launch (a : Asm) (n : Name) (k : LaunchKeys) : Option Asm := do
  let ws ← launchWords k 0 0
  let off := a.here .launch 0
  let b ← (a.need .launch 0).mark n .launch 0 2 256
  let b := (b.emit .launch (ws.flatMap fun w => toBytes w 8)).rel .launch (recRel off 0 .abs 0 64 0 0) k.unit
  let b := match k.entry with
    | none => b
    | some e => b.rel .launch (recRel off 1 .unitOff 32 16 0 0) e
  let b := b.rel .launch (recRel off 1 .size 0 32 0 0) k.unit
  let b ← match k.pipe with
    | none => some b
    | some p => b.recExpr off 8 (.sym p 0)
  let b ← match k.sched with
    | none => some b
    | some (.sym m add) =>
      (b.recExpr off 9 (.sym m add)).map fun c => c.rel .launch (recRel off 10 .size 0 16 6 0) m
    | some (.num _) => none
  let b ← b.recExpr off 11 k.meta'
  some { b with launches := b.launches ++ [(off, k)] }

/-- OVL and NSTAGE of a record, from the unit's `.overlay` and the stage table, wherever they stand in the source (R220). -/
def Asm.endLaunch (a : Asm) (off : Nat) (k : LaunchKeys) : Option Asm := do
  let nstage ← match k.pipe with
    | none => some 0
    | some p => (a.stages.find? (·.1 == p)).map Prod.snd
  let ws ← launchWords k (((a.overlays.find? (·.1 == k.unit)).map Prod.snd).getD 0) nstage
  some (a.patch .launch (off + 24) (toBytes (ws.getD 3 0) 8 ++ toBytes (ws.getD 4 0) 8))

/-- The records of a source, finished. -/
def Asm.endLaunches (a : Asm) : List (Nat × LaunchKeys) → Option Asm
  | [] => some a
  | (off, k) :: r => (a.endLaunch off k).bind fun b => b.endLaunches r

/-- The value of a symbol plus a number, as far as the source fixes it (R210): an absolute symbol whole, a place in a section in
the bits below the section's ALIGN, and nothing of an external. -/
def Asm.valueNow (a : Asm) (n : Name) (add : Int) : Int :=
  match a.syms.find? (·.name == n) with
  | none => 0
  | some y =>
    if y.sect == 0xFF then y.value.toInt + add
    else match a.sects[y.sect - 1]? with
      | none => 0
      | some (t, _) =>
        let v := y.value.toInt + add
        let v := if t.align < 7 then v / 128 * 128 + v % 2 ^ t.align else v
        if t.kind == .spad then v + 2 ^ 60 + t.vault * 2 ^ 22 else v

/-- The conditions of R36 on a descriptor, as far as the source fixes its symbols (R218). -/
def Asm.tensorOk (a : Asm) (k : TensorKeys) : Bool :=
  match tensorItem a.valueNow k with
  | none => false
  | some d => descValid k.tid d && !(k.symbolic ((a.syms.filter (·.sect == 0xFF)).map Sym.name) && 0 < k.sdim.length)

/-- The STAGE fields of a schedule's entries do not fall (R320, and "Engine, worklist, log and system instructions"). -/
def ascending : List (List Byte) → Bool
  | a :: b :: r => fld (fileWord a 40) 48 8 ≤ fld (fileWord b 40) 48 8 && ascending (b :: r)
  | _ => true

/-- R163 on a stage table, as far as the table alone decides: its bytes and its highest stage. -/
def stagesOk (d : List Byte) (top : Nat) : Bool :=
  let st (n : Nat) := fileWord d (32 * n)
  let inq (n : Nat) := fld (st n) 32 4
  let outq (n : Nat) := fld (st n) 36 4
  let minc (n : Nat) := fld (st n) 16 8
  let queueOk (m : Nat) : Bool :=
    let b := fileWord d (256 + 16 * m)
    m < 8 && fld b 60 4 == 2 && !fieldBad .spd b && b.toNat % 4096 == 0 && 1 ≤ fld (fileWord d (264 + 16 * m)) 0 8
      && fld (fileWord d (264 + 16 * m)) 0 8 ≤ 64
  (List.range (top + 1)).all fun n => 1 ≤ minc n && minc n ≤ fld (st n) 24 8 && fld (st n) 24 8 ≤ 64
    && (if n == 0 then inq n == 15 else inq n == outq (n - 1)) && (if n == top then outq n == 15 else queueOk (outq n))

/-- Close what `.meta` left open, at a line that goes elsewhere: whole 256-bit words (R206, R217). -/
def Asm.leaveMeta (a : Asm) : Option Asm :=
  match a.opened with
  | .sparsity n start =>
    let size := a.here .sparsity 0 - start
    if size % 32 == 0 then some { a.setSize n size with opened := .none } else none
  | .none | .unit _ _ | .copysched _ _ | .pipe _ _ _ _ | .mroutine _ => some a

/-- A line with no structure open: structures do not nest (R217). -/
def Asm.outside (a : Asm) : Option Asm :=
  a.leaveMeta.bind fun b => if b.opened == .none then some { b with aside := false } else none

/-- `.section` (R217): inside a structure that stays open, data lines go there from then on. -/
def Asm.turn (a : Asm) (k : SectKind) (v : Nat) : Option Asm :=
  a.leaveMeta.map fun b => { b.need k v with cur := some (k, v), aside := b.opened != .none }

/-- The rest of R217's conditions on `.fill`. -/
def Asm.fillLine (a : Asm) (count size : Nat) (value : Int) : Option Asm :=
  match a.place with
  | none => none
  | some (k, v) =>
    if !(size == 1 || size == 2 || size == 4 || size == 8) then none
    else if k == .spad then
      let t := a.sect .spad v
      if value == 0 then some (a.put { t with size := t.size + count * size }) else none
    else if takesData k then (numField (8 * size) value).map fun x => a.emit k (List.replicate count (toBytes x size)).flatten
    else none

/-- `.word` and `.dword` (R217). -/
def Asm.data (a : Asm) (n : Nat) (es : List Expr) : Option Asm :=
  match a.place with
  | none => none
  | some (k, _) => if takesData k then a.values k n es else none

/-- A bundle line (R198, R217). -/
def Asm.bundleLine (a : Asm) (slots : List (W32 × Option Name)) : Option Asm :=
  match a.opened with
  | .unit _ _ =>
    let off := a.here .code 0
    (lineSlots (slots.map Prod.fst)).map fun ws =>
      let b := a.emit .code (ws.flatMap fun w => toBytes w.toNat 4)
      { b with ahead := [], branches := b.branches ++ slots.zipIdx.filterMap fun (s, i) => s.2.map fun l => (off + 4 * i, off, l) }
  | .none | .copysched _ _ | .pipe _ _ _ _ | .mroutine _ | .sparsity _ _ => none

/-- The labels that no bundle has followed name what the next bundle would have as its address now (R198). -/
def Asm.bindAhead (a : Asm) : Asm :=
  let at' := a.here .code 0
  { a with
    labels := a.labels.map fun x => if a.ahead.contains x.1 then (x.1, at') else x
    syms := a.syms.map fun y => if a.ahead.contains y.name then { y with value := BitVec.ofNat 64 at' } else y }

/-- `.end_unit` (R217). A label that no bundle of the unit follows is no label of the unit: it names the next unit's first bundle,
and a branch to it is an error (R198, R212). -/
def Asm.endUnit (a : Asm) : Option Asm :=
  match a.opened with
  | .unit n start =>
    let size := a.here .code 0 - start
    if 4 ≤ size && size ≤ 65536 then
      (Asm.branchAll { a with labels := a.labels.filter fun x => !a.ahead.contains x.1 } a.branches).map fun b =>
        { b.setSize n size with opened := .none, aside := false, branches := [], labels := [] }
    else none
  | .none | .copysched _ _ | .pipe _ _ _ _ | .mroutine _ | .sparsity _ _ => none

/-- `.end_copysched` (R221). -/
def Asm.endCopysched (a : Asm) : Option Asm :=
  match a.opened with
  | .copysched n start =>
    let d := (a.sect .copysched 0).data.drop start
    if d.length % 64 == 0 && ascending (cut 64 d.length d) then some { a.setSize n d.length with opened := .none, aside := false } else none
  | .none | .unit _ _ | .pipe _ _ _ _ | .mroutine _ | .sparsity _ _ => none

/-- `.stage` (R221); a second one for a stage of the table is an error, as is a second `.queue`. DESIGN CHOICE, log 101. -/
def Asm.stageLine (a : Asm) (n : Nat) (entry : Name) (inq outq : Option Nat) (minc maxc : Nat) : Option Asm :=
  match a.opened with
  | .pipe p start ss qs =>
    let q (o : Option Nat) : Option Nat := match o with
      | none => some 15
      | some m => if m < 8 then some m else none
    if 8 ≤ n || ss.contains n then none
    else do
      let i ← q inq
      let o ← q outq
      let w ← pack [(16, 8, minc), (24, 8, maxc), (32, 4, i), (36, 4, o)]
      let b := a.patch .pipe (start + 32 * n) (toBytes w 8)
      some { b.rel .pipe ⟨start + 32 * n, 0, .unitOff, 0, 16, false, true, 0, false, 0, 0⟩ entry with
        opened := .pipe p start (ss ++ [n]) qs }
  | .none | .unit _ _ | .copysched _ _ | .mroutine _ | .sparsity _ _ => none

/-- The value of an absolute expression (R217); for `.queue base=` and `.equ`, from the absolute symbols of earlier lines. DESIGN
CHOICE, log 101. -/
def Asm.absolute (a : Asm) (e : Expr) : Option W64 :=
  match e with
  | .num v => (numField 64 v).map (BitVec.ofNat 64)
  | .sym n add => (a.syms.find? fun y => y.name == n && y.sect == 0xFF).map fun y => y.value + BitVec.ofInt 64 add

/-- BASE of a queue is an SPD pointer aligned to 4 KiB (R163, R221). -/
def queueBaseOk (b : W64) : Bool := spaceOf (fld b 60 4) == some .spd && !fieldBad .spd b && b.toNat % 4096 == 0

/-- `.queue` (R221). -/
def Asm.queueLine (a : Asm) (m : Nat) (base : Expr) (depth : Nat) : Option Asm :=
  match a.opened with
  | .pipe p start ss qs =>
    if 8 ≤ m || qs.contains m then none
    else do
      let w ← a.absolute base
      let b ← if queueBaseOk w then some w.toNat else none
      let d ← pack [(64, 8, depth)]
      some { a.patch .pipe (start + 256 + 16 * m) (toBytes (b + d) 16) with opened := .pipe p start ss (qs ++ [m]) }
  | .none | .unit _ _ | .copysched _ _ | .mroutine _ | .sparsity _ _ => none

/-- `.end_pipe` (R221): stages 0 to the highest, and R163. -/
def Asm.endPipe (a : Asm) : Option Asm :=
  match a.opened with
  | .pipe p start ss _ =>
    let top := ss.foldl max 0
    if !ss.isEmpty && (List.range (top + 1)).all ss.contains && stagesOk ((a.sect .pipe 0).data.drop start) top
    then some { a with opened := .none, aside := false, stages := a.stages ++ [(p, top)] } else none
  | .none | .unit _ _ | .copysched _ _ | .mroutine _ | .sparsity _ _ => none

/-- `.end_mroutine` (R207, R221). -/
def Asm.endMroutine (a : Asm) : Option Asm :=
  match a.opened with
  | .mroutine start =>
    let len := (a.here .mprog 0 - start - 8) / 8
    if (a.here .mprog 0 - start) % 8 == 0 && 1 ≤ len && len ≤ 4096 then
      let w := fileNat (a.sect .mprog 0).data start 8
      some { a.patch .mprog start (toBytes (w + len <<< 8) 8) with opened := .none, aside := false }
    else none
  | .none | .unit _ _ | .copysched _ _ | .pipe _ _ _ _ | .sparsity _ _ => none

/-- A micro-operation line (R221): it stands in a routine alone. -/
def Asm.microLine (a : Asm) (w : Nat) : Option Asm :=
  match a.opened, a.aside with
  | .mroutine _, false => some (a.emit .mprog (toBytes w 8))
  | _, _ => none

/-- A label in a section (R198, R417): in `.code` it names the next bundle, and where none follows in the source the offset after
the last slot. DESIGN CHOICE, log 101. -/
def Asm.labelAt (a : Asm) (n : Name) (k : SectKind) (v : Nat) : Option Asm :=
  let b := if k == .code then { a with labels := a.labels ++ [(n, a.here .code 0)], ahead := a.ahead ++ [n] } else a
  b.mark n k v 0 0

/-- A label that stands alone, in the section where data lines stand (R417). -/
def Asm.labelLine (a : Asm) (n : Name) : Option Asm := a.place.bind fun (k, v) => a.labelAt n k v

/-- A label on a bundle's line names that bundle, also where `.section` has turned data lines elsewhere (R198). -/
def Asm.bundleLabel (a : Asm) (n : Name) : Option Asm :=
  match a.opened with
  | .unit _ _ => a.labelAt n .code 0
  | .none | .copysched _ _ | .pipe _ _ _ _ | .mroutine _ | .sparsity _ _ => none

/-- `.align` (R217): labels that no bundle has followed name the bundle after the padding (R198). -/
def Asm.alignLine (a : Asm) (n : Nat) : Option Asm :=
  match a.place, (List.range 17).find? fun p => 2 ^ p == n with
  | some (k, v), some p =>
    if k == .code && p < 2 then none
    else
      let b := a.alignTo k v p
      some (if k == .code then b.bindAhead else b)
  | _, _ => none

/-- `.tensor` (R218): symbols stay 0 for their relocations, and R36 is checked at the end. -/
def Asm.tensor (a : Asm) (n : Name) (k : TensorKeys) : Option Asm := do
  let d ← tensorItem (fun _ _ => 0) k
  let off := a.here .tdesc 0
  let b ← (a.emit .tdesc (toBytes d.toNat 128)).define n 0xFF 3 (BitVec.ofNat 64 k.tid) 0
  let ref (c : Asm) (w : Nat) (e : Expr) : Asm := match e with
    | .num _ => c
    | .sym m add => c.rel .tdesc (abs64 (off + 8 * w) add) m
  let b := ref b 1 k.base
  let b := { b with tensors := b.tensors ++ [k] }
  some (match k.bscale with
    | none => b
    | some (_, e) => ref b 13 e)

/-- One source line (R198, R216 to R221, R417); none is an assembly error. A second `.overlay` of a unit is one, and so is a name
that two labels of a source share. DESIGN CHOICE, log 101. -/
def Asm.line (a : Asm) (l : Line) : Option Asm :=
  match l with
  | .label n => a.labelLine n
  | .bundleLabel n => a.bundleLabel n
  | .bundle slots => a.bundleLine slots
  | .into k v => if (k == .data || k == .note) && v == 0 || k == .spad && v < 4
      then a.turn k v else none
  | .unit n => a.outside.bind fun b =>
      ((b.alignTo .code 0 8).bindAhead.mark n .code 0 1 0).map fun c =>
        { c with opened := .unit n (c.here .code 0), branches := [], labels := c.ahead.map (·, c.here .code 0) }
  | .endUnit => a.endUnit
  | .overlay n => match a.opened with
    | .unit u _ => if 1 ≤ n && n < 2 ^ 32 && a.overlays.all (·.1 != u) then some { a with overlays := a.overlays ++ [(u, n)] } else none
    | .none | .copysched _ _ | .pipe _ _ _ _ | .mroutine _ | .sparsity _ _ => none
  | .align n => a.alignLine n
  | .word es => a.data 4 es
  | .dword es => a.data 8 es
  | .fill c s v => a.fillLine c s v
  | .equ n e => (a.absolute e).bind fun v => a.define n 0xFF 9 v 0
  | .scope g ns => some { a with scopes := (ns.map fun n => (n, g)) ++ a.scopes }
  | .tensor n k => a.tensor n k
  | .shard i k => (shardItem i k).map fun d => a.emit .shard d
  | .view n k => (viewItem k).bind fun d => ((a.need .views 0).mark n .views 0 4 64).map fun c => c.emit .views d
  | .launch n k => a.launch n k
  | .copysched n => a.outside.bind fun b => ((b.alignTo .copysched 0 6).mark n .copysched 0 5 0).map fun c =>
      { c with opened := .copysched n (c.here .copysched 0) }
  | .endCopysched => a.endCopysched
  | .pipe n => a.outside.bind fun b => ((b.alignTo .pipe 0 7).mark n .pipe 0 6 384).map fun c =>
      { c.emit .pipe ((List.replicate 8 (toBytes (0xFF <<< 32) 8 ++ toBytes 0 24)).flatten ++ toBytes 0 128) with
        opened := .pipe n (c.here .pipe 0) [] [] }
  | .stage n e i o mn mx => a.stageLine n e i o mn mx
  | .queue m b d => a.queueLine m b d
  | .endPipe => a.endPipe
  | .mroutine n i => if 256 ≤ i then none
      else a.outside.bind fun b => (b.define n 0xFF 8 (BitVec.ofNat 64 i) 0).map fun c =>
        { c.emit .mprog (toBytes i 8) with opened := .mroutine (c.here .mprog 0) }
  | .micro w => a.microLine w
  | .endMroutine => a.endMroutine
  | .sparsity n => a.outside.bind fun b => ((b.alignTo .sparsity 0 5).mark n .sparsity 0 7 0).map fun c =>
      { c with opened := .sparsity n (c.here .sparsity 0) }

/-- The externals: names that relocations use and no line defines (R217). -/
def Asm.externals (a : Asm) : List Name :=
  ((a.sects.flatMap fun x => x.2.map Prod.snd).filter fun n => a.syms.all (·.name != n)).eraseDups

/-- Every symbol with its BIND (R209, R217); SYMKIND, VALUE and SIZE of an external are 0. DESIGN CHOICE, log 101. -/
def Asm.table (a : Asm) : List Sym :=
  (a.syms.map fun y => { y with bind := if ((a.scopes.find? (·.1 == y.name)).map Prod.snd).getD false then 1 else 0 })
    ++ a.externals.map fun n => ⟨n, 0, 0, 2, 0, 0⟩

/-- The object with its relocations naming symbols by index. -/
def Asm.object (a : Asm) : Adko :=
  let ys := a.table
  ⟨false, a.sects.map fun (t, rs) => { t with rels := rs.map fun (r, n) => { r with sym := (ys.findIdx? (·.name == n)).getD 0 } }, ys⟩

/-- Relocations of an object at a place, but for those that the link will refuse. -/
def applyKnown (o : Adko) : List Reloc → List Byte → List Byte
  | [], d => d
  | r :: rs, d => match applyRels [o] (layout [o] 0x100000) 0 [r] d with
    | .ok d => applyKnown o rs d
    | .error _ => applyKnown o rs d

/-- The symbol is defined in an object. -/
def Adko.defines (o : Adko) (n : Name) : Bool := o.syms.any fun y => y.name == n && y.sect != 0

/-- A schedule given by a symbol of another object. -/
def LaunchKeys.schedAhead (k : LaunchKeys) (o : Adko) : Bool := match k.sched with
  | some (.sym n _) => !o.defines n
  | _ => false

/-- The conditions of R157 that a record alone decides, with the symbols of this object at any aligned place and those of other
objects left unchecked (R220): CODE is a VA pointer aligned to 256, COPYSCHED is aligned to 64, and the fields are as R157
has them. -/
def launchOk (o : Adko) (off : Nat) (k : LaunchKeys) : Bool :=
  let known (r : Reloc) : Bool := (o.syms[r.sym]?.map (·.sect != 0)).getD false
  match o.sects.find? (·.kind == .launch) with
  | none => false
  | some t =>
    let d := ((applyKnown o (t.rels.filter known) t.data).drop off).take 256
    let len := if o.defines k.unit then recWord d 1 else setFld (recWord d 1) 0 32 65536
    let sched : W64 := if k.schedAhead o then 64 else recWord d 9
    let v := d.take 8 ++ toBytes len.toNat 8 ++ (d.drop 16).take 56 ++ toBytes sched.toNat 8 ++ d.drop 80
    spaceOf (fld (recWord d 0) 60 4) == some .va && (recWord d 0).toNat % 256 == 0 && sched.toNat % 64 == 0
      && recordFields ⟨0, 0, 0, 0, 0, 0, BitVec.ofNat 2048 (ofBytes v), 0, 0, none, 0, [], [], [], [], 0, [], [], 0, false⟩

/-- Lines in order. -/
def Asm.lines (a : Asm) : List Line → Option Asm
  | [] => some a
  | l :: r => (a.line l).bind fun b => b.lines r

/-- Assemble a source (R198 to R221); none is an assembly error. -/
def assemble (src : List Line) : Option Adko := do
  let a ← Asm.lines ⟨[], [], [], none, .none, false, [], [], [], [], [], [], []⟩ src
  let a ← a.outside
  let a ← a.endLaunches a.launches
  let o := a.object
  if a.sects.isEmpty || !(a.launches.all fun l => launchOk o l.1 l.2) || !a.tensors.all a.tensorOk then none else some o

end Sys2Proof.Machine
end

