-- ==== Sys2Proof/Machine/Assembly.lean ====
section
/-! DEFINITION. The assembly language of slots and micro-words (R199 to R201, R307): the form of each row of the encoding
tables, and the word of a line's text. -/
namespace Sys2Proof.Machine

/-- The bytes of a spelling. -/
def spell (s : String) : Name := ascii s.toList

/-- An operand, in the field whose low bit is `lo` (R188, R199, R240, R242). -/
inductive Part where
  | dest
  | src (lo : Nat)
  | object (letters : String) (count lo : Nat)
  | level
  | word (w : String)
  | target
  | imm (lo width : Nat) (signed : Bool)
  | offset
  | csr
deriving DecidableEq, Repr

/-- The values of a modifier (R200): a number of some bits, or names whose codes count from 0. -/
inductive Values where
  | num (width : Nat)
  | names (l : List String)
deriving DecidableEq, Repr

/-- A modifier and the low bit of its field (R200). -/
structure Modifier where
  (field : String) (lo : Nat) (values : Values)
deriving DecidableEq, Repr

/-- What the rows of one shape write: the bits that the encoding fixes, the operands, the modifiers, and whether `sc=`, `aq=` and
`ch=` select an ORD code (R189, R199, R200). -/
structure Shape where
  (mask : Nat) (ops : List Part) (mods : List Modifier) (ord : Bool)
deriving DecidableEq, Repr

/-- The scope names in the order of their codes (R189). -/
def scopes : List String := ["core", "die", "dev", "sys"]

/-- The format names in the order of their codes (R37, R218). -/
def formats : List String :=
  ["tq8", "tq6", "e4m3", "e5m2", "bf16", "fp16", "fp32", "int8", "int16", "int32", "int64", "uint8", "uint16", "uint32", "uint64",
   "e8m0"]

def fa : Modifier := ⟨"fa", 12, .num 1⟩
def fb : Modifier := ⟨"fb", 5, .num 1⟩
def sz : Modifier := ⟨"sz", 10, .names ["b", "h", "w", "d", "l", "v"]⟩

/-- The control registers that have a name, with their numbers (R197, R312, R315, R362, R389). -/
def csrNames : List (String × Nat) :=
  [("CTXID", 0x000), ("ASID", 0x001), ("ASPERM", 0x002), ("PTROOT", 0x003), ("SPLIT", 0x004), ("PCLASS", 0x005),
   ("FPFLAGS", 0x006), ("MFMT0", 0x040), ("MFMT1", 0x041), ("PERT0", 0x042), ("PERT1", 0x043), ("PSIG0", 0x044),
   ("PSIG1", 0x045), ("MSTAT0", 0x046), ("MSTAT1", 0x047), ("WLDELTA", 0x060), ("WLCFG", 0x061), ("WLSPILL", 0x062),
   ("WLSTAT", 0x063), ("FAULT_INFO", 0x070), ("FAULT_ADDR", 0x071), ("TRAP_PC", 0x072), ("DEV_STATUS", 0x0F0)]

/-- Rows of the encoding tables: shapes with their mnemonics and fixed bits. -/
def slotForms0 : List (Shape × List (String × Nat)) := [
  (⟨0x7E00001F, [.dest, .src 13, .src 6], [fa, fb], false⟩,
    [("alu.add", 0x00000001), ("alu.sub", 0x00000002), ("alu.mul", 0x00000003), ("alu.mulhs", 0x00000004),
     ("alu.mulhu", 0x00000005), ("alu.div", 0x00000006), ("alu.divu", 0x00000007), ("alu.rem", 0x00000008),
     ("alu.remu", 0x00000009), ("alu.min", 0x0000000A), ("alu.max", 0x0000000B), ("alu.minu", 0x0000000C),
     ("alu.maxu", 0x0000000D), ("alu.and", 0x02000000), ("alu.or", 0x02000001), ("alu.xor", 0x02000002),
     ("alu.andn", 0x02000003), ("alu.shl", 0x02000004), ("alu.shr", 0x02000005), ("alu.sar", 0x02000006),
     ("alu.rotl", 0x02000007), ("alu.rotr", 0x02000008), ("bit.ext", 0x04000000), ("bit.extu", 0x04000001),
     ("bit.ins", 0x04000002), ("bit.set", 0x04000003), ("bit.clr", 0x04000004), ("bit.tst", 0x04000005),
     ("cmp.eq", 0x06000000), ("cmp.ne", 0x06000001), ("cmp.lt", 0x06000002), ("cmp.ltu", 0x06000003),
     ("cmp.le", 0x06000004), ("cmp.leu", 0x06000005), ("sel.c0", 0x08000000), ("sel.c1", 0x08000001),
     ("sel.c2", 0x08000002), ("sel.c3", 0x08000003), ("sel.c4", 0x08000004), ("sel.c5", 0x08000005),
     ("sel.c6", 0x08000006), ("sel.c7", 0x08000007), ("addr.spl", 0x0C000002), ("addr.spd", 0x0C000003),
     ("addr.pdv", 0x0C000004), ("addr.peer", 0x0C000005), ("fp.add", 0x18000000), ("fp.sub", 0x18000001),
     ("fp.mul", 0x18000002), ("fp.div", 0x18000003), ("fp.fma", 0x18000005), ("fp.min", 0x18000006),
     ("fp.max", 0x18000007), ("fp.eq", 0x1800000A), ("fp.lt", 0x1800000B), ("fp.le", 0x1800000C),
     ("fp.un", 0x1800000D), ("mem.ldxb", 0x2C000000), ("mem.ldxh", 0x2C000001), ("mem.ldxw", 0x2C000002),
     ("mem.ldxd", 0x2C000003), ("mem.ldxv", 0x2C000004), ("vec.add", 0x40000000), ("vec.sub", 0x40000001),
     ("vec.mul", 0x40000002), ("vec.fma", 0x40000003), ("vec.min", 0x40000004), ("vec.max", 0x40000005),
     ("vec.div", 0x40000008), ("vec.iadd", 0x42000000), ("vec.isub", 0x42000001), ("vec.imul", 0x42000002),
     ("vec.and", 0x42000003), ("vec.or", 0x42000004), ("vec.xor", 0x42000005), ("vec.shl", 0x42000006),
     ("vec.shr", 0x42000007), ("vec.sar", 0x42000008), ("vec.imin", 0x42000009), ("vec.imax", 0x4200000A),
     ("vec.perm", 0x4A000002), ("cvt.nar", 0x58000000), ("cvt.wid", 0x58000001), ("cvt.f2i", 0x58000002),
     ("cvt.i2f", 0x58000003), ("nm.cas", 0x72000000), ("nm.enq", 0x72000001), ("nm.chase", 0x72000003),
     ("log.append", 0x74000008)]),
  (⟨0x7E000FFF, [.dest, .src 13], [fa], false⟩,
    [("alu.clz", 0x02000009), ("alu.ctz", 0x0200000A), ("alu.popc", 0x0200000B), ("alu.bswap", 0x0200000C),
     ("alu.mov", 0x0200000D), ("addr.tag", 0x0C000000), ("addr.off", 0x0C000001), ("fp.sqrt", 0x18000004),
     ("fp.abs", 0x18000008), ("fp.neg", 0x18000009), ("ctl.callr", 0x20000003), ("vec.abs", 0x40000006),
     ("vec.neg", 0x40000007), ("vec.sqrt", 0x40000009), ("vec.sigm", 0x46000000), ("vec.exp2", 0x46000001),
     ("vec.rcp", 0x46000002), ("vec.rsq", 0x46000003), ("vec.log2", 0x46000004), ("vec.tanh", 0x46000005),
     ("vec.rsum", 0x48000000), ("vec.rmax", 0x48000001), ("vec.rmin", 0x48000002), ("vec.mov", 0x4A000000),
     ("vec.bcast", 0x4A000001), ("cvt.e8", 0x58000004), ("nm.deq", 0x72000002), ("coll.run", 0x74000000),
     ("coll.stat", 0x74000002), ("log.replay", 0x74000009), ("lvl.cancel", 0x78000008),
     ("lvl.stat", 0x78000009)]),
  (⟨0x7FC00FFF, [.object "c" 8 19, .src 13], [fa], false⟩,
    [("pr.set", 0x0A000000)]),
  (⟨0x7E071FFF, [.dest, .object "c" 8 13], [], false⟩,
    [("pr.get", 0x0A000001)]),
  (⟨0x7FC71E3F, [.object "c" 8 19, .object "c" 8 13, .object "c" 8 6], [], false⟩,
    [("pr.and", 0x0A000002), ("pr.or", 0x0A000003)]),
  (⟨0x7FC71FFF, [.object "c" 8 19, .object "c" 8 13], [], false⟩,
    [("pr.not", 0x0A000004)]),
  (⟨0x7E000000, [.dest, .imm 0 19 true], [], false⟩,
    [("imm.lo", 0x0E000000)]),
  (⟨0x7E000000, [.dest, .imm 0 19 false], [], false⟩,
    [("imm.hi", 0x10000000)]),
  (⟨0x7E000000, [.dest, .src 13, .imm 0 12 true], [fa], false⟩,
    [("alu.addi", 0x12000000), ("alu.andi", 0x14000000)]),
  (⟨0x7E000FF0, [.dest, .src 13, .imm 0 12 false], [fa], false⟩,
    [("addr.tagi", 0x16000000)]),
  (⟨0x7FFFFFFF, [], [], false⟩,
    [("ctl.nop", 0x20000000), ("ctl.end", 0x20000001), ("cp.stage", 0x70000000), ("wl.done", 0x76000002),
     ("sys.shinv", 0x78000001), ("trap.ret", 0x78000011)]),
  (⟨0x7FF80FFF, [.src 13], [fa], false⟩,
    [("ctl.jr", 0x20000002), ("ctl.ret", 0x20000004), ("ctl.setmpc", 0x20000006), ("own.give", 0x70000008),
     ("own.take", 0x70000009), ("coll.abort", 0x74000001), ("log.resume", 0x7400000A),
     ("sys.flush", 0x78000000), ("trap.raise", 0x78000010)])]

/-- Rows of the encoding tables: shapes with their mnemonics and fixed bits. -/
def slotForms1 : List (Shape × List (String × Nat)) := [
  (⟨0x7E00001F, [.level, .src 13, .imm 5 7 false], [fa], false⟩,
    [("ctl.loop", 0x20000005)]),
  (⟨0x7F800FFF, [.object "k" 16 19, .src 13], [fa], false⟩,
    [("ctl.kadd", 0x20000007)]),
  (⟨0x7FF80000, [.word "al", .target], [], false⟩,
    [("ctl.br", 0x22000000)]),
  (⟨0x7F400000, [.object "c" 8 19, .target], [⟨"neg", 23, .num 1⟩], false⟩,
    [("ctl.br", 0x22400000)]),
  (⟨0x7E000000, [.dest, .target], [], false⟩,
    [("ctl.call", 0x24000000)]),
  (⟨0x7E01F01F, [.object "k" 16 19, .src 6], [⟨"sc", 17, .names scopes⟩, fb], false⟩,
    [("ctl.wait", 0x26000000)]),
  (⟨0x7E000000, [.dest, .src 13, .offset], [sz], true⟩,
    [("mem.ld", 0x28000000)]),
  (⟨0x7E000000, [.src 19, .src 13, .offset], [sz], true⟩,
    [("mem.st", 0x2A000000)]),
  (⟨0x7E00001F, [.src 19, .src 13, .src 6], [fa, fb], false⟩,
    [("mem.stxb", 0x2C000008), ("mem.stxh", 0x2C000009), ("mem.stxw", 0x2C00000A), ("mem.stxd", 0x2C00000B),
     ("mem.stxv", 0x2C00000C)]),
  (⟨0x7FE7FFFF, [], [⟨"sc", 19, .names scopes⟩], false⟩,
    [("mem.drain", 0x2C000010)]),
  (⟨0x7FF8001F, [.src 13, .src 6], [fa, fb], false⟩,
    [("mem.pf", 0x2C000011), ("cp.batch", 0x70000001), ("cp.rread", 0x70000002), ("wl.push", 0x76000000),
     ("sys.tinv", 0x78000002)]),
  (⟨0x7F800C3F, [.object "w" 16 19, .src 13], [fa, ⟨"aq", 9, .num 1⟩, ⟨"wr", 8, .num 1⟩, ⟨"sc", 6, .names scopes⟩], false⟩,
    [("view.open", 0x2E000000)])]

/-- Rows of the encoding tables: shapes with their mnemonics and fixed bits. -/
def slotForms2 : List (Shape × List (String × Nat)) := [
  (⟨0x7F87FF3F, [.object "w" 16 19], [⟨"sc", 6, .names scopes⟩], false⟩,
    [("view.retire", 0x2E000001)]),
  (⟨0x7F800F1F, [.object "w" 16 19, .src 13], [fa, ⟨"fld", 5, .names ["tmpl", "o0", "o1", "o2", "o3", "o4"]⟩], false⟩,
    [("view.set", 0x2E000002)]),
  (⟨0x7E061F1F, [.dest, .object "w" 16 13, .imm 5 3 false], [], false⟩,
    [("view.get", 0x2E000003)]),
  (⟨0x7E000030, [.dest, .src 13, .object "w" 16 0], [sz], true⟩,
    [("ten.ld", 0x30000000)]),
  (⟨0x7E000030, [.dest, .object "w" 16 0, .src 13], [sz], true⟩,
    [("ten.ld", 0x30000000)]),
  (⟨0x7E000030, [.src 19, .src 13, .object "w" 16 0], [sz], true⟩,
    [("ten.st", 0x32000000)]),
  (⟨0x7E000030, [.src 19, .object "w" 16 0, .src 13], [sz], true⟩,
    [("ten.st", 0x32000000)]),
  (⟨0x7E00003F, [.dest, .src 13], [sz], true⟩,
    [("atom.add", 0x38000000), ("atom.and", 0x38000001), ("atom.or", 0x38000002), ("atom.xor", 0x38000003),
     ("atom.smin", 0x38000004), ("atom.smax", 0x38000005), ("atom.umin", 0x38000006),
     ("atom.umax", 0x38000007), ("atom.swap", 0x38000008)]),
  (⟨0x7E001C3F, [.dest, .src 13], [sz], true⟩,
    [("atom.fadd", 0x38000809), ("atom.fmin", 0x3800080A), ("atom.fmax", 0x3800080B)]),
  (⟨0x7E000000, [.dest, .src 13, .src 0], [sz], true⟩,
    [("atom.cas", 0x3A000000)]),
  (⟨0x7E000000, [.dest, .src 13], [sz, ⟨"to", 0, .num 6⟩], true⟩,
    [("mon.wait", 0x3C000000)]),
  (⟨0x7E01F01F, [.object "ph" 48 19, .src 6], [⟨"sc", 17, .names scopes⟩, fb], false⟩,
    [("ph.wait", 0x3E000000), ("ph.sig", 0x3E000001), ("ph.drop", 0x3E000003)])]

/-- Rows of the encoding tables: shapes with their mnemonics and fixed bits. -/
def slotForms3 : List (Shape × List (String × Nat)) := [
  (⟨0x7E01F01F, [.object "ph" 48 19, .src 6], [⟨"mode", 17, .names ["", "s", "w", "sw"]⟩, fb], false⟩,
    [("ph.reg", 0x3E000002)]),
  (⟨0x7E07F01F, [.object "ph" 48 19, .src 6], [fb], false⟩,
    [("ph.expect", 0x3E000004)]),
  (⟨0x7FC0001F, [.object "c" 8 19, .src 13, .src 6], [fa, fb], false⟩,
    [("vec.eq", 0x44000000), ("vec.ne", 0x44000001), ("vec.lt", 0x44000002), ("vec.le", 0x44000003),
     ("vec.ieq", 0x44000004), ("vec.ilt", 0x44000005)]),
  (⟨0x7E000E3F, [.dest, .src 13, .object "c" 8 6], [fa], false⟩,
    [("vec.rsum", 0x48000200), ("vec.rmax", 0x48000201), ("vec.rmin", 0x48000202), ("vec.sel", 0x4A000003)]),
  (⟨0x7E000E1F, [.dest, .src 13], [fa, ⟨"fmt", 5, .names formats⟩], false⟩,
    [("vec.dotg", 0x48000003)]),
  (⟨0x7E00081F, [.dest, .src 13, .imm 5 6 false], [fa], false⟩,
    [("vec.lane", 0x4A000004), ("vec.ins", 0x4A000005)]),
  (⟨0x7E000E1F, [.dest, .src 13, .object "me" 2 8, .object "acc" 8 5], [fa], false⟩,
    [("acc.rd", 0x4C000000), ("acc.rdk", 0x4C000001)]),
  (⟨0x7E000E1F, [.dest, .src 13], [fa, ⟨"fmt", 5, .names formats⟩, ⟨"sat", 9, .num 1⟩, ⟨"dir", 10, .names ["nar", "wid"]⟩], false⟩,
    [("cvt.sf2i", 0x5A000000), ("cvt.si2f", 0x5A000001)]),
  (⟨0x7E00081F, [.dest, .src 13], [fa, ⟨"fmt", 5, .names formats⟩, ⟨"sat", 9, .num 1⟩, ⟨"dir", 10, .names ["nar", "wid"]⟩], false⟩,
    [("cvt.sf2b", 0x5A000002)]),
  (⟨0x7E07FC00, [.object "me" 2 8, .imm 0 8 false, .object "ph" 48 19], [⟨"sp", 9, .num 1⟩], false⟩,
    [("mat.call", 0x60000000)]),
  (⟨0x7FFFFC00, [.object "me" 2 8, .imm 0 8 false], [⟨"sp", 9, .num 1⟩], false⟩,
    [("mat.call", 0x61F80000)]),
  (⟨0x7FF7FFFF, [.object "me" 2 19], [], false⟩,
    [("mat.drain", 0x62000000)])]

/-- Rows of the encoding tables: shapes with their mnemonics and fixed bits. -/
def slotForms4 : List (Shape × List (String × Nat)) := [
  (⟨0x7FC00FFF, [.object "p" 8 19, .src 13], [fa], false⟩,
    [("mat.setp", 0x62000001)]),
  (⟨0x7E071FFF, [.dest, .object "p" 8 13], [], false⟩,
    [("mat.getp", 0x62000002)]),
  (⟨0x7FF00FFF, [.object "me" 2 19, .src 13], [fa], false⟩,
    [("mat.cfg", 0x62000003)]),
  (⟨0x7FF0001F, [.object "me" 2 19, .src 13, .src 6], [fa, fb], false⟩,
    [("mat.pert", 0x62000004)]),
  (⟨0x7E07FFFF, [.dest], [], false⟩,
    [("wl.pop", 0x76000001)]),
  (⟨0x7E07F000, [.dest, .csr], [], false⟩,
    [("sys.csrr", 0x7A000000)]),
  (⟨0x7FF80000, [.src 13, .csr], [fa], false⟩,
    [("sys.csrw", 0x7C000000)])]

/-- Every slot of the encoding tables (R194 to R196, R199). -/
def slotForms : List (Shape × List (String × Nat)) := slotForms0 ++ slotForms1 ++ slotForms2 ++ slotForms3 ++ slotForms4

/-- The micro-words (R306, R307). -/
def microForms : List (Shape × List (String × Nat)) :=
  let op (n : Nat) : Nat := n <<< 56
  let ip : Modifier := ⟨"ip", 63, .num 1⟩
  let all : Nat := 0x7FFFFFFFFFFFFFFF
  let but (l : List (Nat × Nat)) : Nat := l.foldl (fun m (lo, w) => m - ((2 ^ w - 1) <<< lo)) all
  [(⟨but [(0, 16)], [], [⟨"acc", 0, .num 8⟩, ⟨"par", 8, .num 8⟩, ip], false⟩, [("mu.decl", op 0)]),
   (⟨all, [], [ip], false⟩, [("mu.end", op 1)]),
   (⟨but [(53, 3), (50, 3), (44, 1)], [.object "p" 8 53, .object "p" 8 50], [⟨"sp", 44, .num 1⟩, ip], false⟩, [("mu.ldb", op 2)]),
   (⟨but [(53, 3), (45, 2), (44, 1)], [.object "la" 4 45, .object "p" 8 53], [⟨"sp", 44, .num 1⟩, ip], false⟩, [("mu.lda", op 3)]),
   (⟨but [(47, 3), (45, 2), (44, 1)], [.object "acc" 8 47, .object "la" 4 45], [⟨"z", 44, .num 1⟩, ip], false⟩, [("mu.mac", op 4)]),
   (⟨but [(47, 3)], [.object "acc" 8 47], [ip], false⟩, [("mu.zacc", op 5)]),
   (⟨but [(47, 3), (53, 3)], [.object "acc" 8 47, .object "p" 8 53], [ip], false⟩, [("mu.ldacc", op 6)]),
   (⟨but [(47, 3), (53, 3), (44, 1)], [.object "p" 8 53, .object "acc" 8 47], [⟨"sat", 44, .num 1⟩, ip], false⟩, [("mu.stacc", op 7)]),
   (⟨but [(47, 3), (0, 3)], [.object "acc" 8 47, .object "acc" 8 0], [ip], false⟩, [("mu.accadd", op 8)]),
   (⟨but [(53, 3), (0, 32)], [.object "p" 8 53, .imm 0 32 true], [ip], false⟩, [("mu.padd", op 9)]),
   (⟨but [(50, 3), (0, 32)], [.object "p" 8 50, .imm 0 32 true], [ip], false⟩, [("mu.lbadd", op 10)]),
   (⟨but [(44, 1), (0, 32)], [.object "n" 2 44, .imm 0 32 false], [ip], false⟩, [("mu.cset", op 11)]),
   (⟨but [(44, 1), (0, 12)], [.object "n" 2 44, .imm 0 12 false], [ip], false⟩, [("mu.cloop", op 12)]),
   (⟨but [(0, 6)], [.object "ph" 48 0], [ip], false⟩, [("mu.sig", op 13)])]

/-- Is a byte a blank? -/
def blank (b : Byte) : Bool := b == 0x20 || b == 0x09 || b == 0x0D

/-- A text cut at each byte `c`. -/
def cutAt (c : Byte) : List Byte → List (List Byte)
  | [] => [[]]
  | b :: r => if b == c then [] :: cutAt c r else match cutAt c r with
    | [] => [[b]]
    | x :: xs => (b :: x) :: xs

/-- A text without the blanks at its ends. -/
def trim (l : List Byte) : List Byte := ((l.dropWhile blank).reverse.dropWhile blank).reverse

/-- The words of a text. -/
def wordsIn (l : List Byte) : List (List Byte) := (cutAt 0x20 (l.map fun b => if blank b then 0x20 else b)).filter (!·.isEmpty)

/-- The value of a digit of a base. -/
def digit (base : Nat) (b : Byte) : Option Nat :=
  let n := b.toNat
  let v := if 0x30 ≤ n && n ≤ 0x39 then n - 0x30 else if 0x41 ≤ n && n ≤ 0x46 then n - 0x37 else if 0x61 ≤ n && n ≤ 0x66 then n - 0x57
    else 99
  if v < base then some v else none

/-- Digits, with underscores between them (R2, R201). -/
def digits (base acc : Nat) : List Byte → Option Nat
  | [] => some acc
  | b :: r => if b == 0x5F then digits base acc r else (digit base b).bind fun d => digits base (acc * base + d) r

/-- A number without a sign (R201). -/
def natural : List Byte → Option Nat
  | 0x30 :: 0x78 :: b :: r => digits 16 0 (b :: r)
  | 0x30 :: 0x62 :: b :: r => digits 2 0 (b :: r)
  | [] => none
  | b :: r => if b == 0x5F then none else digits 10 0 (b :: r)

/-- A number (R201). -/
def number : List Byte → Option Int
  | 0x2D :: r => (natural r).map fun n => -(Int.ofNat n)
  | l => (natural l).map Int.ofNat

/-- A number, or a name that `.equ` defines (R201). -/
def valueOf (env : List (Name × Int)) (l : List Byte) : Option Int :=
  (number l).orElse fun _ => (env.find? (·.1 == l)).map (·.2)

/-- A number after a prefix, below a count: w3, ph12, acc1 (R199). -/
def numbered (letters : Name) (count : Nat) (l : List Byte) : Option Nat :=
  if l.take letters.length != letters || l.length == letters.length then none
  else (digits 10 0 (l.drop letters.length)).bind fun n => if n < count && !(l.drop letters.length).contains 0x5F then some n else none

/-- An operand code read (R188). -/
def sourceCode (l : List Byte) : Option Nat :=
  (numbered (spell "q") 16 l).orElse fun _ => ((numbered (spell "g") 32 l).map (· + 16)).orElse fun _ =>
    (numbered (spell "h") 16 l).map (· + 48)

/-- An operand code written: the queue is `q` (R188, R199). -/
def destCode (l : List Byte) : Option Nat :=
  if l == spell "q" then some 0
  else ((numbered (spell "g") 32 l).map (· + 16)).orElse fun _ => (numbered (spell "h") 16 l).map (· + 48)

/-- A number in an immediate field (R201). -/
def immField (width : Nat) (signed : Bool) (v : Int) : Option Nat :=
  if signed then signedField width v else if 0 ≤ v && v < 2 ^ width then some v.toNat else none

/-- The bits of an operand, and the label that a branch names (R188, R189, R199, R201). `size` is that of the access. -/
def Part.read (env : List (Name × Int)) (size : Nat) (p : Part) (l : List Byte) : Option (Nat × Option Name) :=
  let at' (lo : Nat) (v : Option Nat) : Option (Nat × Option Name) := v.map fun n => (n <<< lo, none)
  match p with
  | .dest => at' 19 (destCode l)
  | .src lo => at' lo (sourceCode l)
  | .object letters count lo => at' lo (numbered (spell letters) count l)
  | .level => at' 19 (numbered (spell "lp") 2 l)
  | .word w => if l == spell w then some (0, none) else none
  | .target => match valueOf env l with
    | some v => at' 0 (signedField 19 v)
    | none => if nameOk l then some (0, some l) else none
  | .imm lo width signed => at' lo ((valueOf env l).bind (immField width signed))
  | .offset => (valueOf env l).bind fun v =>
      if v % (size : Int) == 0 then at' 0 (immField 6 false (v / (size : Int))) else none
  | .csr => at' 0 (((csrNames.find? fun x => spell x.1 == l).map (·.2)).orElse fun _ => (valueOf env l).bind (immField 12 false))

/-- The operands of a row, all of them in order. -/
def readParts (env : List (Name × Int)) (size : Nat) : List Part → List (List Byte) → Option (Nat × Option Name)
  | [], [] => some (0, none)
  | p :: ps, l :: ls => (p.read env size l).bind fun (v, n) => (readParts env size ps ls).map fun (w, m) => (v ||| w, n.orElse fun _ => m)
  | _, _ => none

/-- The code of a modifier's value (R200). -/
def Values.read (env : List (Name × Int)) (v : Values) (l : List Byte) : Option Nat :=
  match v with
  | .num w => (valueOf env l).bind (immField w false)
  | .names ns => if l.isEmpty then none else ns.findIdx? fun n => spell n == l

/-- The ORD code that `sc=`, `aq=` and `ch=` select (R189, R200). -/
def ordCode (sc aq ch : Option (List Byte)) : Option Nat := do
  let hint ← match ch with
    | none => some 0
    | some l => ["def", "nol1", "stream"].findIdx? fun n => spell n == l
  let acq ← match aq with
    | none => some 0
    | some l => (natural l).bind fun n => if n < 2 then some n else none
  match sc with
  | none => if acq == 0 then some hint else none
  | some l =>
    let c ← scopes.findIdx? fun n => spell n == l
    if hint != 0 then none else some ((if acq == 1 then 9 else 4) + c)

/-- The value of a modifier that is written. -/
def given (ms : List (Name × List Byte)) (n : String) : Option (List Byte) := (ms.find? (·.1 == spell n)).map (·.2)

/-- The word of a row with its operands and modifiers; none where a value has no code, a modifier is not the row's or is given
twice, an operand is missing, `sz=` is not written in form E, or the word leaves the row (R199 to R201). -/
def Shape.assemble (env : List (Name × Int)) (f : Shape) (fixed : Nat) (ops : List (List Byte)) (ms : List (Name × List Byte)) :
    Option (Nat × Option Name) := do
  let fields := f.mods.map Modifier.field ++ if f.ord then ["sc", "aq", "ch"] else []
  if repeats (ms.map (·.1)) || !(ms.all fun m => fields.any fun n => spell n == m.1) then none
  if f.mods.contains sz && (given ms "sz").isNone then none
  let mods ← f.mods.foldlM (fun w m => match given ms m.field with
    | none => some w
    | some l => (m.values.read env l).map fun v => w ||| v <<< m.lo) 0
  let ord ← if f.ord then ordCode (given ms "sc") (given ms "aq") (given ms "ch") else some 0
  let size := if f.mods.contains sz then [1, 2, 4, 8, 128, 256].getD (mods / 2 ^ 10 % 8) 1 else 1
  let (w, label) ← readParts env size f.ops ops
  let w := fixed ||| mods ||| ord <<< 6 ||| w
  if w &&& f.mask == fixed then some (w, label) else none

/-- A modifier, `field=value` (R200). -/
def modifier (l : List Byte) : Option (Name × List Byte) :=
  match cutAt 0x3D l with
  | [n, v] => some (n, v)
  | _ => none

/-- Modifiers, and nothing after them. -/
def modifiers : List (List Byte) → Option (List (Name × List Byte))
  | [] => some []
  | l :: r => (modifier l).bind fun m => (modifiers r).map (m :: ·)

/-- Operands, separated by commas, and the modifiers after them (R199, R200). -/
def operands (l : List Byte) : Option (List (List Byte) × List (Name × List Byte)) :=
  let pieces := (cutAt 0x2C l).map wordsIn
  if pieces.dropLast.any (·.length != 1) || (pieces.length != 1 && (pieces.getLast?.map List.isEmpty).getD false) then none
  else
    let ts := pieces.flatten
    let ops := ts.takeWhile fun t => !t.contains 0x3D
    (modifiers (ts.drop ops.length)).map fun ms => (ops, ms)

/-- The word of a slot or a micro-word's text under a table of forms (R199). -/
def wordOf (forms : List (Shape × List (String × Nat))) (env : List (Name × Int)) (l : List Byte) : Option (Nat × Option Name) :=
  let m := l.takeWhile fun b => !blank b
  (operands (l.drop m.length)).bind fun (ops, ms) => forms.findSome? fun (f, rows) =>
    (rows.find? fun r => spell r.1 == m).bind fun r => f.assemble env r.2 ops ms

/-- The word of a slot, with the label that a branch names (R199 to R201). -/
def slotWord (env : List (Name × Int)) (l : List Byte) : Option (W32 × Option Name) :=
  (wordOf slotForms env l).map fun (w, n) => (BitVec.ofNat 32 w, n)

/-- The micro-word of a line (R307). -/
def microOf (env : List (Name × Int)) (l : List Byte) : Option Nat := (wordOf microForms env l).map (·.1)

end Sys2Proof.Machine
end

