-- ==== Sys2Proof/Machine/Source.lean ====
section
/-! DEFINITION. Source text to source lines (R198 to R201, R216 to R221): comments, labels, bundles, micro-words and directives. -/
namespace Sys2Proof.Machine

/-- The names that `.equ` has given a number so far (R201). -/
abbrev Equs := List (Name × Int)

/-- A number that is not negative. -/
def natOf (env : Equs) (l : List Byte) : Option Nat := (valueOf env l).bind fun v => if 0 ≤ v then some v.toNat else none

/-- A name (R204). -/
def nameOf (l : List Byte) : Option Name := if nameOk l then some l else none

/-- An expression: a number, a symbol, or a symbol plus or minus a number; blanks may stand around the sign (R216). -/
def exprIn (env : Equs) (l : List Byte) : Option Expr :=
  let t := trim l
  match number t with
  | some v => some (.num v)
  | none =>
    let n := t.takeWhile fun b => nameChar b
    (nameOf n).bind fun n => match trim (t.drop n.length) with
      | [] => some (.sym n 0)
      | 0x2B :: r => (valueOf env (trim r)).map fun v => .sym n v
      | 0x2D :: r => (valueOf env (trim r)).map fun v => .sym n (-v)
      | _ => none

/-- A value list, written with colons (R216). -/
def listOf {α : Type} (f : List Byte → Option α) (l : List Byte) : Option (List α) := (cutAt 0x3A l).mapM fun x => f (trim x)

/-- The arguments of a directive: positional operands, then `key=value` operands (R216). -/
def arguments (l : List Byte) : Option (List (List Byte) × List (Name × List Byte)) :=
  if (trim l).isEmpty then some ([], [])
  else
    let ps := (cutAt 0x2C l).map trim
    let ops := ps.takeWhile fun p => !p.contains 0x3D
    ((ps.drop ops.length).mapM fun p => (modifier p).map fun (n, v) => (trim n, trim v)).map fun ks => (ops, ks)

/-- Keys that are all of the directive, each given once but for `many`, with the required ones there (R216). -/
def keysOk (allowed required many : List String) (ks : List (Name × List Byte)) : Bool :=
  ks.all (fun k => (allowed ++ required ++ many).any fun n => spell n == k.1)
    && !repeats ((ks.map (·.1)).filter fun k => !(many.any fun n => spell n == k))
    && required.all fun n => (given ks n).isSome

/-- The value of a key, or its default. -/
def keyOr {α : Type} (ks : List (Name × List Byte)) (n : String) (d : α) (f : List Byte → Option α) : Option α :=
  match given ks n with
  | none => some d
  | some l => f l

/-- One of some names, as its number. -/
def oneOf (ns : List String) (l : List Byte) : Option Nat := ns.findIdx? fun n => spell n == l

/-- A pair with a colon between its parts. -/
def pairOf {α β : Type} (f : List Byte → Option α) (g : List Byte → Option β) (l : List Byte) : Option (α × β) :=
  match cutAt 0x3A l with
  | [a, b] => (f (trim a)).bind fun x => (g (trim b)).map fun y => (x, y)
  | _ => none

/-- Pairs in one value list. -/
def pairsIn {α : Type} : List α → Option (List (α × α))
  | [] => some []
  | [_] => none
  | a :: b :: r => (pairsIn r).map ((a, b) :: ·)

/-- The keys of `.tensor` (R218). -/
def tensorKeys (env : Equs) (ks : List (Name × List Byte)) : Option TensorKeys := do
  if !keysOk ["stride", "base", "ali" ++ "as", "tscale", "bscale", "shard", "sdim", "sext", "sgrid"] ["tid", "fmt", "ext"] [] ks then none
  let n := natOf env
  some ⟨← (given ks "tid").bind n, ← (given ks "fmt").bind (oneOf formats), ← (given ks "ext").bind (listOf n),
    ← keyOr ks "stride" [] (listOf (valueOf env)), ← keyOr ks "base" (.num 0) (exprIn env), ← keyOr ks ("ali" ++ "as") 0 n,
    ← keyOr ks "tscale" 0x7F n, ← keyOr ks "bscale" none fun l => (pairOf n (exprIn env) l).map some, ← keyOr ks "shard" 0 n,
    ← keyOr ks "sdim" [] (listOf n), ← keyOr ks "sext" [] (listOf n), ← keyOr ks "sgrid" [] (listOf n)⟩

/-- The keys of `.shard` (R219). -/
def shardKeys (env : Equs) (ks : List (Name × List Byte)) : Option ShardKeys := do
  if !keysOk ["vault", "layout"] ["tid", "device", "die", "column", "space", "base"] [] ks then none
  let n := natOf env
  some ⟨← (given ks "tid").bind n, ← (given ks "device").bind n, ← (given ks "die").bind n, ← (given ks "column").bind n,
    ← keyOr ks "vault" 0 n, ← (given ks "space").bind (oneOf ["dram", "spad", "va"]), ← keyOr ks "layout" 0 n, ← (given ks "base").bind n⟩

/-- The keys of `.view` (R219). -/
def viewKeys (env : Equs) (ks : List (Name × List Byte)) : Option ViewKeys := do
  if !keysOk ["origin", "edge"] ["tid", "vext"] ["m"] ks then none
  let n := natOf env
  let ms ← (ks.filter fun k => k.1 == spell "m").mapM fun k => match cutAt 0x3A k.2 with
    | [d, j, v] => (n (trim d)).bind fun d => (n (trim j)).bind fun j => (valueOf env (trim v)).map fun v => (d, j, v)
    | _ => none
  some ⟨← (given ks "tid").bind n, ← keyOr ks "origin" [] (listOf (valueOf env)), ms, ← (given ks "vext").bind (listOf n),
    ← keyOr ks "edge" 0 n⟩

/-- The keys of `.launch` (R220). -/
def launchKeys (env : Equs) (ks : List (Name × List Byte)) : Option LaunchKeys := do
  if !keysOk ["entry", "grid", "units", "split", "prio", "pclass", "det", "priv", "circ", "ovl", "job", "graph", "graphn", "phase",
      "phasen", "pred", "sched", "ncstage", "in", "meta", "pipe"] ["unit", "id"] [] ks then none
  let n := natOf env
  let key (k : String) : Option Nat := keyOr ks k 0 n
  let grid ← keyOr ks "grid" (1, 1, 1) fun l => (listOf n l).bind fun g => match g with
    | [x, y, z] => some (x, y, z)
    | _ => none
  some ⟨← (given ks "unit").bind nameOf, ← keyOr ks "entry" none fun l => (nameOf l).map some, ← (given ks "id").bind n, grid,
    ← keyOr ks "units" none fun l => (n l).map some, ← key "split", ← key "prio", ← keyOr ks "pclass" 0 (oneOf ["P0", "P1", "P2", "P3"]),
    ← key "det", ← key "priv", ← key "circ", ← keyOr ks "ovl" none fun l => (n l).map some, ← key "job", ← key "graph", ← key "graphn",
    ← key "phase", ← key "phasen", ← keyOr ks "pred" [] (listOf n), ← keyOr ks "sched" none fun l => (exprIn env l).map some,
    ← keyOr ks "ncstage" none fun l => (n l).map some, ← keyOr ks "in" [] fun l => (listOf n l).bind pairsIn,
    ← keyOr ks "meta" (.num 0) (exprIn env), ← keyOr ks "pipe" none fun l => (nameOf l).map some⟩

/-- The section that `.section` names (R217); a `.spad` without `vault=` is that of vault 0. DESIGN CHOICE, log 101. -/
def sectionOf (env : Equs) (ops : List (List Byte)) (ks : List (Name × List Byte)) : Option Line :=
  match ops with
  | [n] =>
    if n == spell ".spad" then if keysOk ["vault"] [] [] ks then (keyOr ks "vault" 0 (natOf env)).map (.into .spad ·) else none
    else if !ks.isEmpty then none
    else if n == spell ".data" then some (.into .data 0)
    else if n == spell ".note" then some (.into .note 0)
    else none
  | _ => none

/-- `.stage` (R221). -/
def stageOf (env : Equs) (n : List Byte) (ks : List (Name × List Byte)) : Option Line := do
  if !keysOk [] ["entry", "inq", "outq", "minc", "maxc"] [] ks then none
  let q (l : List Byte) : Option (Option Nat) := if l == spell "none" then some none else (natOf env l).map some
  some (.stage (← natOf env n) (← (given ks "entry").bind nameOf) (← (given ks "inq").bind q) (← (given ks "outq").bind q)
    (← (given ks "minc").bind (natOf env)) (← (given ks "maxc").bind (natOf env)))

/-- A directive that takes one name and no key. -/
def named (ops : List (List Byte)) (ks : List (Name × List Byte)) (f : Name → Line) : Option Line :=
  match ops, ks with
  | [n], [] => (nameOf n).map f
  | _, _ => none

/-- A directive that takes numbers and no key. -/
def numbersOf (env : Equs) (ops : List (List Byte)) (ks : List (Name × List Byte)) : Option (List Nat) :=
  if ks.isEmpty then ops.mapM (natOf env) else none

/-- A directive that takes nothing. -/
def plain (ops : List (List Byte)) (ks : List (Name × List Byte)) (l : Line) : Option Line :=
  if ops.isEmpty && ks.isEmpty then some l else none

/-- A directive that defines a symbol with keys. -/
def keyed {α : Type} (ops : List (List Byte)) (keys : Option α) (f : Name → α → Line) : Option Line :=
  match ops with
  | [n] => (nameOf n).bind fun n => keys.map (f n)
  | _ => none

/-- The directives (R216 to R221). -/
def directives : List (String × (Equs → List (List Byte) → List (Name × List Byte) → Option Line)) :=
  [(".section", sectionOf),
   (".unit", fun _ o k => named o k .unit), (".end_unit", fun _ o k => plain o k .endUnit),
   (".overlay", fun e o k => match numbersOf e o k with
     | some [n] => some (.overlay n)
     | _ => none),
   (".align", fun e o k => match numbersOf e o k with
     | some [n] => some (.align n)
     | _ => none),
   (".word", fun e o k => if k.isEmpty && !o.isEmpty then (o.mapM (exprIn e)).map .word else none),
   (".dword", fun e o k => if k.isEmpty && !o.isEmpty then (o.mapM (exprIn e)).map .dword else none),
   (".fill", fun e o k => match o, k with
     | [c, s, v], [] => (natOf e c).bind fun c => (natOf e s).bind fun s => (valueOf e v).map fun v => .fill c s v
     | _, _ => none),
   (".equ", fun e o k => match o, k with
     | [n, x], [] => (nameOf n).bind fun n => (exprIn e x).map (.equ n)
     | _, _ => none),
   (".scope", fun _ o k => match o, k with
     | w :: n :: r, [] => ((n :: r).mapM nameOf).bind fun ns =>
         if w == spell "global" then some (.scope true ns) else if w == spell "local" then some (.scope false ns) else none
     | _, _ => none),
   (".tensor", fun e o k => keyed o (tensorKeys e k) .tensor),
   (".shard", fun e o k => match o with
     | [n] => (natOf e n).bind fun n => (shardKeys e k).map (.shard n)
     | _ => none),
   (".view", fun e o k => keyed o (viewKeys e k) .view), (".launch", fun e o k => keyed o (launchKeys e k) .launch),
   (".copysched", fun _ o k => named o k .copysched), (".end_copysched", fun _ o k => plain o k .endCopysched),
   (".pipe", fun _ o k => named o k .pipe), (".end_pipe", fun _ o k => plain o k .endPipe),
   (".stage", fun e o k => match o with
     | [n] => stageOf e n k
     | _ => none),
   (".queue", fun e o k => match o with
     | [n] => if keysOk [] ["base", "depth"] [] k then (natOf e n).bind fun n => ((given k "base").bind (exprIn e)).bind fun b =>
         ((given k "depth").bind (natOf e)).map fun d => .queue n b d else none
     | _ => none),
   (".mroutine", fun e o k => if keysOk [] ["index"] [] k then keyed o ((given k "index").bind (natOf e)) .mroutine else none),
   (".end_mroutine", fun _ o k => plain o k .endMroutine),
   (".meta", fun _ o k => named o k .sparsity)]

/-- A text cut at each `||` (R198). -/
def cutBars : List Byte → List (List Byte)
  | [] => [[]]
  | 0x7C :: 0x7C :: r => [] :: cutBars r
  | b :: r => match cutBars r with
    | [] => [[b]]
    | x :: xs => (b :: x) :: xs

/-- The directive that a text begins with, and what follows its name (R216). -/
def directiveOf (l : List Byte) : Option ((Equs → List (List Byte) → List (Name × List Byte) → Option Line) × List Byte) :=
  let m := l.takeWhile fun b => !blank b
  (directives.find? fun d => spell d.1 == m).map fun d => (d.2, l.drop m.length)

/-- A bundle, a micro-word or a directive (R198, R216, R221); none is an assembly error. -/
def bodyOf (env : Equs) (l : List Byte) : Option Line :=
  match directiveOf l with
  | some (d, r) => (arguments r).bind fun (ops, ks) => d env ops ks
  | none => if l.take 3 == spell "mu." then (microOf env l).map fun w => .micro w
      else ((cutBars l).mapM fun t => slotWord env (trim t)).map .bundle

/-- The label that a line starts with, and the rest of the line (R198). -/
def labelOf (l : List Byte) : Option Name × List Byte :=
  let n := l.takeWhile fun b => nameChar b
  match l.drop n.length with
  | 0x3A :: r => if nameOk n then (some n, trim r) else (none, l)
  | _ => (none, l)

/-- The lines that a line of text stands for: a label, and a bundle or a micro-word; a directive stands alone (R198, R216). -/
def textLine (env : Equs) (l : List Byte) : Option (List Line) :=
  let t := trim (l.takeWhile fun b => b != 0x3B)
  let (n, r) := labelOf t
  let ls := (n.map Line.label).toList
  if r.isEmpty then some ls
  else if n.isSome && (directiveOf r).isSome then none
  else (bodyOf env r).map fun b => match b with
    | .bundle _ => (n.map Line.bundleLabel).toList ++ [b]
    | _ => ls ++ [b]

/-- The names that `.equ` has given a number so far, and the other absolute symbols of the source, tensors and routines (R209,
R217). -/
structure Known where
  (equs absolute : Equs)
deriving DecidableEq, Repr

/-- What a line adds to the known names (R201, R217). -/
def learn (k : Known) (l : List Byte) : Known :=
  let t := trim (l.takeWhile fun b => b != 0x3B)
  if (directiveOf t).isNone then k
  else match bodyOf k.equs t with
    | some (.equ n (.num v)) => { k with equs := (n, v) :: k.equs }
    | some (.equ n (.sym m v)) => match (k.equs ++ k.absolute).find? (·.1 == m) with
      | some x => { k with equs := (n, x.2 + v) :: k.equs }
      | none => k
    | some (.tensor n d) => { k with absolute := (n, (d.tid : Int)) :: k.absolute }
    | some (.mroutine n i) => { k with absolute := (n, (i : Int)) :: k.absolute }
    | _ => k

/-- The lines of a source text, whose lines end with byte 0x0A. A name of `.equ` may stand in a line before it. -/
def sourceLines (ls : List (List Byte)) : Option (List Line) := (ls.mapM (textLine (ls.foldl learn ⟨[], []⟩).equs)).map List.flatten

/-- The object of a source text (R198 to R201, R216 to R221); none is an assembly error. -/
def assembleText (t : List Byte) : Option Adko := (sourceLines (cutAt 0x0A t)).bind assemble

end Sys2Proof.Machine
end

