-- ==== Sys2Proof/Tests/Slice0.lean ====
section
/-! SUPPORT. Tests: the checks of the form of an instruction, decoded words written out from the encodings of the spec, and a
witness for each statement that has premises. -/
set_option Elab.async false
set_option exponentiation.threshold 4096

namespace Sys2Proof.Tests
open Sys2Proof Sys2Proof.Machine

/-- Scalar registers that hold these values, the others 0. -/
def regs (l : List (Nat × W64)) : Vector GReg 32 := l.foldl (fun v x => vset v x.1 ⟨x.2, none⟩) Ctx.reset.g

/-- Device registers that hold these words, from an offset of die 0 on. -/
def words (s : State) (off : Nat) : List W64 → State
  | [] => s
  | w :: l => words (s.setMmio 0 off w) (off + 8) l

/-- Context 0 of core 0 issues slot `n` of a bundle of an overlay of four-slot bundles, with these registers. -/
def slotAt (n : Nat) (l : List (Nat × W64)) : State :=
  ({ State.reset with bundle := some ⟨0, n, [], false, false⟩, nextId := 7 }.setCtx 0
    { Ctx.reset with status := .running, pc := 0x20, g := regs l, asperm := -1 }).setCore 0
    { Core.reset with cur := some 0, ovlWords := (List.replicate 6 [0x20000000, 0x20000000, 0x20000000, 0xA0000000]).flatten }

/-- Context 0 changed. -/
def ctx0 (s : State) (f : Ctx → Ctx) : State := s.onCtx 0 f

/-- A one-dimensional FP32 tensor of 256 elements at offset 0 of the scratchpad of core 0, number 5. -/
def withTensor (s : State) : State :=
  words s (0x200000 + 128 * 5) [0x61005, 0x1000000000000000, 256, 0, 0, 4, 0, 0, 0, 0, 0, 0x10001]

/-- A view of that tensor: one dimension of 256 elements with coefficient 1. -/
def viewWord : BitVec 512 := 256#512 <<< 384 ||| 1#512 <<< 224 ||| 1#512 <<< 16

/-- Vector registers of context 0 that hold these values. -/
def vecs (s : State) (l : List (Nat × Vec)) : State := ctx0 s fun c => { c with h := l.foldl (fun v x => vset v x.1 ⟨x.2, none⟩) c.h }

/-- A computation gives this value. -/
def gives {ε α : Type} [DecidableEq α] (x : Except ε α) (v : α) : Bool :=
  match x with
  | .ok y => decide (y = v)
  | .error _ => false

theorem ok_of_gives {ε α : Type} [DecidableEq α] {x : Except ε α} {v : α} (h : gives x v = true) : x = .ok v := by
  cases x with
  | ok y => exact congrArg _ (of_decide_eq_true h)
  | error _ => cases h

theorem ok_pair {ε α β : Type} {x : Except ε (α × β)} (h : x.isOk = true) : ∃ a b, x = .ok (a, b) := by
  cases x with
  | ok y => exact ⟨y.1, y.2, rfl⟩
  | error _ => cases h

theorem ok_some {ε α : Type} {x : Except ε α} (h : x.isOk = true) : ∃ a, x = .ok a := by
  cases x with
  | ok y => exact ⟨y, rfl⟩
  | error _ => cases h

theorem error_some {ε α : Type} {x : Except ε α} (h : x.isOk = false) : ∃ t, x = .error t := by
  cases x with
  | ok y => cases h
  | error t => exact ⟨t, rfl⟩

/-- An access passes every check and has its translation. -/
def readyNow (s : State) (k n : Nat) (op : MemOp) (ord : Ord) (v : Vec) (base ea : W64) (sz : Nat) (atomic : Bool) : Bool :=
  match checkAddr s (who s k) base ea sz atomic with
  | .ok (_, place) => (!opWrites op || ownerOk s place) && (readyAccess s k true (accessOf s k n op ord v (piecesOf place sz))).isOk
  | .error _ => false

theorem ready_of_now {s : State} {k n : Nat} {op : MemOp} {ord : Ord} {v : Vec} {base ea : W64} {sz : Nat} {atomic : Bool}
    (h : readyNow s k n op ord v base ea sz atomic = true) : ∃ r, accessReady s k n op ord v base ea sz atomic r := by
  unfold readyNow at h
  split at h
  · rename_i sp place h1
    simp only [Bool.and_eq_true, Bool.or_eq_true, Bool.not_eq_true'] at h
    obtain ⟨r, hr⟩ := ok_some h.2
    exact ⟨r, sp, place, h1, fun hw => by simpa [hw] using h.1, hr⟩
  · cases h

/-- The canonical form as a test. -/
def canon (s : State) : Bool :=
  Memory.wf s.mem && Memory.wf s.hostMem && decide (s.mmio.Pairwise fun x y => x.1 < y.1) && decide (s.splits.Pairwise fun x y => x.1 < y.1)
    && match s.bundle with
      | some p => decide (p.slot < 8)
      | none => true

theorem canonical_of {s : State} (h : canon s = true) : s.canonical := by
  unfold canon at h
  simp only [Bool.and_eq_true, decide_eq_true_eq] at h
  obtain ⟨⟨⟨⟨h1, h2⟩, h3⟩, h4⟩, h5⟩ := h
  refine ⟨h1, h2, h3, h4, fun p hp => ?_⟩
  rw [hp] at h5
  simpa using h5

/-! ### Ill-formed instructions, one for each check of R188 and R189 and of the rows -/

/-- A scalar destination takes no vector code, a scalar source none either, a vector operand no g register. -/
theorem test_operand_codes_refused : Instr.wf (.aluAdd ⟨0, 48, 21, 0, 23, 0⟩) = false ∧ Instr.wf (.aluAdd ⟨0, 21, 48, 0, 23, 0⟩) = false
    ∧ Instr.wf (.aluAdd ⟨0, 1, 21, 0, 23, 0⟩) = false ∧ Instr.wf (.vecMov ⟨0, 21, 48, 0⟩) = false ∧ Instr.wf (.vecMov ⟨0, 48, 21, 0⟩) = false
    ∧ Instr.wf (.aluAdd ⟨0, 21, 21, 0, 23, 0⟩) = true ∧ Instr.wf (.vecMov ⟨0, 48, 49, 0⟩) = true := by decide +kernel

/-- R189: D of a sized access has the type of its size. -/
theorem test_sized_operand_refused : Instr.wf (.memLd ⟨0, 48, 21, 3, 0, 0⟩) = false ∧ Instr.wf (.memLd ⟨0, 21, 21, 4, 0, 0⟩) = false
    ∧ Instr.wf (.memLd ⟨0, 48, 21, 4, 0, 0⟩) = true ∧ Instr.wf (.memSt ⟨0, 48, 21, 3, 0, 0⟩) = false := by decide +kernel

/-- R240, R242, R246, R268, R282, R299: codes with a range of their own. -/
theorem test_ranges_refused : Instr.wf (.ctlBr ⟨0, 1, 0⟩) = false ∧ Instr.wf (.ctlBr ⟨0, 16, 0⟩) = false ∧ Instr.wf (.ctlLoop ⟨0, 2, 22, 0, 4⟩) = false
    ∧ Instr.wf (.ctlWait ⟨0, 16, 0, 21, 0⟩) = false ∧ Instr.wf (.phWait ⟨0, 48, 0, 16, 0⟩) = false ∧ Instr.wf (.phReg ⟨0, 48, 1, 16, 0⟩) = false
    ∧ Instr.wf (.phExpect ⟨0, 63, 16, 0⟩) = false ∧ Instr.wf (.vecDotg ⟨0, 21, 49, 0, 2⟩) = false ∧ Instr.wf (.matCall ⟨0, 48, 0, 0, 0⟩) = false
    ∧ Instr.wf (.matCall ⟨0, 63, 0, 0, 0⟩) = true := by decide +kernel

/-- R189, R238, R256, R260, R264, R268, R282: modifier codes. -/
theorem test_modifiers_refused : Instr.wf (.memLd ⟨0, 21, 21, 7, 0, 0⟩) = false ∧ Instr.wf (.memSt ⟨0, 21, 21, 3, 9, 0⟩) = false
    ∧ Instr.wf (.memLd ⟨0, 21, 21, 3, 15, 0⟩) = false ∧ Instr.wf (.tenLd ⟨0, 21, 21, 7, 0, 0⟩) = false ∧ Instr.wf (.tenSt ⟨0, 21, 21, 3, 9, 0⟩) = false
    ∧ Instr.wf (.atomAdd ⟨0, 21, 22, 1, 0⟩) = false ∧ Instr.wf (.atomFadd ⟨0, 21, 22, 9⟩) = false ∧ Instr.wf (.atomCas ⟨0, 21, 22, 4, 0, 23⟩) = false
    ∧ Instr.wf (.monWait ⟨0, 21, 22, 1, 0, 0⟩) = false ∧ Instr.wf (.monWait ⟨0, 21, 22, 2, 0, 41⟩) = false ∧ Instr.wf (.phReg ⟨0, 3, 0, 16, 0⟩) = false
    ∧ Instr.wf (.viewSet ⟨0, 3, 21, 0, 6⟩) = false ∧ Instr.wf (.vecDotg ⟨0, 21, 48, 0, 6⟩) = false ∧ Instr.wf (.cvtSf2i ⟨0, 21, 22, 0, 0, 0, 0⟩) = false
    ∧ Instr.wf (.cvtSf2b ⟨0, 21, 22, 0, 1, 1, 0⟩) = false := by decide +kernel

/-! ### Decoded words -/

/-- The encodings that the rules of chapters 9 to 18 print. -/
theorem test_printed_encodings :
    decodeSlot 0x20000000 = .ok (.ctlNop ⟨0⟩) ∧ decodeSlot 0xA0000000 = .ok (.ctlNop ⟨1⟩)
    ∧ decodeSlot 0x28CAE820 = .ok (.memLd { s := 0, d := 25, a := 23, z := 2, o := 0, n := 32 })
    ∧ decodeSlot 0x28AAED88 = .ok (.memLd { s := 0, d := 21, a := 23, z := 3, o := 6, n := 8 })
    ∧ decodeSlot 0x60180007 = .ok (.matCall { s := 0, p := 3, x := 0, e := 0, r := 7 })
    ∧ decodeSlot 0x0002A581 = .ok (.aluAdd ⟨0, 0, 21, 0, 22, 0⟩)
    ∧ decodeSlot 0x0EB80800 = .ok (.immLo { s := 0, d := 23, i := 0x800 }) ∧ decodeSlot 0x10B80100 = .ok (.immHi { s := 0, d := 23, i := 0x100 })
    ∧ decodeSlot 0x2C080010 = .ok (.memDrain { s := 0, c := 1 })
    ∧ decodeSlot 0x2E1AA340 = .ok (.viewOpen { s := 0, w := 3, a := 21, f := 0, q := 1, r := 1, c := 1 })
    ∧ decodeSlot 0x3CC2E800 = .ok (.monWait { s := 0, d := 24, a := 23, z := 2, o := 0, t := 0 })
    ∧ decodeSlot 0x3E280400 = .ok (.phWait { s := 0, p := 5, c := 0, b := 16, g := 0 })
    ∧ decodeSlot 0x3E280401 = .ok (.phSig { s := 0, p := 5, c := 0, b := 16, g := 0 })
    ∧ decodeSlot 0x3E1E0402 = .ok (.phReg { s := 0, p := 3, m := 3, b := 16, g := 0 })
    ∧ decodeSlot 0x3E180403 = .ok (.phDrop { s := 0, p := 3, c := 0, b := 16, g := 0 })
    ∧ decodeSlot 0x3E180604 = .ok (.phExpect { s := 0, p := 3, b := 24, g := 0 })
    ∧ decodeSlot 0x62080000 = .ok (.matDrain { s := 0, e := 1 }) ∧ decodeSlot 0x6202A003 = .ok (.matCfg { s := 0, e := 0, a := 21, f := 0 })
    ∧ decodeSlot 0x6202A584 = .ok (.matPert { s := 0, e := 0, a := 21, f := 0, b := 22, g := 0 })
    ∧ decodeSlot 0x7002E008 = .ok (.ownGive { s := 0, a := 23, f := 0 }) ∧ decodeSlot 0x70030009 = .ok (.ownTake { s := 0, a := 24, f := 0 })
    ∧ decodeSlot 0xF0000000 = .ok (.cpStage ⟨1⟩) ∧ decodeSlot 0x7002E601 = .ok (.cpBatch { s := 0, a := 23, f := 0, b := 24, g := 0 })
    ∧ decodeSlot 0x72CAE601 = .ok (.nmEnq ⟨0, 25, 23, 0, 24, 0⟩)
    ∧ decodeSlot 0x7602E600 = .ok (.wlPush { s := 0, a := 23, f := 0, b := 24, g := 0 }) ∧ decodeSlot 0x76C80001 = .ok (.wlPop { s := 0, d := 25 })
    ∧ decodeSlot 0x76000002 = .ok (.wlDone ⟨0⟩) ∧ decodeSlot 0x7802E000 = .ok (.sysFlushSplit { s := 0, a := 23, f := 0 })
    ∧ decodeSlot 0x78CAE008 = .ok (.lvlCancel { s := 0, d := 25, a := 23, f := 0 }) ∧ decodeSlot 0x7803E010 = .ok (.trapRaise { s := 0, a := 31, f := 0 })
    ∧ decodeSlot 0x78000011 = .ok (.trapRet ⟨0⟩) ∧ decodeSlot 0x7AD00006 = .ok (.sysCsrr { s := 0, d := 26, i := 6 })
    ∧ decodeSlot 0x7C02E006 = .ok (.sysCsrw { s := 0, a := 23, f := 0, i := 6 }) := by
  and_intros <;> rfl

/-- The 14 micro-operations, cut as R306 and R307 cut a word; mu.decl and two more as chapter 14 prints them. -/
theorem test_decode_micro_words (e : Nat) :
    decodeMicro e 0x0000000000000401 = some (.muDecl e ⟨0, 0, 0, 0, 0, 0, 0x401⟩)
    ∧ decodeMicro e 0b0_000_0001_000_000_000_00_0_000000000000_00000000000000000000000000000000 = some (.muEnd e ⟨0, 0, 0, 0, 0, 0, 0⟩)
    ∧ decodeMicro e 0b1_000_0010_101_110_000_00_1_000000000000_00000000000000000000000000000000 = some (.muLdb e ⟨1, 5, 6, 0, 0, 1, 0⟩)
    ∧ decodeMicro e 0b0_000_0011_011_000_000_10_1_000000000000_00000000000000000000000000000000 = some (.muLda e ⟨0, 3, 0, 0, 2, 1, 0⟩)
    ∧ decodeMicro e 0b0_000_0100_000_000_110_01_1_000000000000_00000000000000000000000000000000 = some (.muMac e ⟨0, 0, 0, 6, 1, 1, 0⟩)
    ∧ decodeMicro e 0b0_000_0101_000_000_101_00_0_000000000000_00000000000000000000000000000000 = some (.muZacc e ⟨0, 0, 0, 5, 0, 0, 0⟩)
    ∧ decodeMicro e 0b0_000_0110_010_000_011_00_0_000000000000_00000000000000000000000000000000 = some (.muLdacc e ⟨0, 2, 0, 3, 0, 0, 0⟩)
    ∧ decodeMicro e 0b0_000_0111_001_000_111_00_1_000000000000_00000000000000000000000000000000 = some (.muStacc e ⟨0, 1, 0, 7, 0, 1, 0⟩)
    ∧ decodeMicro e 0b0_000_1000_000_000_010_00_0_000000000000_00000000000000000000000000000101 = some (.muAccadd e ⟨0, 0, 0, 2, 0, 0, 5⟩)
    ∧ decodeMicro e 0b0_000_1001_110_000_000_00_0_000000000000_11111111111111111111000000000001 = some (.muPadd e ⟨0, 6, 0, 0, 0, 0, 0xFFFFF001⟩)
    ∧ decodeMicro e 0b0_000_1010_000_111_000_00_0_000000000000_00000000000000000000000010000000 = some (.muLbadd e ⟨0, 0, 7, 0, 0, 0, 128⟩)
    ∧ decodeMicro e 0b0_000_1011_000_000_000_00_1_000000000000_00000000000000000000000000010000 = some (.muCset e ⟨0, 0, 0, 0, 0, 1, 16⟩)
    ∧ decodeMicro e 0b1_000_1100_000_000_000_00_1_000000000000_00000000000000000000000000000011 = some (.muCloop e ⟨1, 0, 0, 0, 0, 1, 3⟩)
    ∧ decodeMicro e 0b0_000_1101_000_000_000_00_0_000000000000_00000000000000000000000000101111 = some (.muSig e ⟨0, 0, 0, 0, 0, 0, 47⟩)
    ∧ decodeMicro e 0b0_000_1110_000_000_000_00_0_000000000000_00000000000000000000000000000000 = none
    ∧ decodeMicro e 0b0_001_0001_000_000_000_00_0_000000000000_00000000000000000000000000000000 = none := by
  and_intros <;> rfl

/-- The collective steps, cut as R332 cuts a word; five of them as the example of chapter 15 prints them. -/
theorem test_decode_step_words (r : Nat) :
    decodeStep r 0x0801000000000000 = some (.collSend r ⟨1, 0, 0, 1, 0, 0, 0, 0⟩) ∧ decodeStep r 0x10FF000000000000 = some (.collRecv r ⟨0, 0, 0, 255, 0, 0, 0, 0⟩)
    ∧ decodeStep r 0x2001000000000000 = some (.collRrs r ⟨0, 0, 0, 1, 0, 0, 0, 0⟩) ∧ decodeStep r 0x2401000000000000 = some (.collRrs r ⟨0, 1, 0, 1, 0, 0, 0, 0⟩)
    ∧ decodeStep r 0x6000000000000000 = some (.collEnd r)
    ∧ decodeStep r 0b0011_0_0_10_00000000_11111110_0000000000000000_0000000000000_0_0000000000 = some (.collCopy r ⟨0, 0, 2, 0, 254, 0, 0, 0⟩)
    ∧ decodeStep r 0b0100_0_0_00_00000000_00000000_0000000000000000_0000000000000_0_0000101111 = some (.collWait r ⟨0, 0, 0, 0, 0, 0, 0, 47⟩)
    ∧ decodeStep r 0b0101_0_0_00_00000000_00000000_1111111111111111_0000000000000_1_1111111111 = some (.collLoop r ⟨0, 0, 0, 0, 0, 65535, 1, 1023⟩)
    ∧ decodeStep r 0b0111_0_0_00_00000000_00000000_0000000000000000_0000000000000_0_0000000000 = none
    ∧ decodeStep r 0b0011_0_0_11_00000000_00000000_0000000000000000_0000000000000_0_0000000000 = none := by
  and_intros <;> rfl

/-- Words of major 0x00, cut as the rows of R195 cut them. -/
theorem test_decode_00 :
    decodeSlot 0b1_000000_010110_100101_1_001110_1_00001 = .ok (.aluAdd { s := 0x1, d := 0x16, a := 0x25, f := 0x1, b := 0xE, g := 0x1 })
    ∧ decodeSlot 0b0_000000_010110_100101_1_001110_1_00010 = .ok (.aluSub { s := 0x0, d := 0x16, a := 0x25, f := 0x1, b := 0xE, g := 0x1 })
    ∧ decodeSlot 0b1_000000_010110_100101_1_001110_1_00011 = .ok (.aluMul { s := 0x1, d := 0x16, a := 0x25, f := 0x1, b := 0xE, g := 0x1 })
    ∧ decodeSlot 0b0_000000_010110_100101_1_001110_1_00100 = .ok (.aluMulhs { s := 0x0, d := 0x16, a := 0x25, f := 0x1, b := 0xE, g := 0x1 })
    ∧ decodeSlot 0b1_000000_010110_100101_1_001110_1_00101 = .ok (.aluMulhu { s := 0x1, d := 0x16, a := 0x25, f := 0x1, b := 0xE, g := 0x1 })
    ∧ decodeSlot 0b0_000000_010110_100101_1_001110_1_00110 = .ok (.aluDiv { s := 0x0, d := 0x16, a := 0x25, f := 0x1, b := 0xE, g := 0x1 })
    ∧ decodeSlot 0b1_000000_010110_100101_1_001110_1_00111 = .ok (.aluDivu { s := 0x1, d := 0x16, a := 0x25, f := 0x1, b := 0xE, g := 0x1 })
    ∧ decodeSlot 0b0_000000_010110_100101_1_001110_1_01000 = .ok (.aluRem { s := 0x0, d := 0x16, a := 0x25, f := 0x1, b := 0xE, g := 0x1 })
    ∧ decodeSlot 0b1_000000_010110_100101_1_001110_1_01001 = .ok (.aluRemu { s := 0x1, d := 0x16, a := 0x25, f := 0x1, b := 0xE, g := 0x1 })
    ∧ decodeSlot 0b0_000000_010110_100101_1_001110_1_01010 = .ok (.aluMin { s := 0x0, d := 0x16, a := 0x25, f := 0x1, b := 0xE, g := 0x1 })
    ∧ decodeSlot 0b1_000000_010110_100101_1_001110_1_01011 = .ok (.aluMax { s := 0x1, d := 0x16, a := 0x25, f := 0x1, b := 0xE, g := 0x1 })
    ∧ decodeSlot 0b0_000000_010110_100101_1_001110_1_01100 = .ok (.aluMinu { s := 0x0, d := 0x16, a := 0x25, f := 0x1, b := 0xE, g := 0x1 })
    ∧ decodeSlot 0b1_000000_010110_100101_1_001110_1_01101 = .ok (.aluMaxu { s := 0x1, d := 0x16, a := 0x25, f := 0x1, b := 0xE, g := 0x1 }) := by
  exact ⟨rfl, rfl, rfl, rfl, rfl, rfl, rfl, rfl, rfl, rfl, rfl, rfl, rfl⟩

/-- Words of major 0x01, cut as the rows of R195 cut them. -/
theorem test_decode_01 :
    decodeSlot 0b0_000001_010110_100101_1_001110_1_00000 = .ok (.aluAnd { s := 0x0, d := 0x16, a := 0x25, f := 0x1, b := 0xE, g := 0x1 })
    ∧ decodeSlot 0b1_000001_010110_100101_1_001110_1_00001 = .ok (.aluOr { s := 0x1, d := 0x16, a := 0x25, f := 0x1, b := 0xE, g := 0x1 })
    ∧ decodeSlot 0b0_000001_010110_100101_1_001110_1_00010 = .ok (.aluXor { s := 0x0, d := 0x16, a := 0x25, f := 0x1, b := 0xE, g := 0x1 })
    ∧ decodeSlot 0b1_000001_010110_100101_1_001110_1_00011 = .ok (.aluAndn { s := 0x1, d := 0x16, a := 0x25, f := 0x1, b := 0xE, g := 0x1 })
    ∧ decodeSlot 0b0_000001_010110_100101_1_001110_1_00100 = .ok (.aluShl { s := 0x0, d := 0x16, a := 0x25, f := 0x1, b := 0xE, g := 0x1 })
    ∧ decodeSlot 0b1_000001_010110_100101_1_001110_1_00101 = .ok (.aluShr { s := 0x1, d := 0x16, a := 0x25, f := 0x1, b := 0xE, g := 0x1 })
    ∧ decodeSlot 0b0_000001_010110_100101_1_001110_1_00110 = .ok (.aluSar { s := 0x0, d := 0x16, a := 0x25, f := 0x1, b := 0xE, g := 0x1 })
    ∧ decodeSlot 0b1_000001_010110_100101_1_001110_1_00111 = .ok (.aluRotl { s := 0x1, d := 0x16, a := 0x25, f := 0x1, b := 0xE, g := 0x1 })
    ∧ decodeSlot 0b0_000001_010110_100101_1_001110_1_01000 = .ok (.aluRotr { s := 0x0, d := 0x16, a := 0x25, f := 0x1, b := 0xE, g := 0x1 })
    ∧ decodeSlot 0b1_000001_010110_100101_1_000000001001 = .ok (.aluClz { s := 0x1, d := 0x16, a := 0x25, f := 0x1 })
    ∧ decodeSlot 0b0_000001_010110_100101_1_000000001010 = .ok (.aluCtz { s := 0x0, d := 0x16, a := 0x25, f := 0x1 })
    ∧ decodeSlot 0b1_000001_010110_100101_1_000000001011 = .ok (.aluPopc { s := 0x1, d := 0x16, a := 0x25, f := 0x1 })
    ∧ decodeSlot 0b0_000001_010110_100101_1_000000001100 = .ok (.aluBswap { s := 0x0, d := 0x16, a := 0x25, f := 0x1 })
    ∧ decodeSlot 0b1_000001_010110_100101_1_000000001101 = .ok (.aluMov { s := 0x1, d := 0x16, a := 0x25, f := 0x1 }) := by
  exact ⟨rfl, rfl, rfl, rfl, rfl, rfl, rfl, rfl, rfl, rfl, rfl, rfl, rfl, rfl⟩

/-- Words of major 0x02 to 0x04, cut as the rows of R195 cut them. -/
theorem test_decode_02_04 :
    decodeSlot 0b0_000010_010110_100101_1_001110_1_00000 = .ok (.bitExt { s := 0x0, d := 0x16, a := 0x25, f := 0x1, b := 0xE, g := 0x1 })
    ∧ decodeSlot 0b1_000010_010110_100101_1_001110_1_00001 = .ok (.bitExtu { s := 0x1, d := 0x16, a := 0x25, f := 0x1, b := 0xE, g := 0x1 })
    ∧ decodeSlot 0b0_000010_010110_100101_1_001110_1_00010 = .ok (.bitIns { s := 0x0, d := 0x16, a := 0x25, f := 0x1, b := 0xE, g := 0x1 })
    ∧ decodeSlot 0b1_000010_010110_100101_1_001110_1_00011 = .ok (.bitSet { s := 0x1, d := 0x16, a := 0x25, f := 0x1, b := 0xE, g := 0x1 })
    ∧ decodeSlot 0b0_000010_010110_100101_1_001110_1_00100 = .ok (.bitClr { s := 0x0, d := 0x16, a := 0x25, f := 0x1, b := 0xE, g := 0x1 })
    ∧ decodeSlot 0b1_000010_010110_100101_1_001110_1_00101 = .ok (.bitTst { s := 0x1, d := 0x16, a := 0x25, f := 0x1, b := 0xE, g := 0x1 })
    ∧ decodeSlot 0b0_000011_010110_100101_1_001110_1_00000 = .ok (.cmpEq { s := 0x0, d := 0x16, a := 0x25, f := 0x1, b := 0xE, g := 0x1 })
    ∧ decodeSlot 0b1_000011_010110_100101_1_001110_1_00001 = .ok (.cmpNe { s := 0x1, d := 0x16, a := 0x25, f := 0x1, b := 0xE, g := 0x1 })
    ∧ decodeSlot 0b0_000011_010110_100101_1_001110_1_00010 = .ok (.cmpLt { s := 0x0, d := 0x16, a := 0x25, f := 0x1, b := 0xE, g := 0x1 })
    ∧ decodeSlot 0b1_000011_010110_100101_1_001110_1_00011 = .ok (.cmpLtu { s := 0x1, d := 0x16, a := 0x25, f := 0x1, b := 0xE, g := 0x1 })
    ∧ decodeSlot 0b0_000011_010110_100101_1_001110_1_00100 = .ok (.cmpLe { s := 0x0, d := 0x16, a := 0x25, f := 0x1, b := 0xE, g := 0x1 })
    ∧ decodeSlot 0b1_000011_010110_100101_1_001110_1_00101 = .ok (.cmpLeu { s := 0x1, d := 0x16, a := 0x25, f := 0x1, b := 0xE, g := 0x1 })
    ∧ decodeSlot 0b0_000100_010110_100101_1_001110_1_00_100 = .ok (.sel { s := 0x0, d := 0x16, a := 0x25, f := 0x1, b := 0xE, g := 0x1, c := 0x4 }) := by
  exact ⟨rfl, rfl, rfl, rfl, rfl, rfl, rfl, rfl, rfl, rfl, rfl, rfl, rfl⟩

/-- Words of major 0x05 to 0x0B, cut as the rows of R195 cut them. -/
theorem test_decode_05_0B :
    decodeSlot 0b1_000101000_110_100101_1_000000000000 = .ok (.prSet { s := 0x1, c := 0x6, a := 0x25, f := 0x1 })
    ∧ decodeSlot 0b0_000101_010110_000_101_0000000000001 = .ok (.prGet { s := 0x0, d := 0x16, c := 0x5 })
    ∧ decodeSlot 0b1_000101000_110_000_101_0000_001_000010 = .ok (.prAnd { s := 0x1, c := 0x6, x := 0x5, y := 0x1 })
    ∧ decodeSlot 0b0_000101000_110_000_101_0000_001_000011 = .ok (.prOr { s := 0x0, c := 0x6, x := 0x5, y := 0x1 })
    ∧ decodeSlot 0b1_000101000_110_000_101_0000000000100 = .ok (.prNot { s := 0x1, c := 0x6, x := 0x5 })
    ∧ decodeSlot 0b0_000110_010110_100101_1_000000000000 = .ok (.addrTag { s := 0x0, d := 0x16, a := 0x25, f := 0x1 })
    ∧ decodeSlot 0b1_000110_010110_100101_1_000000000001 = .ok (.addrOff { s := 0x1, d := 0x16, a := 0x25, f := 0x1 })
    ∧ decodeSlot 0b0_000110_010110_100101_1_001110_1_00010 = .ok (.addrSpl { s := 0x0, d := 0x16, a := 0x25, f := 0x1, b := 0xE, g := 0x1 })
    ∧ decodeSlot 0b1_000110_010110_100101_1_001110_1_00011 = .ok (.addrSpd { s := 0x1, d := 0x16, a := 0x25, f := 0x1, b := 0xE, g := 0x1 })
    ∧ decodeSlot 0b0_000110_010110_100101_1_001110_1_00100 = .ok (.addrPdv { s := 0x0, d := 0x16, a := 0x25, f := 0x1, b := 0xE, g := 0x1 })
    ∧ decodeSlot 0b1_000110_010110_100101_1_001110_1_00101 = .ok (.addrPeer { s := 0x1, d := 0x16, a := 0x25, f := 0x1, b := 0xE, g := 0x1 })
    ∧ decodeSlot 0b0_000111_010110_0010110110011100101 = .ok (.immLo { s := 0x0, d := 0x16, i := 0x16CE5 })
    ∧ decodeSlot 0b1_001000_010110_0010110110011100101 = .ok (.immHi { s := 0x1, d := 0x16, i := 0x16CE5 })
    ∧ decodeSlot 0b0_001001_010110_100101_1_011011001110 = .ok (.aluAddi { s := 0x0, d := 0x16, a := 0x25, f := 0x1, i := 0x6CE })
    ∧ decodeSlot 0b1_001010_010110_100101_1_011011001110 = .ok (.aluAndi { s := 0x1, d := 0x16, a := 0x25, f := 0x1, i := 0x6CE })
    ∧ decodeSlot 0b0_001011_010110_100101_1_00000000_1110 = .ok (.addrTagi { s := 0x0, d := 0x16, a := 0x25, f := 0x1, t := 0xE }) := by
  exact ⟨rfl, rfl, rfl, rfl, rfl, rfl, rfl, rfl, rfl, rfl, rfl, rfl, rfl, rfl, rfl, rfl⟩

/-- Words of major 0x0C, cut as the rows of R195 cut them. -/
theorem test_decode_0C :
    decodeSlot 0b1_001100_010110_100101_1_001110_1_00000 = .ok (.fpAdd { s := 0x1, d := 0x16, a := 0x25, f := 0x1, b := 0xE, g := 0x1 })
    ∧ decodeSlot 0b0_001100_010110_100101_1_001110_1_00001 = .ok (.fpSub { s := 0x0, d := 0x16, a := 0x25, f := 0x1, b := 0xE, g := 0x1 })
    ∧ decodeSlot 0b1_001100_010110_100101_1_001110_1_00010 = .ok (.fpMul { s := 0x1, d := 0x16, a := 0x25, f := 0x1, b := 0xE, g := 0x1 })
    ∧ decodeSlot 0b0_001100_010110_100101_1_001110_1_00011 = .ok (.fpDiv { s := 0x0, d := 0x16, a := 0x25, f := 0x1, b := 0xE, g := 0x1 })
    ∧ decodeSlot 0b1_001100_010110_100101_1_000000000100 = .ok (.fpSqrt { s := 0x1, d := 0x16, a := 0x25, f := 0x1 })
    ∧ decodeSlot 0b0_001100_010110_100101_1_001110_1_00101 = .ok (.fpFma { s := 0x0, d := 0x16, a := 0x25, f := 0x1, b := 0xE, g := 0x1 })
    ∧ decodeSlot 0b1_001100_010110_100101_1_001110_1_00110 = .ok (.fpMin { s := 0x1, d := 0x16, a := 0x25, f := 0x1, b := 0xE, g := 0x1 })
    ∧ decodeSlot 0b0_001100_010110_100101_1_001110_1_00111 = .ok (.fpMax { s := 0x0, d := 0x16, a := 0x25, f := 0x1, b := 0xE, g := 0x1 })
    ∧ decodeSlot 0b1_001100_010110_100101_1_000000001000 = .ok (.fpAbs { s := 0x1, d := 0x16, a := 0x25, f := 0x1 })
    ∧ decodeSlot 0b0_001100_010110_100101_1_000000001001 = .ok (.fpNeg { s := 0x0, d := 0x16, a := 0x25, f := 0x1 })
    ∧ decodeSlot 0b1_001100_010110_100101_1_001110_1_01010 = .ok (.fpEq { s := 0x1, d := 0x16, a := 0x25, f := 0x1, b := 0xE, g := 0x1 })
    ∧ decodeSlot 0b0_001100_010110_100101_1_001110_1_01011 = .ok (.fpLt { s := 0x0, d := 0x16, a := 0x25, f := 0x1, b := 0xE, g := 0x1 })
    ∧ decodeSlot 0b1_001100_010110_100101_1_001110_1_01100 = .ok (.fpLe { s := 0x1, d := 0x16, a := 0x25, f := 0x1, b := 0xE, g := 0x1 })
    ∧ decodeSlot 0b0_001100_010110_100101_1_001110_1_01101 = .ok (.fpUn { s := 0x0, d := 0x16, a := 0x25, f := 0x1, b := 0xE, g := 0x1 }) := by
  exact ⟨rfl, rfl, rfl, rfl, rfl, rfl, rfl, rfl, rfl, rfl, rfl, rfl, rfl, rfl⟩

/-- Words of major 0x10 to 0x15, cut as the rows of R195 cut them. -/
theorem test_decode_10_15 :
    decodeSlot 0b1_0100000000000000000000000000000 = .ok (.ctlNop { s := 0x1 })
    ∧ decodeSlot 0b0_0100000000000000000000000000001 = .ok (.ctlEnd { s := 0x0 })
    ∧ decodeSlot 0b1_010000000000_010110_1_000000000010 = .ok (.ctlJr { s := 0x1, a := 0x16, f := 0x1 })
    ∧ decodeSlot 0b0_010000_010110_100101_1_000000000011 = .ok (.ctlCallr { s := 0x0, d := 0x16, a := 0x25, f := 0x1 })
    ∧ decodeSlot 0b1_010000000000_010110_1_000000000100 = .ok (.ctlRet { s := 0x1, a := 0x16, f := 0x1 })
    ∧ decodeSlot 0b0_010000_010110_100101_1_1001110_00101 = .ok (.ctlLoop { s := 0x0, d := 0x16, a := 0x25, f := 0x1, i := 0x4E })
    ∧ decodeSlot 0b1_010000000000_010110_1_000000000110 = .ok (.ctlSetmpc { s := 0x1, a := 0x16, f := 0x1 })
    ∧ decodeSlot 0b0_01000000_0110_100101_1_000000000111 = .ok (.ctlKadd { s := 0x0, k := 0x6, a := 0x25, f := 0x1 })
    ∧ decodeSlot 0b1_010001_010110_0010110110011100101 = .ok (.ctlBr { s := 0x1, c := 0x16, i := 0x16CE5 })
    ∧ decodeSlot 0b0_010010_010110_0010110110011100101 = .ok (.ctlCall { s := 0x0, d := 0x16, i := 0x16CE5 })
    ∧ decodeSlot 0b1_010011_010110_01_00000_111001_0_00000 = .ok (.ctlWait { s := 0x1, k := 0x16, c := 0x1, b := 0x39, g := 0x0 })
    ∧ decodeSlot 0b0_010100_010110_100101_001_1110_110011 = .ok (.memLd { s := 0x0, d := 0x16, a := 0x25, z := 0x1, o := 0xE, n := 0x33 })
    ∧ decodeSlot 0b1_010101_010110_100101_001_1110_110011 = .ok (.memSt { s := 0x1, d := 0x16, a := 0x25, z := 0x1, o := 0xE, n := 0x33 }) := by
  exact ⟨rfl, rfl, rfl, rfl, rfl, rfl, rfl, rfl, rfl, rfl, rfl, rfl, rfl⟩

/-- Words of major 0x16 to 0x17, cut as the rows of R195 cut them. -/
theorem test_decode_16_17 :
    decodeSlot 0b0_010110_010110_100101_1_001110_1_00000 = .ok (.memLdxb { s := 0x0, d := 0x16, a := 0x25, f := 0x1, b := 0xE, g := 0x1 })
    ∧ decodeSlot 0b1_010110_010110_100101_1_001110_1_00001 = .ok (.memLdxh { s := 0x1, d := 0x16, a := 0x25, f := 0x1, b := 0xE, g := 0x1 })
    ∧ decodeSlot 0b0_010110_010110_100101_1_001110_1_00010 = .ok (.memLdxw { s := 0x0, d := 0x16, a := 0x25, f := 0x1, b := 0xE, g := 0x1 })
    ∧ decodeSlot 0b1_010110_010110_100101_1_001110_1_00011 = .ok (.memLdxd { s := 0x1, d := 0x16, a := 0x25, f := 0x1, b := 0xE, g := 0x1 })
    ∧ decodeSlot 0b0_010110_010110_100101_1_001110_1_00100 = .ok (.memLdxv { s := 0x0, d := 0x16, a := 0x25, f := 0x1, b := 0xE, g := 0x1 })
    ∧ decodeSlot 0b1_010110_010110_100101_1_001110_1_01000 = .ok (.memStxb { s := 0x1, d := 0x16, a := 0x25, f := 0x1, b := 0xE, g := 0x1 })
    ∧ decodeSlot 0b0_010110_010110_100101_1_001110_1_01001 = .ok (.memStxh { s := 0x0, d := 0x16, a := 0x25, f := 0x1, b := 0xE, g := 0x1 })
    ∧ decodeSlot 0b1_010110_010110_100101_1_001110_1_01010 = .ok (.memStxw { s := 0x1, d := 0x16, a := 0x25, f := 0x1, b := 0xE, g := 0x1 })
    ∧ decodeSlot 0b0_010110_010110_100101_1_001110_1_01011 = .ok (.memStxd { s := 0x0, d := 0x16, a := 0x25, f := 0x1, b := 0xE, g := 0x1 })
    ∧ decodeSlot 0b1_010110_010110_100101_1_001110_1_01100 = .ok (.memStxv { s := 0x1, d := 0x16, a := 0x25, f := 0x1, b := 0xE, g := 0x1 })
    ∧ decodeSlot 0b0_0101100000_10_0000000000000010000 = .ok (.memDrain { s := 0x0, c := 0x2 })
    ∧ decodeSlot 0b1_010110000000_010110_1_111001_0_10001 = .ok (.memPf { s := 0x1, a := 0x16, f := 0x1, b := 0x39, g := 0x0 })
    ∧ decodeSlot 0b0_01011100_0110_100101_1_00_0_1_00_000000 = .ok (.viewOpen { s := 0x0, w := 0x6, a := 0x25, f := 0x1, q := 0x0, r := 0x1, c := 0x0 })
    ∧ decodeSlot 0b1_01011100_0110_00000000000_01_000001 = .ok (.viewRetire { s := 0x1, w := 0x6, c := 0x1 })
    ∧ decodeSlot 0b0_01011100_0110_100101_1_0000_110_00010 = .ok (.viewSet { s := 0x0, w := 0x6, a := 0x25, f := 0x1, t := 0x6 })
    ∧ decodeSlot 0b1_010111_010110_00_0101_00000_001_00011 = .ok (.viewGet { s := 0x1, d := 0x16, w := 0x5, k := 0x1 }) := by
  exact ⟨rfl, rfl, rfl, rfl, rfl, rfl, rfl, rfl, rfl, rfl, rfl, rfl, rfl, rfl, rfl, rfl⟩

/-- Words of major 0x18 to 0x1E, cut as the rows of R195 cut them. -/
theorem test_decode_18_1E :
    decodeSlot 0b0_011000_010110_100101_001_1110_00_0011 = .ok (.tenLd { s := 0x0, d := 0x16, a := 0x25, z := 0x1, o := 0xE, w := 0x3 })
    ∧ decodeSlot 0b1_011001_010110_100101_001_1110_00_0011 = .ok (.tenSt { s := 0x1, d := 0x16, a := 0x25, z := 0x1, o := 0xE, w := 0x3 })
    ∧ decodeSlot 0b0_011100_010110_100101_001_1110_000000 = .ok (.atomAdd { s := 0x0, d := 0x16, a := 0x25, z := 0x1, o := 0xE })
    ∧ decodeSlot 0b1_011100_010110_100101_001_1110_000001 = .ok (.atomAnd { s := 0x1, d := 0x16, a := 0x25, z := 0x1, o := 0xE })
    ∧ decodeSlot 0b0_011100_010110_100101_001_1110_000010 = .ok (.atomOr { s := 0x0, d := 0x16, a := 0x25, z := 0x1, o := 0xE })
    ∧ decodeSlot 0b1_011100_010110_100101_001_1110_000011 = .ok (.atomXor { s := 0x1, d := 0x16, a := 0x25, z := 0x1, o := 0xE })
    ∧ decodeSlot 0b0_011100_010110_100101_001_1110_000100 = .ok (.atomSmin { s := 0x0, d := 0x16, a := 0x25, z := 0x1, o := 0xE })
    ∧ decodeSlot 0b1_011100_010110_100101_001_1110_000101 = .ok (.atomSmax { s := 0x1, d := 0x16, a := 0x25, z := 0x1, o := 0xE })
    ∧ decodeSlot 0b0_011100_010110_100101_001_1110_000110 = .ok (.atomUmin { s := 0x0, d := 0x16, a := 0x25, z := 0x1, o := 0xE })
    ∧ decodeSlot 0b1_011100_010110_100101_001_1110_000111 = .ok (.atomUmax { s := 0x1, d := 0x16, a := 0x25, z := 0x1, o := 0xE })
    ∧ decodeSlot 0b0_011100_010110_100101_001_1110_001000 = .ok (.atomSwap { s := 0x0, d := 0x16, a := 0x25, z := 0x1, o := 0xE })
    ∧ decodeSlot 0b1_011100_010110_100101_010_1001_001001 = .ok (.atomFadd { s := 0x1, d := 0x16, a := 0x25, o := 0x9 })
    ∧ decodeSlot 0b0_011100_010110_100101_010_1001_001010 = .ok (.atomFmin { s := 0x0, d := 0x16, a := 0x25, o := 0x9 })
    ∧ decodeSlot 0b1_011100_010110_100101_010_1001_001011 = .ok (.atomFmax { s := 0x1, d := 0x16, a := 0x25, o := 0x9 })
    ∧ decodeSlot 0b0_011101_010110_100101_001_1110_110011 = .ok (.atomCas { s := 0x0, d := 0x16, a := 0x25, z := 0x1, o := 0xE, c := 0x33 })
    ∧ decodeSlot 0b1_011110_010110_100101_001_1110_110011 = .ok (.monWait { s := 0x1, d := 0x16, a := 0x25, z := 0x1, o := 0xE, t := 0x33 }) := by
  exact ⟨rfl, rfl, rfl, rfl, rfl, rfl, rfl, rfl, rfl, rfl, rfl, rfl, rfl, rfl, rfl, rfl⟩

/-- Words of major 0x1F to 0x20, cut as the rows of R195 cut them. -/
theorem test_decode_1F_20 :
    decodeSlot 0b0_011111_010110_01_00000_111001_0_00000 = .ok (.phWait { s := 0x0, p := 0x16, c := 0x1, b := 0x39, g := 0x0 })
    ∧ decodeSlot 0b1_011111_010110_01_00000_111001_0_00001 = .ok (.phSig { s := 0x1, p := 0x16, c := 0x1, b := 0x39, g := 0x0 })
    ∧ decodeSlot 0b0_011111_010110_01_00000_111001_0_00010 = .ok (.phReg { s := 0x0, p := 0x16, m := 0x1, b := 0x39, g := 0x0 })
    ∧ decodeSlot 0b1_011111_010110_01_00000_111001_0_00011 = .ok (.phDrop { s := 0x1, p := 0x16, c := 0x1, b := 0x39, g := 0x0 })
    ∧ decodeSlot 0b0_011111_010110_0000000_100101_1_00100 = .ok (.phExpect { s := 0x0, p := 0x16, b := 0x25, g := 0x1 })
    ∧ decodeSlot 0b1_100000_010110_100101_1_001110_1_00000 = .ok (.vecAdd { s := 0x1, d := 0x16, a := 0x25, f := 0x1, b := 0xE, g := 0x1 })
    ∧ decodeSlot 0b0_100000_010110_100101_1_001110_1_00001 = .ok (.vecSub { s := 0x0, d := 0x16, a := 0x25, f := 0x1, b := 0xE, g := 0x1 })
    ∧ decodeSlot 0b1_100000_010110_100101_1_001110_1_00010 = .ok (.vecMul { s := 0x1, d := 0x16, a := 0x25, f := 0x1, b := 0xE, g := 0x1 })
    ∧ decodeSlot 0b0_100000_010110_100101_1_001110_1_00011 = .ok (.vecFma { s := 0x0, d := 0x16, a := 0x25, f := 0x1, b := 0xE, g := 0x1 })
    ∧ decodeSlot 0b1_100000_010110_100101_1_001110_1_00100 = .ok (.vecMin { s := 0x1, d := 0x16, a := 0x25, f := 0x1, b := 0xE, g := 0x1 })
    ∧ decodeSlot 0b0_100000_010110_100101_1_001110_1_00101 = .ok (.vecMax { s := 0x0, d := 0x16, a := 0x25, f := 0x1, b := 0xE, g := 0x1 })
    ∧ decodeSlot 0b1_100000_010110_100101_1_000000000110 = .ok (.vecAbs { s := 0x1, d := 0x16, a := 0x25, f := 0x1 })
    ∧ decodeSlot 0b0_100000_010110_100101_1_000000000111 = .ok (.vecNeg { s := 0x0, d := 0x16, a := 0x25, f := 0x1 })
    ∧ decodeSlot 0b1_100000_010110_100101_1_001110_1_01000 = .ok (.vecDiv { s := 0x1, d := 0x16, a := 0x25, f := 0x1, b := 0xE, g := 0x1 })
    ∧ decodeSlot 0b0_100000_010110_100101_1_000000001001 = .ok (.vecSqrt { s := 0x0, d := 0x16, a := 0x25, f := 0x1 }) := by
  exact ⟨rfl, rfl, rfl, rfl, rfl, rfl, rfl, rfl, rfl, rfl, rfl, rfl, rfl, rfl, rfl⟩

/-- Words of major 0x21, cut as the rows of R195 cut them. -/
theorem test_decode_21 :
    decodeSlot 0b1_100001_010110_100101_1_001110_1_00000 = .ok (.vecIadd { s := 0x1, d := 0x16, a := 0x25, f := 0x1, b := 0xE, g := 0x1 })
    ∧ decodeSlot 0b0_100001_010110_100101_1_001110_1_00001 = .ok (.vecIsub { s := 0x0, d := 0x16, a := 0x25, f := 0x1, b := 0xE, g := 0x1 })
    ∧ decodeSlot 0b1_100001_010110_100101_1_001110_1_00010 = .ok (.vecImul { s := 0x1, d := 0x16, a := 0x25, f := 0x1, b := 0xE, g := 0x1 })
    ∧ decodeSlot 0b0_100001_010110_100101_1_001110_1_00011 = .ok (.vecAnd { s := 0x0, d := 0x16, a := 0x25, f := 0x1, b := 0xE, g := 0x1 })
    ∧ decodeSlot 0b1_100001_010110_100101_1_001110_1_00100 = .ok (.vecOr { s := 0x1, d := 0x16, a := 0x25, f := 0x1, b := 0xE, g := 0x1 })
    ∧ decodeSlot 0b0_100001_010110_100101_1_001110_1_00101 = .ok (.vecXor { s := 0x0, d := 0x16, a := 0x25, f := 0x1, b := 0xE, g := 0x1 })
    ∧ decodeSlot 0b1_100001_010110_100101_1_001110_1_00110 = .ok (.vecShl { s := 0x1, d := 0x16, a := 0x25, f := 0x1, b := 0xE, g := 0x1 })
    ∧ decodeSlot 0b0_100001_010110_100101_1_001110_1_00111 = .ok (.vecShr { s := 0x0, d := 0x16, a := 0x25, f := 0x1, b := 0xE, g := 0x1 })
    ∧ decodeSlot 0b1_100001_010110_100101_1_001110_1_01000 = .ok (.vecSar { s := 0x1, d := 0x16, a := 0x25, f := 0x1, b := 0xE, g := 0x1 })
    ∧ decodeSlot 0b0_100001_010110_100101_1_001110_1_01001 = .ok (.vecImin { s := 0x0, d := 0x16, a := 0x25, f := 0x1, b := 0xE, g := 0x1 })
    ∧ decodeSlot 0b1_100001_010110_100101_1_001110_1_01010 = .ok (.vecImax { s := 0x1, d := 0x16, a := 0x25, f := 0x1, b := 0xE, g := 0x1 }) := by
  exact ⟨rfl, rfl, rfl, rfl, rfl, rfl, rfl, rfl, rfl, rfl, rfl⟩

/-- Words of major 0x22 to 0x24, cut as the rows of R195 cut them. -/
theorem test_decode_22_24 :
    decodeSlot 0b0_100010000_110_100101_1_001110_1_00000 = .ok (.vecEq { s := 0x0, c := 0x6, a := 0x25, f := 0x1, b := 0xE, g := 0x1 })
    ∧ decodeSlot 0b1_100010000_110_100101_1_001110_1_00001 = .ok (.vecNe { s := 0x1, c := 0x6, a := 0x25, f := 0x1, b := 0xE, g := 0x1 })
    ∧ decodeSlot 0b0_100010000_110_100101_1_001110_1_00010 = .ok (.vecLt { s := 0x0, c := 0x6, a := 0x25, f := 0x1, b := 0xE, g := 0x1 })
    ∧ decodeSlot 0b1_100010000_110_100101_1_001110_1_00011 = .ok (.vecLe { s := 0x1, c := 0x6, a := 0x25, f := 0x1, b := 0xE, g := 0x1 })
    ∧ decodeSlot 0b0_100010000_110_100101_1_001110_1_00100 = .ok (.vecIeq { s := 0x0, c := 0x6, a := 0x25, f := 0x1, b := 0xE, g := 0x1 })
    ∧ decodeSlot 0b1_100010000_110_100101_1_001110_1_00101 = .ok (.vecIlt { s := 0x1, c := 0x6, a := 0x25, f := 0x1, b := 0xE, g := 0x1 })
    ∧ decodeSlot 0b0_100011_010110_100101_1_000000000000 = .ok (.vecSigm { s := 0x0, d := 0x16, a := 0x25, f := 0x1 })
    ∧ decodeSlot 0b1_100011_010110_100101_1_000000000001 = .ok (.vecExp2 { s := 0x1, d := 0x16, a := 0x25, f := 0x1 })
    ∧ decodeSlot 0b0_100011_010110_100101_1_000000000010 = .ok (.vecRcp { s := 0x0, d := 0x16, a := 0x25, f := 0x1 })
    ∧ decodeSlot 0b1_100011_010110_100101_1_000000000011 = .ok (.vecRsq { s := 0x1, d := 0x16, a := 0x25, f := 0x1 })
    ∧ decodeSlot 0b0_100011_010110_100101_1_000000000100 = .ok (.vecLog2 { s := 0x0, d := 0x16, a := 0x25, f := 0x1 })
    ∧ decodeSlot 0b1_100011_010110_100101_1_000000000101 = .ok (.vecTanh { s := 0x1, d := 0x16, a := 0x25, f := 0x1 })
    ∧ decodeSlot 0b0_100100_010110_100101_1_00_0_011_000000 = .ok (.vecRsum { s := 0x0, d := 0x16, a := 0x25, f := 0x1, p := 0x0, c := 0x3 })
    ∧ decodeSlot 0b1_100100_010110_100101_1_00_0_011_000001 = .ok (.vecRmax { s := 0x1, d := 0x16, a := 0x25, f := 0x1, p := 0x0, c := 0x3 })
    ∧ decodeSlot 0b0_100100_010110_100101_1_00_0_011_000010 = .ok (.vecRmin { s := 0x0, d := 0x16, a := 0x25, f := 0x1, p := 0x0, c := 0x3 })
    ∧ decodeSlot 0b1_100100_010110_100101_1_000_1110_00011 = .ok (.vecDotg { s := 0x1, d := 0x16, a := 0x25, f := 0x1, t := 0xE }) := by
  exact ⟨rfl, rfl, rfl, rfl, rfl, rfl, rfl, rfl, rfl, rfl, rfl, rfl, rfl, rfl, rfl, rfl⟩

/-- Words of major 0x25 to 0x2D, cut as the rows of R195 cut them. -/
theorem test_decode_25_2D :
    decodeSlot 0b0_100101_010110_100101_1_000000000000 = .ok (.vecMov { s := 0x0, d := 0x16, a := 0x25, f := 0x1 })
    ∧ decodeSlot 0b1_100101_010110_100101_1_000000000001 = .ok (.vecBcast { s := 0x1, d := 0x16, a := 0x25, f := 0x1 })
    ∧ decodeSlot 0b0_100101_010110_100101_1_001110_1_00010 = .ok (.vecPerm { s := 0x0, d := 0x16, a := 0x25, f := 0x1, b := 0xE, g := 0x1 })
    ∧ decodeSlot 0b1_100101_010110_100101_1_000_110_000011 = .ok (.vecSel { s := 0x1, d := 0x16, a := 0x25, f := 0x1, c := 0x6 })
    ∧ decodeSlot 0b0_100101_010110_100101_1_0_001110_00100 = .ok (.vecLane { s := 0x0, d := 0x16, a := 0x25, f := 0x1, k := 0xE })
    ∧ decodeSlot 0b1_100101_010110_100101_1_0_001110_00101 = .ok (.vecIns { s := 0x1, d := 0x16, a := 0x25, f := 0x1, k := 0xE })
    ∧ decodeSlot 0b0_100110_010110_100101_1_000_0_011_00000 = .ok (.accRd { s := 0x0, d := 0x16, a := 0x25, f := 0x1, e := 0x0, n := 0x3 })
    ∧ decodeSlot 0b1_100110_010110_100101_1_000_0_011_00001 = .ok (.accRdk { s := 0x1, d := 0x16, a := 0x25, f := 0x1, e := 0x0, n := 0x3 })
    ∧ decodeSlot 0b0_101100_010110_100101_1_001110_1_00000 = .ok (.cvtNar { s := 0x0, d := 0x16, a := 0x25, f := 0x1, b := 0xE, g := 0x1 })
    ∧ decodeSlot 0b1_101100_010110_100101_1_001110_1_00001 = .ok (.cvtWid { s := 0x1, d := 0x16, a := 0x25, f := 0x1, b := 0xE, g := 0x1 })
    ∧ decodeSlot 0b0_101100_010110_100101_1_001110_1_00010 = .ok (.cvtF2i { s := 0x0, d := 0x16, a := 0x25, f := 0x1, b := 0xE, g := 0x1 })
    ∧ decodeSlot 0b1_101100_010110_100101_1_001110_1_00011 = .ok (.cvtI2f { s := 0x1, d := 0x16, a := 0x25, f := 0x1, b := 0xE, g := 0x1 })
    ∧ decodeSlot 0b0_101100_010110_100101_1_000000000100 = .ok (.cvtE8 { s := 0x0, d := 0x16, a := 0x25, f := 0x1 })
    ∧ decodeSlot 0b1_101101_010110_100101_1_000_1110_00000 = .ok (.cvtSf2i { s := 0x1, d := 0x16, a := 0x25, f := 0x1, r := 0, q := 0, t := 0xE })
    ∧ decodeSlot 0b0_101101_010110_100101_1_000_1110_00001 = .ok (.cvtSi2f { s := 0x0, d := 0x16, a := 0x25, f := 0x1, r := 0, q := 0, t := 0xE })
    ∧ decodeSlot 0b1_101101_010110_100101_1_0_0_1_1100_00010 = .ok (.cvtSf2b { s := 0x1, d := 0x16, a := 0x25, f := 0x1, r := 0x0, q := 0x1, t := 0xC }) := by
  exact ⟨rfl, rfl, rfl, rfl, rfl, rfl, rfl, rfl, rfl, rfl, rfl, rfl, rfl, rfl, rfl, rfl⟩

/-- Words of major 0x30 to 0x39, cut as the rows of R195 cut them. -/
theorem test_decode_30_39 :
    decodeSlot 0b0_110000_010110_000000000_1_1_11001110 = .ok (.matCall { s := 0x0, p := 0x16, x := 0x1, e := 0x1, r := 0xCE })
    ∧ decodeSlot 0b1_11000100000_0_0000000000000000000 = .ok (.matDrain { s := 0x1, e := 0x0 })
    ∧ decodeSlot 0b0_110001000_110_100101_1_000000000001 = .ok (.matSetp { s := 0x0, n := 0x6, a := 0x25, f := 0x1 })
    ∧ decodeSlot 0b1_110001_010110_000_101_0000000000010 = .ok (.matGetp { s := 0x1, d := 0x16, n := 0x5 })
    ∧ decodeSlot 0b0_11000100000_0_100101_1_000000000011 = .ok (.matCfg { s := 0x0, e := 0x0, a := 0x25, f := 0x1 })
    ∧ decodeSlot 0b1_11000100000_0_100101_1_001110_1_00100 = .ok (.matPert { s := 0x1, e := 0x0, a := 0x25, f := 0x1, b := 0xE, g := 0x1 })
    ∧ decodeSlot 0b0_1110000000000000000000000000000 = .ok (.cpStage { s := 0x0 })
    ∧ decodeSlot 0b1_111000000000_010110_1_111001_0_00001 = .ok (.cpBatch { s := 0x1, a := 0x16, f := 0x1, b := 0x39, g := 0x0 })
    ∧ decodeSlot 0b0_111000000000_010110_1_111001_0_00010 = .ok (.cpRread { s := 0x0, a := 0x16, f := 0x1, b := 0x39, g := 0x0 })
    ∧ decodeSlot 0b1_111000000000_010110_1_000000001000 = .ok (.ownGive { s := 0x1, a := 0x16, f := 0x1 })
    ∧ decodeSlot 0b0_111000000000_010110_1_000000001001 = .ok (.ownTake { s := 0x0, a := 0x16, f := 0x1 })
    ∧ decodeSlot 0b1_111001_010110_100101_1_001110_1_00000 = .ok (.nmCas { s := 0x1, d := 0x16, a := 0x25, f := 0x1, b := 0xE, g := 0x1 })
    ∧ decodeSlot 0b0_111001_010110_100101_1_001110_1_00001 = .ok (.nmEnq { s := 0x0, d := 0x16, a := 0x25, f := 0x1, b := 0xE, g := 0x1 })
    ∧ decodeSlot 0b1_111001_010110_100101_1_000000000010 = .ok (.nmDeq { s := 0x1, d := 0x16, a := 0x25, f := 0x1 })
    ∧ decodeSlot 0b0_111001_010110_100101_1_001110_1_00011 = .ok (.nmChase { s := 0x0, d := 0x16, a := 0x25, f := 0x1, b := 0xE, g := 0x1 }) := by
  exact ⟨rfl, rfl, rfl, rfl, rfl, rfl, rfl, rfl, rfl, rfl, rfl, rfl, rfl, rfl, rfl⟩

/-- Words of major 0x3A to 0x3B, cut as the rows of R195 cut them. -/
theorem test_decode_3A_3B :
    decodeSlot 0b1_111010_010110_100101_1_000000000000 = .ok (.collRun { s := 0x1, d := 0x16, a := 0x25, f := 0x1 })
    ∧ decodeSlot 0b0_111010000000_010110_1_000000000001 = .ok (.collAbort { s := 0x0, a := 0x16, f := 0x1 })
    ∧ decodeSlot 0b1_111010_010110_100101_1_000000000010 = .ok (.collStat { s := 0x1, d := 0x16, a := 0x25, f := 0x1 })
    ∧ decodeSlot 0b0_111010_010110_100101_1_001110_1_01000 = .ok (.logAppend { s := 0x0, d := 0x16, a := 0x25, f := 0x1, b := 0xE, g := 0x1 })
    ∧ decodeSlot 0b1_111010_010110_100101_1_000000001001 = .ok (.logReplay { s := 0x1, d := 0x16, a := 0x25, f := 0x1 })
    ∧ decodeSlot 0b0_111010000000_010110_1_000000001010 = .ok (.logResume { s := 0x0, a := 0x16, f := 0x1 })
    ∧ decodeSlot 0b1_111011000000_010110_1_111001_0_00000 = .ok (.wlPush { s := 0x1, a := 0x16, f := 0x1, b := 0x39, g := 0x0 })
    ∧ decodeSlot 0b0_111011_010110_0000000000000000001 = .ok (.wlPop { s := 0x0, d := 0x16 })
    ∧ decodeSlot 0b1_1110110000000000000000000000010 = .ok (.wlDone { s := 0x1 }) := by
  exact ⟨rfl, rfl, rfl, rfl, rfl, rfl, rfl, rfl, rfl⟩

/-- Words of major 0x3C to 0x3E, cut as the rows of R195 cut them. -/
theorem test_decode_3C_3E :
    decodeSlot 0b0_111100000000_010110_1_000000000000 = .ok (.sysFlushSplit { s := 0x0, a := 0x16, f := 0x1 })
    ∧ decodeSlot 0b1_111100000000_010110_1_000000000000 = .ok (.sysFlushSplit { s := 0x1, a := 0x16, f := 0x1 })
    ∧ decodeSlot 0b0_111100000000_010110_1_000000000000 = .ok (.sysFlushSplit { s := 0x0, a := 0x16, f := 0x1 })
    ∧ decodeSlot 0b1_111100000000_010110_1_000000000000 = .ok (.sysFlushSplit { s := 0x1, a := 0x16, f := 0x1 })
    ∧ decodeSlot 0b0_1111000000000000000000000000001 = .ok (.sysShinv { s := 0x0 })
    ∧ decodeSlot 0b1_111100000000_010110_1_111001_0_00010 = .ok (.sysTinv { s := 0x1, a := 0x16, f := 0x1, b := 0x39, g := 0x0 })
    ∧ decodeSlot 0b0_111100_010110_100101_1_000000001000 = .ok (.lvlCancel { s := 0x0, d := 0x16, a := 0x25, f := 0x1 })
    ∧ decodeSlot 0b1_111100_010110_100101_1_000000001001 = .ok (.lvlStat { s := 0x1, d := 0x16, a := 0x25, f := 0x1 })
    ∧ decodeSlot 0b0_111100000000_010110_1_000000010000 = .ok (.trapRaise { s := 0x0, a := 0x16, f := 0x1 })
    ∧ decodeSlot 0b1_1111000000000000000000000010001 = .ok (.trapRet { s := 0x1 })
    ∧ decodeSlot 0b0_111101_010110_0000000_110011100101 = .ok (.sysCsrr { s := 0x0, d := 0x16, i := 0xCE5 })
    ∧ decodeSlot 0b1_111110000000_010110_1_101100111001 = .ok (.sysCsrw { s := 0x1, a := 0x16, f := 0x1, i := 0xB39 }) := by
  exact ⟨rfl, rfl, rfl, rfl, rfl, rfl, rfl, rfl, rfl, rfl, rfl, rfl⟩

/-! ### Results worked out in the spec or by hand from its rules -/

/-- g6 and the FP flags once a slot that ends its bundle has committed; a result that comes later is taken where it waits. -/
def outOf (i : Instr) (l : List (Nat × W64)) : W64 × Flags := match exec i (slotAt 3 l) with
  | .next t => (match (t.ctx 0).results with
      | [r] => r.val.setWidth 64
      | _ => (vget (t.ctx 0).g 6 ⟨0, none⟩).val, (t.ctx 0).fpflags ||| ((t.ctx 0).results.headD ⟨0, 0, 0⟩).flags)
  | _ => (0xBAD, 0)

/-- R228: the field 0b1111 at position 4, signed and unsigned, as the rule works it out. -/
theorem test_bit_fields : (outOf (.bitExt ⟨1, 22, 21, 0, 23, 0⟩) [(5, 0xF3), (7, 0x304)]).1 = 0xFFFFFFFFFFFFFFFF ∧ (outOf (.bitExtu ⟨1, 22, 21, 0, 23, 0⟩) [(5, 0xF3), (7, 0x304)]).1 = 0xF := by decide +kernel

/-- R234: imm.lo and imm.hi, as the rule works them out. -/
theorem test_immediates : (outOf (.immLo { s := 1, d := 22, i := 0x800 }) []).1 = 0x800 ∧ (outOf (.immHi { s := 1, d := 22, i := 0x100 }) [(6, 0x800)]).1 = 0x40000100 := by decide +kernel

/-- R238: cvt.sf2b to E4M3 of 470, 464 and back from 0x7E, as the rule works them out. -/
theorem test_scalar_conversion : outOf (.cvtSf2b { s := 1, d := 22, a := 21, f := 0, t := 2, q := 1, r := 0 }) [(5, 0x43EB0000)] = (0x7E, flagOF ||| flagNX)
    ∧ outOf (.cvtSf2b { s := 1, d := 22, a := 21, f := 0, t := 2, q := 1, r := 0 }) [(5, 0x43E80000)] = (0x7E, flagNX)
    ∧ (outOf (.cvtSf2b { s := 1, d := 22, a := 21, f := 0, t := 2, q := 0, r := 1 }) [(5, 0x7E)]).1 = 0x43E00000 := by decide +kernel

/-- R224, R225: sums wrap, the differences of R224 go from A to B, a quotient goes towards 0 and its remainder has the sign of the dividend. -/
theorem test_integers : (outOf (.aluAdd ⟨1, 22, 21, 0, 23, 0⟩) [(5, 0xFFFFFFFFFFFFFFFF), (7, 2)]).1 = 1 ∧ (outOf (.aluSub ⟨1, 22, 21, 0, 23, 0⟩) [(5, 3), (7, 5)]).1 = 0xFFFFFFFFFFFFFFFE
    ∧ (outOf (.aluDiv ⟨1, 22, 21, 0, 23, 0⟩) [(5, 0xFFFFFFFFFFFFFFF9), (7, 2)]).1 = 0xFFFFFFFFFFFFFFFD ∧ (outOf (.aluRem ⟨1, 22, 21, 0, 23, 0⟩) [(5, 0xFFFFFFFFFFFFFFF9), (7, 2)]).1 = 0xFFFFFFFFFFFFFFFF := by decide +kernel

/-- R236, R97: 1 + 2 is 3, 1 / 3 rounds to 0x3EAAAAAB and is inexact, 1 / 0 is infinite with DZ. -/
theorem test_scalar_float : (outOf (.fpAdd ⟨1, 22, 21, 0, 23, 0⟩) [(5, 0x3F800000), (7, 0x40000000)]).1 = 0x40400000 ∧ (outOf (.fpDiv ⟨1, 22, 21, 0, 23, 0⟩) [(5, 0x3F800000), (7, 0x40400000)]) = (0x3EAAAAAB, flagNX)
    ∧ (outOf (.fpDiv ⟨1, 22, 21, 0, 23, 0⟩) [(5, 0x3F800000), (7, 0)]).1 = 0x7F800000 := by decide +kernel

/-- R89: 0.1 in the tapered 8-bit format, as the rule works it out. -/
theorem test_tapered_tenth : (encodeElem 0 true (fp32 0x3DCCCCCD)).code = 0x15 := by decide +kernel

/-- R10: the sum that leaves the tag of its base, as the rule works it out: TAGCARRY (cause 2). -/
theorem test_tag_carry : (match checkAddr (slotAt 3 []) (who (slotAt 3 []) 0) 0x1000000000000100 0x0FFFFFFFFFFFFF00 8 false with
    | .error t => t.cause
    | .ok _ => 0) = 2 := by decide +kernel

/-! ### Witnesses: states and operands that meet the premises of the statements -/

/-- IntegerInstructions, LogicAndBitFields, ScalarFloat: a three-operand scalar slot that ends its bundle. -/
theorem witness_three_operands : let s := slotAt 3 [(5, 7), (6, 9), (8, 1)]; let o : C3 := ⟨1, 24, 21, 0, 22, 1⟩
    s.ends 0 3 o.s ∧ destS o.d = .ok (.g 8) ∧ readS (s.seen 0) o.a o.f = .ok 7 ∧ readS (s.seen 0) o.b o.g = .ok 9 ∧ readS (s.seen 0) o.d 0 = .ok 1
    ∧ ([.aluAdd, .aluSub, .aluMul, .aluMulhu, .aluMulhs, .aluMin, .aluMax, .aluMinu, .aluMaxu, .aluDiv, .aluRem, .aluDivu, .aluRemu, .cmpEq, .cmpNe, .cmpLt,
        .cmpLe, .cmpLtu, .cmpLeu, .aluAnd, .aluOr, .aluXor, .aluAndn, .aluShl, .aluShr, .aluSar, .aluRotl, .aluRotr, .bitExtu, .bitExt, .bitSet, .bitClr,
        .bitTst, .bitIns, .addrSpl, .addrSpd, .addrPdv, .addrPeer, .fpAdd, .fpSub, .fpMul, .fpDiv, .fpFma, .fpMin, .fpMax, .fpEq, .fpLt, .fpLe, .fpUn]
      : List (C3 → Instr)).all (fun i => formFault (i o) == none) = true := by
  and_intros <;> first | decide +kernel | exact ok_of_gives (by decide +kernel) | rfl

/-- LogicAndBitFields, ConstantsPointersPredicates, ScalarFloat: a two-operand scalar slot. -/
theorem witness_two_operands : let s := slotAt 3 [(5, 7)]; let o : C2 := ⟨1, 24, 21, 0⟩
    s.ends 0 3 o.s ∧ destS o.d = .ok (.g 8) ∧ readS (s.seen 0) o.a o.f = .ok 7
    ∧ ([.aluClz, .aluCtz, .aluPopc, .aluBswap, .aluMov, .addrTag, .addrOff, .fpSqrt, .fpAbs, .fpNeg] : List (C2 → Instr)).all (fun i => formFault (i o) == none) = true := by
  and_intros <;> first | decide +kernel | exact ok_of_gives (by decide +kernel) | rfl

/-- LogicAndBitFields: the bit of R228's last clause at its two boundaries. -/
theorem witness_inserted_bits : ∀ j ∈ [0, 63], j < 64 := by decide

/-- ConstantsPointersPredicates: immediates, the tag form, select and the predicate rows. -/
theorem witness_constants : let s := slotAt 3 [(5, 7), (6, 9), (8, 1)]
    s.ends 0 3 1 ∧ readS (s.seen 0) 21 0 = .ok 7 ∧ readS (s.seen 0) 22 0 = .ok 9 ∧ readS (s.seen 0) 24 0 = .ok 1 ∧ destS 24 = .ok (.g 8)
    ∧ formFault (.addrTagi { s := 1, d := 24, a := 21, f := 0, t := 15 }) = none ∧ formFault (.aluAddi { s := 1, d := 24, a := 21, f := 0, i := 0x800 }) = none
    ∧ formFault (.aluAndi { s := 1, d := 24, a := 21, f := 0, i := 0x7FF }) = none ∧ formFault (.immLo { s := 1, d := 24, i := 0x40000 }) = none
    ∧ formFault (.immHi { s := 1, d := 24, i := 0x7FFFF }) = none ∧ formFault (.sel { s := 1, d := 24, a := 21, f := 0, b := 22, g := 0, c := 7 }) = none
    ∧ formFault (.prSet { s := 1, c := 7, a := 21, f := 0 }) = none ∧ formFault (.prGet { s := 1, d := 24, c := 7 }) = none := by
  and_intros <;> first | decide +kernel | exact ok_of_gives (by decide +kernel) | rfl

/-- OperandsAndDestinations: named registers at the ends of their ranges, an operand that is empty, one of the wrong type. -/
theorem witness_operands : let c := { Ctx.reset with g := vset Ctx.reset.g 31 ⟨0, some 9⟩, q := vset (vset Ctx.reset.q 15 ⟨true, 1, none⟩) 0 ⟨false, 1, some 9⟩ }
    (vget c.g 31 ⟨0, none⟩).pend = some 9 ∧ (vget c.g 1 ⟨0, none⟩).pend = none ∧ (vget c.q 15 ⟨false, 0, none⟩).isVec = true
    ∧ (vget c.q 0 ⟨false, 0, none⟩).pend = some 9 ∧ (vget c.q 1 ⟨false, 0, none⟩).pend = none ∧ (47 : BitVec 6).toNat = 16 + 31 ∧ (15 : BitVec 6).toNat = 15
    ∧ 48 ≤ (48 : BitVec 6).toNat := by
  and_intros <;> first | decide +kernel | exact ok_of_gives (by decide +kernel) | rfl

/-- ScalarConversionsAndRounding: the conversions, an odd mantissa bit lost, and a word that is no NaN. -/
theorem witness_conversions : let s := slotAt 3 [(5, 0x40490FDB)]
    s.ends 0 3 1 ∧ destS 24 = .ok (.g 8) ∧ readS (s.seen 0) 21 0 = .ok 0x40490FDB ∧ formFault (.cvtSf2i { s := 1, d := 24, a := 21, f := 0, r := 0, q := 0, t := 8 }) = none
    ∧ formFault (.cvtSi2f { s := 1, d := 24, a := 21, f := 0, r := 0, q := 0, t := 8 }) = none ∧ formFault (.cvtSf2b { s := 1, d := 24, a := 21, f := 0, r := 1, q := 0, t := 4 }) = none
    ∧ formFault (.cvtSf2b { s := 1, d := 24, a := 21, f := 0, r := 0, q := 1, t := 4 }) = none
    ∧ (2 * 3 = (2 * (roundShift 3 1).1 + 1) * 2 ^ 1 ∨ 2 * (roundShift 3 1).1 * 2 ^ 1 = 2 * 3 + 2 ^ 1) ∧ (fp32 0x40490FDB).isNan = false ∧ (∃ m e, fp32 (lowHalf 0x40490FDB) = .fin false m e)
    ∧ 7 ≤ (7 : BitVec 4).toNat ∧ (14 : BitVec 4).toNat ≤ 14 := by
  and_intros <;> first | decide +kernel | exact ok_of_gives (by decide +kernel) | exact ⟨_, _, rfl⟩ | rfl

/-- VectorArithmetic: lane-wise slots with a vector B and with a scalar one, and the compares. -/
theorem witness_lanes : let s := vecs (slotAt 3 [(5, 0x3F800000)]) [(1, 1), (2, 2), (4, 3)]; let o : C3 := ⟨1, 52, 49, 0, 50, 0⟩
    s.ends 0 3 o.s ∧ destV o.d = .ok (.h 4) ∧ readV (s.seen 0) o.a o.f = .ok 1 ∧ readVB (s.ctx 0) o.b o.g = .ok 2
    ∧ (readVB (s.ctx 0) 21 0).isOk = true ∧ readV (s.seen 0) o.d 0 = .ok 3
    ∧ ([.vecAdd, .vecSub, .vecMul, .vecDiv, .vecMin, .vecMax, .vecFma, .vecIadd, .vecIsub, .vecImul, .vecAnd, .vecOr, .vecXor, .vecShl, .vecShr, .vecSar,
        .vecImin, .vecImax, .vecPerm] : List (C3 → Instr)).all (fun i => formFault (i o) == none) = true
    ∧ ([.vecSqrt, .vecAbs, .vecNeg, .vecSigm, .vecExp2, .vecRcp, .vecRsq, .vecLog2, .vecTanh, .vecMov, .cvtE8] : List (C2 → Instr)).all
        (fun i => formFault (i { s := 1, d := 52, a := 49, f := 0 }) == none) = true
    ∧ ([.vecEq, .vecNe, .vecLt, .vecLe, .vecIeq, .vecIlt] : List (VC → Instr)).all
        (fun i => formFault (i { s := 1, c := 7, a := 49, f := 0, b := 50, g := 0 }) == none) = true := by
  and_intros <;> first | decide +kernel | exact ok_of_gives (by decide +kernel) | rfl

/-- VectorFunctions: a NaN, and a negative finite operand that is not zero. -/
theorem witness_special_inputs : (fp32 0x7F800001).isNan = true ∧ (∃ m e, fp32 0x80000001 = .fin true m e ∧ m ≠ 0) := by
  refine ⟨rfl, ⟨1, -149, rfl, by decide⟩⟩

/-- VectorMovesAndReductions: a reduction under P with a lane that takes part and one that does not, and the moves. -/
theorem witness_moves : let s := ctx0 (vecs (slotAt 3 [(5, 0x3F800000)]) [(1, 1), (2, 2), (4, 3)]) fun c => { c with c := vset c.c 7 1 }
    s.ends 0 3 1 ∧ destS 24 = .ok (.g 8) ∧ destV 52 = .ok (.h 4) ∧ readV (s.seen 0) 49 0 = .ok 1 ∧ readV (s.seen 0) 50 0 = .ok 2 ∧ readV (s.seen 0) 52 0 = .ok 3
    ∧ readS (s.seen 0) 21 0 = .ok 0x3F800000
    ∧ ([.vecRsum, .vecRmax, .vecRmin] : List (Red → Instr)).all (fun i => formFault (i { s := 1, d := 24, a := 49, f := 0, p := 1, c := 7 }) == none) = true
    ∧ (vget (s.ctx 0).c 7 0).getLsbD 0 = true ∧ (vget (s.ctx 0).c 7 0).getLsbD 63 = false
    ∧ formFault (.vecMov ⟨1, 52, 49, 0⟩) = none ∧ formFault (.vecBcast ⟨1, 52, 21, 0⟩) = none ∧ formFault (.vecPerm ⟨1, 52, 49, 0, 50, 0⟩) = none
    ∧ formFault (.vecSel { s := 1, d := 52, a := 49, f := 0, c := 7 }) = none ∧ formFault (.vecLane { s := 1, d := 24, a := 49, f := 0, k := 63 }) = none
    ∧ formFault (.vecIns { s := 1, d := 52, a := 21, f := 0, k := 63 }) = none := by
  and_intros <;> first | decide +kernel | exact ok_of_gives (by decide +kernel) | rfl

/-- DotProductsAndVectorConversions: a register pair in E4M3 and in FP16 (before and after emulation), a full accumulator tile, and control
words of a narrowing and of a widening of the last part. -/
theorem witness_conversion_words : let s := vecs (slotAt 3 [(5, 0), (6, 3), (7, 0), (8, 1)]) [(2, 1), (3, 2), (4, 3)]
    s.ends 0 3 1 ∧ destS 24 = .ok (.g 8) ∧ destV 52 = .ok (.h 4) ∧ readV (s.seen 0) 50 0 = .ok 1 ∧ readV (s.seen 0) (50 + 1) 0 = .ok 2 ∧ readS (s.seen 0) 24 0 = .ok 1
    ∧ formFault (.vecDotg { s := 1, d := 24, a := 50, f := 0, t := 2 }) = none ∧ formFault (.vecDotg { s := 1, d := 24, a := 50, f := 0, t := 5 }) = none
    ∧ (s.ctx 0).wait ≠ some (.block .emulation) ∧ (ctx0 s fun c => { c with wait := some (.block .emulation) }).bundle = s.bundle
    ∧ readS (s.seen 0) 21 0 = .ok 0 ∧ formFault (.accRd { s := 1, d := 52, a := 21, f := 0, e := 1, n := 7 }) = none
    ∧ formFault (.accRdk { s := 1, d := 52, a := 21, f := 0, e := 1, n := 7 }) = none ∧ (vget (s.engine 1).acc 7 ⟨true, []⟩).full = true
    ∧ readV (s.seen 0) 52 0 = .ok 3 ∧ readS (s.seen 0) 22 0 = .ok 3
    ∧ formFault (.cvtNar ⟨1, 52, 50, 0, 22, 0⟩) = none ∧ formFault (.cvtF2i ⟨1, 52, 50, 0, 22, 0⟩) = none ∧ formFault (.cvtWid ⟨1, 52, 50, 0, 22, 0⟩) = none
    ∧ formFault (.cvtI2f ⟨1, 52, 50, 0, 22, 0⟩) = none ∧ formFault (.cvtE8 ⟨1, 52, 50, 0⟩) = none := by
  and_intros <;> first | decide +kernel | exact ok_of_gives (by decide +kernel) | rfl

/-- DotProductsAndVectorConversions: control words that R291 allows, up to the last part of a word. -/
theorem witness_control_words : (CvtCtl.ofWord 0x31000).legal .narrow = true ∧ (CvtCtl.ofWord 0x30700).legal .integer = true
    ∧ (CvtCtl.ofWord 0x3007F).legal .widen = true ∧ (CvtCtl.ofWord 0x30700).part = 3 := by decide +kernel

/-- ControlTransfers: each condition of a branch taken and not taken, jumps, calls, a bundle of eight slots after an address, the end. -/
theorem witness_transfers : let s := ctx0 (slotAt 3 [(5, 0x40)]) fun c => { c with c := vset c.c 7 1 }
    s.ends 0 3 1 ∧ formFault (.ctlNop ⟨1⟩) = none ∧ formFault (.ctlBr ⟨1, 0, 4⟩) = none ∧ formFault (.ctlBr ⟨1, 15, 4⟩) = none ∧ formFault (.ctlBr ⟨1, 24, 4⟩) = none
    ∧ formFault (.ctlBr ⟨1, 31, 4⟩) = none ∧ (vget (s.ctx 0).c 7 0).getLsbD 0 = true ∧ (vget (s.ctx 0).c 0 0).getLsbD 0 = false
    ∧ readS (s.seen 0) 21 0 = .ok 0x40 ∧ formFault (.ctlJr { s := 1, a := 21, f := 0 }) = none ∧ formFault (.ctlRet { s := 1, a := 21, f := 0 }) = none
    ∧ formFault (.ctlCall { s := 1, d := 24, i := 0x7FFFF }) = none ∧ destS 24 = .ok (.g 8) ∧ formFault (.ctlCallr ⟨1, 24, 21, 0⟩) = none
    ∧ formFault (.ctlEnd ⟨1⟩) = none := by
  and_intros <;> first | decide +kernel | exact ok_of_gives (by decide +kernel) | rfl

/-- ControlTransfers: a bundle of one and one of eight slots, as the last clause needs them. -/
theorem witness_bundle_ahead : let s := (slotAt 3 []).setCore 0 { Core.reset with ovlWords := List.replicate 7 0x20000000 ++ [0xA0000000] }
    (∀ j < 7, ∃ w, codeWord s 0 (0 + BitVec.ofNat 64 (4 * j)) = some w ∧ w.getLsbD 31 = false)
    ∧ (∃ w, codeWord s 0 (0 + BitVec.ofNat 64 (4 * 7)) = some w ∧ w.getLsbD 31 = true) ∧ (∃ w, codeWord s 0 (28 + BitVec.ofNat 64 (4 * 0)) = some w ∧ w.getLsbD 31 = true) := by
  refine ⟨?_, ⟨0xA0000000, rfl, rfl⟩, ⟨0xA0000000, rfl, rfl⟩⟩
  intro j h
  have : j = 0 ∨ j = 1 ∨ j = 2 ∨ j = 3 ∨ j = 4 ∨ j = 5 ∨ j = 6 := by omega
  rcases this with rfl | rfl | rfl | rfl | rfl | rfl | rfl <;> exact ⟨0x20000000, rfl, rfl⟩

/-- LoopsAndSemaphores: an end inside the own bundle, one at its end, a count and a count of 0. -/
theorem witness_loop_starts : let s := slotAt 3 [(5, 0xFFFFFFFFFFFFFFFF), (6, 0)]
    s.ends 0 3 1 ∧ formFault (.ctlLoop ⟨1, 1, 21, 0, 3⟩) = none ∧ formFault (.ctlLoop ⟨1, 0, 22, 0, 4⟩) = none ∧ readS (s.seen 0) 21 0 = .ok 0xFFFFFFFFFFFFFFFF
    ∧ readS (s.seen 0) 22 0 = .ok 0 ∧ loopShort s 0 (s.ctx 0).pc ⟨1, 1, 21, 0, 3⟩ = true ∧ loopShort s 0 (s.ctx 0).pc ⟨1, 0, 22, 0, 4⟩ = false := by
  and_intros <;> first | decide +kernel | exact ok_of_gives (by decide +kernel) | rfl

/-- LoopsAndSemaphores: each way in which the two levels close. -/
theorem witness_loop_closes : let on (n : W64) : Loop := ⟨true, 0, 0x20, n⟩; let off : Loop := ⟨true, 0, 0x24, 1⟩
    ((on 2).active = true ∧ (on 2).endAt = 0x20 ∧ (on 2).count ≠ 1) ∧ ((on 1).count = 1 ∧ (on 0).count ≠ 1) ∧ ¬ (off.active = true ∧ off.endAt = 0x20)
    ∧ ({ Ctx.reset with lp1 := on 1, lp0 := on 2 } : Ctx).lp1.count = 1 ∧ ({ Ctx.reset with lp1 := off, lp0 := on 1 } : Ctx).lp0.endAt = 0x20 := by
  and_intros <;> first | decide +kernel | exact ok_of_gives (by decide +kernel) | rfl

/-- LoopsAndSemaphores: sums at the ends of the range and beyond, amounts held, lacking and out of range. -/
theorem witness_semaphores : let s := ctx0 (slotAt 3 [(5, 0xFFFFFFFF), (6, 0xFFFFFFFFFFFFFFFF), (7, 0x100000000), (8, 1)]) fun c => { c with k := vset c.k 15 0 }
    let t := ctx0 s fun c => { c with k := vset c.k 15 0xFFFFFFFF }
    s.ends 0 3 1 ∧ t.ends 0 3 1 ∧ readS (s.seen 0) 21 0 = .ok 0xFFFFFFFF ∧ readS (s.seen 0) 22 0 = .ok 0xFFFFFFFFFFFFFFFF ∧ readS (s.seen 0) 23 0 = .ok 0x100000000
    ∧ readS (t.seen 0) 24 0 = .ok 1 ∧ formFault (.ctlSetmpc { s := 1, a := 21, f := 0 }) = none ∧ formFault (.ctlKadd { s := 1, k := 15, a := 21, f := 0 }) = none
    ∧ vget (s.ctx 0).kHeld 15 0 = 0 ∧ waitAmount ⟨s, 0, s.seen 0, 3⟩ 15 (s.ctx 0).pc 8 = some 0 ∧ waitAmount ⟨t, 0, t.seen 0, 3⟩ 15 (t.ctx 0).pc 8 = some 0
    ∧ (0 : Int) ≤ (vget (s.ctx 0).k 15 0).toNat + (0xFFFFFFFF : W64).toInt ∧ (vget (s.ctx 0).k 15 0).toNat + (0xFFFFFFFF : W64).toInt < 2 ^ 32
    ∧ (vget (s.ctx 0).k 15 0).toNat + (0xFFFFFFFFFFFFFFFF : W64).toInt < 0 ∧ (2 : Int) ^ 32 ≤ (vget (t.ctx 0).k 15 0).toNat + (1 : W64).toInt
    ∧ formFault (.ctlWait { s := 1, k := 15, c := 3, b := 21, g := 0 }) = none ∧ drainPending (t.seen 0) = false ∧ (t.ctx 0).task = none ∧ vget (t.ctx 0).kHeld 15 0 = 0
    ∧ (0xFFFFFFFF : W64).toNat ≤ (vget (t.ctx 0).k 15 0).toNat ∧ (vget (s.ctx 0).k 15 0).toNat < (0xFFFFFFFF : W64).toNat ∧ (0xFFFFFFFF : W64).toNat < 2 ^ 32
    ∧ 2 ^ 32 ≤ (0x100000000 : W64).toNat := by
  and_intros <;> first | decide +kernel | exact ok_of_gives (by decide +kernel) | rfl

/-- Context 0 may name every space; its registers g5 and g6 hold these. -/
def memAt (a b : W64) : State := slotAt 3 [(5, a), (6, b), (7, 0x1122334455667788)]

/-- LoadsAndStoresArePending: an access at the first byte and one at the last vector of a vault's scratchpad. -/
theorem witness_accesses : let s := memAt 0x1000000000000000 0x2FFF00
    s.ends 0 3 1 ∧ drainPending (s.seen 0) = false ∧ readS (s.seen 0) 21 0 = .ok 0x1000000000000000 ∧ readS (s.seen 0) 22 0 = .ok 0x2FFF00
    ∧ sizeOf' 0 = some (1, false) ∧ sizeOf' 5 = some (256, true) ∧ ordOf 0 true = some weak ∧ ordOf 0 false = some weak
    ∧ formFault (.memLd { s := 1, d := 23, a := 21, z := 0, o := 0, n := 63 }) = none ∧ formFault (.memSt { s := 1, d := 49, a := 21, z := 5, o := 0, n := 63 }) = none
    ∧ destOf 23 false = .ok (.g 7) ∧ destOf 49 true = .ok (.h 1) ∧ dataOf (s.seen 0) 49 true = .ok 0 ∧ dataOf (s.seen 0) 23 false = .ok 0x1122334455667788
    ∧ ([.memLdxb, .memLdxh, .memLdxw, .memLdxd, .memStxb, .memStxh, .memStxw, .memStxd] : List (C3 → Instr)).all (fun i => formFault (i ⟨1, 23, 21, 0, 22, 0⟩) == none) = true
    ∧ formFault (.memLdxv ⟨1, 49, 21, 0, 22, 0⟩) = none ∧ formFault (.memStxv ⟨1, 49, 21, 0, 22, 0⟩) = none := by
  and_intros <;> first | decide +kernel | exact ok_of_gives (by decide +kernel) | rfl

/-- LoadsAndStoresArePending, AtomicsDrainsPrefetches: such accesses are ready, to load, to store and as an atomic. -/
theorem witness_ready_accesses : let s := memAt 0x1000000000000000 0x2FFF00
    (∃ r, accessReady s 0 3 .load weak 0 0x1000000000000000 (0x1000000000000000 + 0x2FFF00) 256 false r)
    ∧ (∃ r, accessReady s 0 3 .store weak 5 0x1000000000000000 (0x1000000000000000 + 0x2FFF00) 256 false r)
    ∧ (∃ r, accessReady s 0 3 (.atom 11) weak 5 0x1000000000000000 0x1000000000000000 4 true r)
    ∧ (∃ r, accessReady s 0 3 (.cas 7) weak 5 0x1000000000000000 0x1000000000000000 8 true r) :=
  ⟨ready_of_now (by decide +kernel), ready_of_now (by decide +kernel), ready_of_now (by decide +kernel), ready_of_now (by decide +kernel)⟩

/-- AtomicsDrainsPrefetches: every atomic, the drain at each scope, a prefetch that goes and one that fails a check. -/
theorem witness_atomics : let s := memAt 0x1000000000000000 0x2FFF00
    s.ends 0 3 1 ∧ drainPending (s.seen 0) = false ∧ ordOf 0 false = some weak ∧ destS 22 = .ok (.g 6) ∧ readS (s.seen 0) 22 0 = .ok 0x2FFF00 ∧ readS (s.seen 0) 23 0 = .ok 0x1122334455667788
    ∧ ([.atomAdd, .atomAnd, .atomOr, .atomXor, .atomSmin, .atomSmax, .atomUmin, .atomUmax, .atomSwap] : List (At → Instr)).all
        (fun i => formFault (i { s := 1, d := 22, a := 21, z := 3, o := 0 }) == none) = true
    ∧ ([.atomFadd, .atomFmin, .atomFmax] : List (AtF → Instr)).all (fun i => formFault (i { s := 1, d := 22, a := 21, o := 0 }) == none) = true
    ∧ formFault (.atomCas { s := 1, d := 22, a := 21, z := 3, o := 0, c := 23 }) = none ∧ formFault (.memDrain ⟨1, 3⟩) = none ∧ formFault (.memPf { s := 1, a := 21, f := 0, b := 22, g := 0 }) = none
    ∧ (∃ sp place, checkAddr s (who s 0) 0x1000000000000000 0x10000000002FFF00 1 false = .ok (sp, place)) ∧ (∃ t, checkAddr s (who s 0) 0x5000000000000000 0x5000000000000000 1 false = .error t) := by
  and_intros <;> first | exact ok_pair (by decide +kernel) | exact error_some (by decide +kernel) | exact ok_some (by decide +kernel) | decide +kernel | exact ok_of_gives (by decide +kernel) | rfl

/-- AddressChecks: an address for each cause of R29, in order, and one that passes. -/
theorem witness_address_causes : let s := memAt 0 0; let c (base ea : W64) (n : Nat) (atomic : Bool) (w : Who) : Nat := match checkAddr s w base ea n atomic with
      | .error t => t.cause
      | .ok _ => 0
    let open' : Who := { who s 0 with asperm := -1, priv := true }; let shut : Who := { who s 0 with asperm := 0, priv := false }
    c 0x5000000000000000 0x5000000000000000 1 false open' = 1 ∧ c 0x1FFFFFFFFFFFFFFF 0x2000000000000000 1 false open' = 2 ∧ c 0x0001000000000000 0x0001000000000000 1 false open' = 3
    ∧ c 0xE000000000000000 0xE000000000000000 4 false shut = 4 ∧ c 0x8000000000000000 0x8000000000000000 1 false shut = 5 ∧ c 0xE000000000000000 0xE000000000000000 2 false open' = 6
    ∧ c 0xC000000000000000 0xC000000000000000 4 true open' = 7 ∧ c 0x1000000000000001 0x1000000000000001 2 false open' = 8 ∧ c 0x1000000000300000 0x1000000000300000 1 false open' = 9
    ∧ c 0x8000100000000000 0x8000100000000000 1 false open' = 10 ∧ c 0x10000000002FFF00 0x10000000002FFF00 256 false open' = 0 := by
  and_intros <;> first | decide +kernel | exact ok_of_gives (by decide +kernel) | rfl

/-- AddressChecks: a load and a store that fail a check, and a store to a tile of the engine side. -/
theorem witness_failing_accesses : let s := memAt 0x1000000000300000 0; let t : State := { memAt 0x1000000000001000 0 with engineTiles := [tileOf (spKey 0 0 0x1000)] }
    s.issues 0 3 ∧ t.issues 0 3 ∧ drainPending (s.seen 0) = false ∧ readS (s.seen 0) 21 0 = .ok 0x1000000000300000 ∧ readS (t.seen 0) 21 0 = .ok 0x1000000000001000
    ∧ sizeOf' 3 = some (8, false) ∧ ordOf 0 true = some weak ∧ ordOf 0 false = some weak ∧ formFault (.memLd { s := 0, d := 23, a := 21, z := 3, o := 0, n := 0 }) = none
    ∧ formFault (.memSt { s := 0, d := 23, a := 21, z := 3, o := 0, n := 0 }) = none ∧ destOf 23 false = .ok (.g 7) ∧ dataOf (t.seen 0) 23 false = .ok 0x1122334455667788
    ∧ (∃ x, checkAddr s (who s 0) 0x1000000000300000 (0x1000000000300000 + BitVec.ofNat 64 (0 * 8)) 8 false = .error x)
    ∧ checkAddr t (who t 0) 0x1000000000001000 (0x1000000000001000 + BitVec.ofNat 64 (0 * 8)) 8 false = .ok (.spl, .mem (spKey 0 0 0x1000)) ∧ isSp (spKey 0 0 0x1000) = true
    ∧ engineSide t (spKey 0 0 0x1000) = true := by
  and_intros <;> first | decide +kernel | exact ok_of_gives (by decide +kernel) | exact error_some (by decide +kernel) | rfl

/-- A context whose list holds an access of bundle 0 (number 4) before an entry of bundle `b` (number 5). -/
def twoPending (x : Access) (b : Nat) (k : PendKind) : State := ctx0 (slotAt 0 []) fun c => { c with pend := [⟨4, 0, .access x⟩, ⟨5, b, k⟩] }

/-- An access of 8 bytes at a place. -/
def oneAccess (op : MemOp) (strong : Option Nat) (acq : Bool) (p : Place) : Access := ⟨op, strong, 0, acq, 0, 0, 3, [⟨p, 8, 0, 64, 0⟩], 0, some 9, none, none, false, none, 0⟩

/-- AccessOrder: each of the six clauses has a pair of accesses: of one bundle, of one byte, local, of the own column, strong, and after an acquire. -/
theorem witness_held_back : let n (p : Place) := oneAccess .store none false p; let far := Place.mem 0x100; let loc := Place.mem (spKey 0 0 0); let col := Place.mem (dramKey 0 8)
    (n far).atCore = false ∧ (twoPending (n far) 1 (.access (n far))).ctx 0 = { (twoPending (n far) 1 (.access (n far))).ctx 0 with pend := [] ++ ⟨4, 0, .access (n far)⟩ :: [] ++ [⟨5, 1, .access (n far)⟩] }
    ∧ opWrites (n far).op = true ∧ (⟨far, 8, 0, 64, 0⟩ : Piece).overlap ⟨.mem 0x107, 8, 0, 64, 0⟩ = true ∧ ownLocal 0 ⟨loc, 8, 0, 64, 0⟩ = true ∧ ownColumn 0 ⟨col, 8, 0, 64, 0⟩ = true
    ∧ (oneAccess .store (some 2) false far).strong ≠ none ∧ (oneAccess .store (some 2) false far).off = false ∧ (oneAccess .load (some 2) true far).acquire = true
    ∧ offDevice ⟨far, 8, 0, 64, 0⟩ = false ∧ walksNodes (.nmChase 1 0) = true ∧ (4 : Nat) ≠ 5 := by
  and_intros <;> first | decide +kernel | rfl

/-- AccessOrder: entries that wait for an access, and accesses that wait for a drain, an acquire, a retire and a drop. -/
theorem witness_waits : (oneAccess .load none false (.mem 0x100)).off = false ∧ (oneAccess .load none false (.peer 1 0)).off = true ∧ offDevice ⟨.host 0, 8, 0, 64, 0⟩ = true
    ∧ ([PendKind.drain 2, .release 2 (.view none), .release 2 (.signal 0 0 false)].all fun p => (perform (twoPending (oneAccess .load none false (.mem 0x100)) 1 p) 0 5 == twoPending (oneAccess .load none false (.mem 0x100)) 1 p)) = true
    ∧ (([⟨0, 0, 3, false, false, false, 0, .active⟩] : List Member).all fun m => (⟨0, 0, 0, true, 1, 0, [m]⟩ : Phaser).dropCounts 0 0) = true
    ∧ ([PendKind.drain 2, .acquire 2, .release 2 (.view none), .release 2 (.give 3), .release 2 (.signal 0 0 true)].all fun p =>
        !mayPerform (slotAt 0 []) 0 [⟨4, 0, p⟩] ⟨5, 1, .access (oneAccess .store none false (.mem 0x100))⟩) = true := by
  and_intros <;> first | decide +kernel | rfl

/-- AccessOrder: an access that may pass an earlier one, and an entry with nothing before it. -/
theorem witness_may_pass : ((slotAt 0 []).core 0).fwd = [] ∧ mayPerform (slotAt 0 []) 0 [⟨4, 0, .access (oneAccess .store none false (.mem 0x100))⟩] ⟨5, 1, .access (oneAccess .load none false (.mem 0x108))⟩ = true
    ∧ walksNodes .store = false ∧ (⟨.mem 0x100, 8, 0, 64, 0⟩ : Piece).overlap ⟨.mem 0x108, 8, 0, 64, 0⟩ = false ∧ ownColumn 0 ⟨.mem 0x100, 8, 0, 64, 0⟩ = false := by
  and_intros <;> first | decide +kernel | rfl

/-- PerformedAccesses: a load, a store, an atomic and a compare-and-swap that may perform, and words at both ends of their range. -/
theorem witness_pending : let p : Piece := ⟨.mem 0x100, 8, 0, 64, 0⟩
    let s (op : MemOp) := ctx0 (slotAt 0 []) fun c => { c with pend := [⟨5, 0, .access ⟨op, none, 0, false, 0, 0, 3, [p], 0, some 9, none, none, false, none, 0⟩⟩] }
    (s .load).canonical ∧ ([.load, .store, .atom 0, .cas 7] : List MemOp).all (fun op => ((s op).ctx 0).pend.find? (·.id == 5) ==
        some ⟨5, 0, .access ⟨op, none, 0, false, 0, 0, 3, [p], 0, some 9, none, none, false, none, 0⟩⟩
      && mayPerform (s op) 0 (pendBefore ((s op).ctx 0).pend 5) ⟨5, 0, .access ⟨op, none, 0, false, 0, 0, 3, [p], 0, some 9, none, none, false, none, 0⟩⟩) = true
    ∧ badLine? (s .load) 0x100 8 = none ∧ badLine? { s .load with badLines := [2] } 0x100 8 = some 2 ∧ mayPerform { s .load with badLines := [2] } 0 [] ⟨5, 0, .access ⟨.load, none, 0, false, 0, 0, 3, [p], 0, some 9, none, none, false, none, 0⟩⟩ = true
    ∧ ((s .load).core 0).fwd = [] ∧ p.bit = 0 ∧ p.bits = 8 * p.bytes ∧ p.lo = 0 ∧ (0 < 1 ∧ 1 < 2 ^ 1) ∧ 2 ^ 64 - 1 < 2 ^ 64 := by
  refine ⟨canonical_of (by decide +kernel), ?_⟩
  and_intros <;> first | decide +kernel | exact ok_of_gives (by decide +kernel) | rfl

/-- ResultsWalksWakes: a result that a register, a vector register and a queue entry wait for. -/
theorem witness_result : let s := ctx0 (slotAt 0 []) fun c => { c with results := [⟨9, 5, 16⟩], g := vset c.g 31 ⟨0, some 9⟩, h := vset c.h 15 ⟨0, some 9⟩, q := vset c.q 15 ⟨true, 0, some 9⟩ }
    (s.ctx 0).results.find? (·.id == 9) = some ⟨9, 5, 16⟩ ∧ (vget (s.ctx 0).g 31 ⟨0, none⟩).pend = some 9 ∧ (vget (s.ctx 0).g 1 ⟨0, none⟩).pend ≠ some 9
    ∧ (vget (s.ctx 0).h 15 ⟨0, none⟩).pend = some 9 ∧ (vget (s.ctx 0).q 15 ⟨false, 0, none⟩).pend = some 9 := by
  and_intros <;> first | decide +kernel | exact ok_of_gives (by decide +kernel) | rfl

/-- The bytes of a little-endian word of `n` bytes. -/
def bytesAt (key n v : Nat) : List Host.Cell := ((List.range n).map fun i => (key + i, BitVec.ofNat 8 (v / 2 ^ (8 * i)))).filter (·.2 != 0)

/-- A walk of context 0 from a table of two levels whose first page is 1 GiB of the vault of core 1. -/
def walkOf (va : Nat) : State :=
  ctx0 { slotAt 0 [] with walks := [⟨0, 3, 0, dramKey 0 0x1000, va, va, false⟩], mem := bytesAt (dramKey 0 0x1000) 8 (dramKey 0 0x2000 + 1) ++ bytesAt (dramKey 0 0x2000) 8 (dramKey 1 0 + 7) }
    fun c => { c with wait := some (.walk va va false), ptroot := BitVec.ofNat _ (dramKey 0 0x1000) }

/-- WalksEnd: walks that find a page, nothing, a frame that is not populated, and a table line with an error, the 16th and the 17th of a die, each with the context that waits and one that does not. -/
theorem witness_walks : (walkOf 0x100).walks[0]? = some ⟨0, 3, 0, dramKey 0 0x1000, 0x100, 0x100, false⟩
    ∧ walkNow (walkOf 0x100) (dramKey 0 0x1000) 0x100 false = .page (2 ^ 30) (dramKey 1 0) true ∧ ((walkOf 0x100).ctx 0).wait = some (.walk 0x100 0x100 false)
    ∧ ((walkOf 0x100).ctx 0).asid.toNat = 0 ∧ ((walkOf 0x100).ctx 0).ptroot.toNat = dramKey 0 0x1000
    ∧ walkNow (walkOf 0x8000000000) (dramKey 0 0x1000) 0x8000000000 false = .fault 1 ∧ walkNow (walkOf 0x30000000) (dramKey 0 0x1000) 0x30000000 false = .phys
    ∧ ((walkOf 0x30000000).ctx 0).wait = some (.walk 0x30000000 0x30000000 false) ∧ ((ctx0 (walkOf 0x30000000) fun c => { c with wait := none }).ctx 0).wait = none
    ∧ (let w : Walk := ⟨0, 3, 0, dramKey 0 0x1000, 0x100, 0x100, false⟩; let b : State := { walkOf 0x100 with badLines := [dramKey 0 0x2000 / 128], walks := List.replicate 17 w }
      walkNow b (dramKey 0 0x1000) 0x100 false = .bad (dramKey 0 0x2000 / 128) ∧ b.walks[15]? = some w ∧ b.walks[16]? = some w ∧ ((b.walks.take 16).filter fun x => x.ctx / 256 = w.ctx / 256).length = 16
      ∧ ((b.walks.take 15).filter fun x => x.ctx / 256 = w.ctx / 256).length = 15) := by
  and_intros <;> first | decide +kernel | rfl

/-- ResultsWalksWakes: a blocked context whose condition has cleared, and one whose condition has not. -/
theorem witness_wakes : let s := ctx0 (slotAt 0 []) fun c => { c with wait := some (.block (.semaphore 15 1)) }; let t := ctx0 s fun c => { c with k := vset c.k 15 1 }
    (s.ctx 0).status = .running ∧ (s.ctx 0).wait = some (.block (.semaphore 15 1)) ∧ Block.semaphore 15 1 ≠ .emulation ∧ (∀ core slot, Block.semaphore 15 1 ≠ .passed core slot) ∧ blockOver s 0 (.semaphore 15 1) = false
    ∧ (t.ctx 0).wait = some (.block (.semaphore 15 1)) ∧ blockOver t 0 (.semaphore 15 1) = true := by
  and_intros <;> first | decide +kernel | exact ok_of_gives (by decide +kernel) | (intro _ _ h; cases h) | rfl

/-- Context 0 with view 3 open on tensor 5, writable if `wr`, with `dims` dimensions; g5 holds the index, g6 the number of no tensor. -/
def viewAt (dims opn wr : Nat) (a : W64) : State :=
  let s := withTensor (slotAt 3 [(5, a), (6, 9), (7, 5)])
  ctx0 s fun c => { c with
    w := vset c.w 3 (256#512 <<< 384 ||| 1#512 <<< 224 ||| BitVec.ofNat 512 dims <<< 16 ||| BitVec.ofNat 512 (opn + 2 * wr) <<< 19 ||| 1#512 <<< 12 ||| 5)
    shadow := vset c.shadow 3 (s.descriptor 5) }

/-- Views: view.open of a valid descriptor for writing with 63 entries in the directory, and of a descriptor never written. -/
theorem witness_view_open : let s := viewAt 1 0 0 5; let o : Vo := { s := 1, w := 3, a := 21, f := 0, q := 1, r := 1, c := 3 }
    s.ends 0 3 1 ∧ s.issues 0 3 ∧ formFault (.viewOpen o) = none ∧ drainPending (s.seen 0) = false ∧ readS (s.seen 0) 21 0 = .ok 5 ∧ readS (s.seen 0) 22 0 = .ok 9
    ∧ descValid 5 (s.descriptor 5) = true ∧ descValid 9 (s.descriptor 9) = false ∧ (s.core 0).dir.length < 64 ∧ (s.ctx 0).handling = false := by
  and_intros <;> first | decide +kernel | exact ok_of_gives (by decide +kernel) | rfl

/-- Views: view.retire, and view.set of the last origin and of templates with 1, 4 and 5 dimensions. -/
theorem witness_view_registers : let s (v : Nat) := { viewAt 1 1 1 0x1000000000000040 with mem := bytesAt (spKey 0 0 0x40) 64 (v * 2 ^ 16 + 2 ^ 500) }
    let r (v : Nat) := readRecord (s v) 0 0x1000000000000040 64
    (s 1).ends 0 3 1 ∧ formFault (.viewRetire ⟨1, 3, 3⟩) = none ∧ formFault (.viewSet ⟨1, 3, 21, 0, 5⟩) = none ∧ formFault (.viewSet ⟨1, 3, 21, 0, 0⟩) = none
    ∧ formFault (.viewGet ⟨1, 30, 3, 7⟩) = none ∧ destS 30 = .ok (.g 14) ∧ readS ((s 1).seen 0) 21 0 = .ok 0x1000000000000040
    ∧ ((s 1).ctx 0).handling = false ∧ (vOpen (vget ((s 1).seen 0).w 3 0) && viewBusy ((s 1).seen 0) 3) = false
    ∧ r 1 = .ok (2 ^ 16 + 2 ^ 500) ∧ r 4 = .ok (4 * 2 ^ 16 + 2 ^ 500) ∧ r 5 = .ok (5 * 2 ^ 16 + 2 ^ 500)
    ∧ vDims (BitVec.ofNat 512 (2 ^ 16 + 2 ^ 500)) = 1 ∧ vDims (BitVec.ofNat 512 (4 * 2 ^ 16 + 2 ^ 500)) = 4 ∧ 4 < vDims (BitVec.ofNat 512 (5 * 2 ^ 16 + 2 ^ 500)) := by
  and_intros <;> first | decide +kernel | exact ok_of_gives (by decide +kernel) | rfl

/-- The access of `count` elements through view 3 that is to be ready (R258). -/
def throughView (s : State) (a : W64) (op : MemOp) (x : Vec) (ps : List Piece) : Access :=
  { accessOf s 0 3 op weak x ps with view := some 3, foot := some (vget (s.seen 0).w 3 0, vget (s.seen 0).shadow 3 0), index := a }

/-- The elements of an access through view 3 resolve, and it is ready. -/
def tensorNow (s : State) (a : W64) (op : MemOp) (x : Vec) (count : Nat) : Bool :=
  match elementPieces ⟨s, 0, s.seen 0, 3⟩ (vget (s.seen 0).w 3 0) (vget (s.seen 0).shadow 3 0) a (opWrites op) 0 count with
  | .ok ps => (readyAccess s 0 true (throughView s a op x ps)).isOk
  | .error _ => false

theorem tensor_of_now {s : State} {a : W64} {op : MemOp} {x : Vec} {count : Nat} (h : tensorNow s a op x count = true) :
    ∃ ps r, elementPieces ⟨s, 0, s.seen 0, 3⟩ (vget (s.seen 0).w 3 0) (vget (s.seen 0).shadow 3 0) a (opWrites op) 0 count = .ok ps
      ∧ readyAccess s 0 true (throughView s a op x ps) = .ok r := by
  unfold tensorNow at h
  split at h
  · obtain ⟨r, hr⟩ := ok_some h
    exact ⟨_, r, ‹_›, hr⟩
  · cases h

/-- TensorAccesses: the last element of a view and the last vector of it resolve, to load and to store. -/
theorem witness_tensor_pieces : let s := viewAt 1 1 1 255; let t := viewAt 1 1 1 192
    let resolves (s : State) (a : W64) (op : MemOp) (x : Vec) (count : Nat) : Prop :=
      ∃ ps r, elementPieces ⟨s, 0, s.seen 0, 3⟩ (vget (s.seen 0).w 3 0) (vget (s.seen 0).shadow 3 0) a (opWrites op) 0 count = .ok ps
        ∧ readyAccess s 0 true (throughView s a op x ps) = .ok r
    resolves s 255 .load 0 1 ∧ resolves t 192 .store 7 64 :=
  ⟨tensor_of_now (by decide +kernel), tensor_of_now (by decide +kernel)⟩

/-- TensorAccesses: the forms and fields of those accesses, and views that fail each check. -/
theorem witness_tensor_accesses : let s := viewAt 1 1 1 255; let v (d o w : Nat) := vget ((viewAt d o w 255).ctx 0).w 3 0; let f := elemBits (dFmt (vget (s.ctx 0).shadow 3 0))
    s.ends 0 3 1 ∧ (viewAt 1 1 0 255).issues 0 3 ∧ drainPending (s.seen 0) = false ∧ readS (s.seen 0) 21 0 = .ok 255 ∧ sizeOf' 2 = some (4, false) ∧ sizeOf' 5 = some (256, true) ∧ sizeOf' 0 = some (1, false)
    ∧ formFault (.tenLd { s := 1, d := 23, a := 21, z := 2, o := 0, w := 3 }) = none ∧ formFault (.tenSt { s := 1, d := 23, a := 21, z := 2, o := 0, w := 3 }) = none
    ∧ formFault (.tenSt { s := 1, d := 49, a := 21, z := 5, o := 0, w := 3 }) = none ∧ formFault (.tenLd { s := 1, d := 23, a := 21, z := 0, o := 0, w := 3 }) = none
    ∧ destOf 23 false = .ok (.g 7) ∧ dataOf (s.seen 0) 23 false = .ok 5 ∧ dataOf (s.seen 0) 49 true = .ok 0 ∧ ordOf 0 true = some weak ∧ ordOf 0 false = some weak
    ∧ (vDims (v 1 1 1) = 1 ∧ vOpen (v 1 1 1) = true ∧ vWr (v 1 1 1) = true ∧ (2 : BitVec 3) = elementSize f ∧ (0 : BitVec 3) ≠ elementSize f ∧ 8 * 256 / f = 64)
    ∧ vDims (v 0 1 1) = 0 ∧ 4 < vDims (v 5 1 1) ∧ (vDims (v 4 1 1) = 4 ∧ vOpen (v 4 0 1) = false) ∧ vWr (v 1 1 0) = false := by
  and_intros <;> first | decide +kernel | exact ok_of_gives (by decide +kernel) | rfl

/-- A context that waits for the word at offset 64 of its scratchpad. -/
def watching (cmp : W64) : State := { slotAt 3 [(5, 0x1000000000000040), (6, cmp)] with mem := bytesAt (spKey 0 0 0x40) 8 0x0807060504030201, clk := 77 }

/-- The read of a monitored wait of context 0 at a pointer is ready, of one piece, and may perform. -/
def waitReady (s : State) (ord : Machine.Ord) (p : W64) (place : Place) : Bool :=
  match checkAddr s (who s 0) p p 8 true with
  | .error _ => false
  | .ok (_, at') => ownerOk s at' && match readyAccess s 0 false (accessOf s 0 3 .load ord 0 (piecesOf at' 8)) with
    | .ok r => r.pieces.map (·.place) == [place] && mayPerform s 0 (s.ctx 0).pend ⟨0, (s.ctx 0).bundleNo, .access { r with slot := 3 }⟩
    | .error _ => false

/-- Monitors: waits, acquiring and not, on a word of 8 bytes that differs, on one that does not, in a vault, under a VA and on a bad line, waits that were and were not woken, and one of a context with a task. -/
theorem witness_monitored_wait : let s := watching 5; let t := watching 0x0807060504030201; let o : Mon := { s := 1, d := 22, a := 21, z := 3, o := 0, t := 40 }
    let w (c : Option Nat) := ctx0 s fun x => { x with monitor := some ⟨5, 3, none, c, 0x20⟩ }; let k := spKey 0 0 0x40
    let va : State := { slotAt 3 [(5, 0x40), (6, 5)] with tlb := [⟨0, 0, 0, 65536, 0, dramKey 1 0, true⟩] }
    s.ends 0 3 1 ∧ t.ends 0 3 1 ∧ (w (some 3)).ends 0 3 1 ∧ formFault (.monWait o) = none ∧ formFault (.monWait { o with o := 11 }) = none ∧ drainPending (s.seen 0) = false
    ∧ ordOf 0 true = some weak ∧ (ordOf 11 true).map (·.acquire) = some true ∧ destS 22 = .ok (.g 6)
    ∧ readS (s.seen 0) 21 0 = .ok 0x1000000000000040 ∧ readS (t.seen 0) 22 0 = .ok 0x0807060504030201 ∧ (s.ctx 0).task = none
    ∧ ((w (some 3)).ctx 0).monitor = some ⟨5, 3, none, some 3, ((w (some 3)).ctx 0).pc⟩ ∧ ((w none).ctx 0).monitor = some ⟨5, 3, none, none, ((w none).ctx 0).pc⟩ ∧ (s.ctx 0).monitor = none
    ∧ waitReady s weak 0x1000000000000040 (.mem k) = true ∧ waitReady t weak 0x1000000000000040 (.mem k) = true ∧ waitReady s weak 0x3000000000000040 (.mem (dramKey 0 0x40)) = true
    ∧ waitReady va weak 0x40 (.va 0x40 (dramKey 1 0x40)) = true
    ∧ badLine? s k 8 = none ∧ badLine? { s with badLines := [k / 128] } k 8 = some (k / 128) ∧ coreRead s 0 k 8 % 2 ^ 64 ≠ 5 ∧ coreRead t 0 k 8 % 2 ^ 64 = 0x0807060504030201
    ∧ (ctx0 s fun c => { c with task := some (0, 0) }).issues 0 3 := by
  and_intros <;> first | decide +kernel | exact ok_of_gives (by decide +kernel) | rfl

/-- Monitors: an armed monitor whose time has come, one whose time comes next, and one that was woken. -/
theorem witness_monitors : let s (u w : Option Nat) := ctx0 (watching 5) fun c => { c with monitor := some ⟨16, 3, u, w, 0x20⟩ }
    ((s (some 77) none).ctx 0).monitor = some ⟨16, 3, some 77, none, 0x20⟩ ∧ 77 ≤ (s (some 77) none).clk ∧ (s (some 78) none).clk < 78 ∧ ((s none (some 1)).ctx 0).monitor = some ⟨16, 3, none, some 1, 0x20⟩
    ∧ 16 ∈ linesOf (128 * 16 + 127) 1
    ∧ isLpddr (16 * 128) = true ∧ isSp (spKey 0 0 0x40 / 128 * 128) = true ∧ spCore (spKey 0 0 0x40 / 128 * 128) = 0 ∧ isDram (dramKey 1 0) = true ∧ dramCore (dramKey 1 0) = 1
    ∧ (let f := ctx0 { s none none with l2 := [⟨0, 0, 16, .shared, false⟩], llc := [⟨homeSlice 0x800, 16, some [0], false⟩] } fun c => { c with wait := some (.block (.maintenance (some 3))) }
      splitRequest f 0 = some 3 ∧ columnQuiet f 0 = true ∧ 3 ≠ f.split 0 ∧ (∃ l ∈ f.llc, l.line = 16) ∧ (∃ l ∈ f.l2, l.column = 0 ∧ l.line = 16)) := by decide +kernel

/-- PhaserPhases: phasers at which the clauses meet: one signal missing, the last signal there, credit at its top, and expectations at the limit. -/
theorem witness_phases : let p (pend credit arr : Nat) : Phaser := ⟨7, pend, credit, true, 1, arr, [⟨0, 0, 1, true, false, false, 7, .active⟩]⟩
    ¬ ((p 0 0 0).pend = 0 ∧ (p 0 0 0).arr = (p 0 0 0).nsig ∧ (0 < (p 0 0 0).nsig ∨ (p 0 0 0).expd = true))
    ∧ ((p 0 0 1).pend = 0 ∧ (p 0 0 1).arr = (p 0 0 1).nsig ∧ 0 < (p 0 0 1).nsig) ∧ ((p 0 65535 0).pend = 0 ∧ (p 0 65535 0).credit ≤ 65535) ∧ 0 < (p 1 0 0).pend
    ∧ 65535 < (p 65535 0 0).pend + 1 ∧ (p 65534 0 0).pend + 1 ≤ 65535 := by decide +kernel

/-- Core 3 has phaser 5 with these members; g6 names it as a phaser of core 3, g7 as one of the own core, with 65,535 to expect. -/
def phaserAt (pend : Nat) (ms : List Member) : State :=
  let s := slotAt 3 [(6, 0x30103), (7, 0xFFFF0000)]
  (s.setCore 3 { s.core 3 with phasers := [(5, ⟨7, pend, 0, false, 1, 0, ms⟩)] })

/-- PhaserSlots: a member that may wait for a completed phase and for the current one, a signaller, and 15 members beside a newcomer. -/
theorem witness_phaser_slots : let me (mode : Nat) (sigd : Bool) (l : Nat) : Member := ⟨0, 0, mode, sigd, false, false, l, .active⟩
    let p (s : State) := s.phaser 3 5; let full := (List.range 15).map fun j : Nat => (⟨1 + j, 0, 1, true, false, false, 7, .active⟩ : Member)
    (phaserAt 0 [me 3 true 6]).ends 0 3 1 ∧ readS ((phaserAt 0 [me 3 true 6]).seen 0) 22 0 = .ok 0x30103 ∧ (0x30103 : W64).getLsbD 8 = true ∧ bitsFrom (0x30103 : W64) 0 8 = 3
    ∧ (p (phaserAt 0 [me 3 true 6])).member? 0 0 = some (me 3 true 6) ∧ phaseDone 7 6 = true ∧ phaseDone 7 7 = false ∧ (p (phaserAt 0 [me 3 false 7])).member? 0 0 = some (me 3 false 7)
    ∧ drainPending ((phaserAt 0 []).seen 0) = false ∧ ((phaserAt 0 []).ctx 0).task = none
    ∧ formFault (.phWait ⟨1, 5, 3, 22, 0⟩) = none ∧ formFault (.phSig ⟨1, 5, 3, 22, 0⟩) = none ∧ formFault (.phDrop ⟨1, 5, 3, 22, 0⟩) = none ∧ formFault (.phReg ⟨1, 5, 3, 22, 0⟩) = none ∧ formFault (.phExpect ⟨1, 5, 22, 0⟩) = none
    ∧ (p (phaserAt 0 full)).member? 0 0 = none ∧ (p (phaserAt 0 full)).members.length < 16
    ∧ slotBusy ((phaserAt 0 []).ctx 0) 3 5 = false ∧ slotBusy ((ctx0 (phaserAt 0 []) fun c => { c with pend := [⟨4, 0, .release 0 (.signal 3 5 false)⟩] }).ctx 0) 3 5 = true
    ∧ ((p (phaserAt 0 [me 3 false 7])).arr = 0 ∧ (p (phaserAt 0 [me 3 false 7])).pend = 0 ∧ (p (phaserAt 0 [me 3 false 7])).expd = false) ∧ (p (phaserAt 1 [me 3 false 7])).pend ≠ 0
    ∧ ((ctx0 (phaserAt 0 []) fun c => { c with wait := some (.block (.passed 3 5)) }).ctx 0).wait = some (.block (.passed 3 5))
    ∧ (p (phaserAt 1 [{ me 3 false 8 with state := .joining, held := true }])).member? 0 0 = some { me 3 false 8 with state := .joining, held := true }
    ∧ (Phaser.expect ⟨7, 0, 0, false, 1, 0, full⟩ 65535).isSome = true := by
  and_intros <;> first | decide +kernel | exact ok_of_gives (by decide +kernel) | rfl

/-- PhaserSlots: a signal and a drop that may act, of an active, a joining and a leaving member, and a wait whose member a completion removed. -/
theorem witness_phaser_signals : let me (st : MemberState) : Member := ⟨0, 0, 3, false, false, true, 7, st⟩
    let s (st : MemberState) (drop : Bool) := ctx0 (phaserAt 1 [me st]) fun c => { c with pend := [⟨5, 0, .release 1 (.signal 3 5 drop)⟩], wait := some (.block (.phase 3 5 7)) }
    (∀ st ∈ [MemberState.active, .joining, .leaving, .quitting], ∀ drop : Bool, ((s st drop).ctx 0).pend.find? (·.id == 5) = some ⟨5, 0, .release 1 (.signal 3 5 drop)⟩
      ∧ mayPerform (s st drop) 0 (pendBefore ((s st drop).ctx 0).pend 5) ⟨5, 0, .release 1 (.signal 3 5 drop)⟩ = true ∧ ((s st drop).phaser 3 5).member? 0 0 = some (me st) ∧ ((s st drop).phaser 3 5).pend ≠ 0)
    ∧ (let t := s .leaving true; let p : Phaser := ⟨8, 0, 0, false, 0, 0, []⟩
      me .leaving ∈ (t.phaser 3 5).members ∧ p.member? 0 0 = none ∧ (t.ctx 0).wait = some (.block (.phase 3 5 7)) ∧ phaseDone p.phase 7 = true) := by decide +kernel

/-- PhaserSlots: the conditions of R274, each with a membership that meets it. -/
theorem witness_phaser_traps : let me (mode : Nat) (sigd : Bool) (l : Nat) : Member := ⟨0, 0, mode, sigd, false, false, l, .active⟩
    let p (s : State) := s.phaser 3 5; let full := (List.range 16).map fun j : Nat => (⟨1 + j, 0, 1, true, false, false, 7, .active⟩ : Member)
    (phaserAt 0 [me 2 false 7]).issues 0 3 ∧ (p (phaserAt 0 [me 2 false 7])).member? 0 0 = some (me 2 false 7) ∧ (p (phaserAt 0 full)).member? 0 0 = none ∧ 16 ≤ (p (phaserAt 0 full)).members.length
    ∧ (p (phaserAt 0 [me 1 true 7])).member? 0 0 = some (me 1 true 7) ∧ ((p (phaserAt 0 [me 3 false 7])).member? 0 0 = some (me 3 false 7) ∧ 7 = (p (phaserAt 0 [me 3 false 7])).phase)
    ∧ (Phaser.expect ⟨7, 1, 0, false, 1, 0, full⟩ 65535).isNone = true := by
  and_intros <;> first | decide +kernel | exact ok_of_gives (by decide +kernel) | rfl

/-- A slot of context 0 with g5 = a, g6 = b, engine 1 of core 0 drained or not, with `q` calls in its queue. -/
def engineAt (a b : W64) (drained : Bool) (q : Nat) : State :=
  let s := slotAt 3 [(5, a), (6, b)]
  s.setEngine 1 { s.engine 1 with drained := drained, queue := List.replicate q bareCall }

/-- A drained engine 1 with a call of it kept aside by a pre-emption. -/
def savedAt (a : W64) : State := { engineAt a 0 true 0 with savedCalls := [⟨1, bareCall, []⟩] }

/-- MatrixParameters: format pairs and perturbation words at the limits of R303 and R304, on a drained engine and on one that is not. -/
theorem witness_parameters : let s := engineAt 0x77 0x7F000000 true 0; let a (w : W64) := (engineAt w 0x7F000000 true 0).seen 0
    s.ends 0 3 1 ∧ (engineAt 0x100 0 true 0).issues 0 3 ∧ (engineAt 0x77 0 false 1).issues 0 3 ∧ (s.engine (0 / 4 * 2 + 1)).drained = true ∧ ((engineAt 0x77 0 false 1).engine 1).drained = false
    ∧ (s.engine 1).queue = [] ∧ s.savedCalls = [] ∧ (∃ v ∈ (savedAt 0x77).savedCalls, v.engine = 1) ∧ ((savedAt 0x77).ends 0 3 1) ∧ ((engineAt 0x77 0 false 1).engine 1).queue ≠ []
    ∧ formFault (.matSetp ⟨1, 7, 21, 0⟩) = none ∧ formFault (.matGetp ⟨1, 30, 7⟩) = none ∧ formFault (.matDrain ⟨1, 1⟩) = none ∧ formFault (.matCfg ⟨1, 1, 21, 0⟩) = none
    ∧ formFault (.matPert ⟨1, 1, 21, 0, 22, 0⟩) = none ∧ destS 30 = .ok (.g 14) ∧ readS (a 0x77) 21 0 = .ok 0x77 ∧ readS (a 0x100) 21 0 = .ok 0x100 ∧ readS (a 0x77) 22 0 = .ok 0x7F000000
    ∧ ((0x77 : W64).toNat < 256 ∧ bitsFrom (0x77 : W64) 0 4 = 7 ∧ bitsFrom (0x77 : W64) 4 4 = 7) ∧ ¬ (0x100 : W64).toNat < 256 ∧ ¬ (bitsFrom (0x67 : W64) 4 4 ≤ 5 ∨ bitsFrom (0x67 : W64) 4 4 = 7)
    ∧ (bitsFrom (0xF00002 : W64) 0 2 ≠ 3 ∧ bitsFrom (0xF00002 : W64) 2 1 = 0 ∧ bitsFrom (0xF00002 : W64) 4 16 = 0 ∧ bitsFrom (0x7F000000 : W64) 23 8 ≠ 255)
    ∧ bitsFrom (0x3 : W64) 0 2 = 3 ∧ bitsFrom (0x7F800000 : W64) 23 8 = 255 := by
  and_intros <;> first | decide +kernel | exact ok_of_gives (by decide +kernel) | rfl

/-- A tile parameter of R296: format, rows, columns, offset, tile scale, row stride and bank. -/
def tileWord (fmt rows cols off ts stride bank : Nat) : W64 :=
  .ofNat 64 (off + bank * 2 ^ 22 + stride * 2 ^ 24 + fmt * 2 ^ 32 + ts * 2 ^ 36 + (rows - 1) * 2 ^ 45 + (cols - 1) * 2 ^ 52)

/-- A valid routine 0 of engine 0 that declares accumulators 0 and 7 and tile 1, and a caller with that tile. -/
def callAt (q : Nat) : State :=
  let s := slotAt 3 []
  let s := ctx0 ((s.setMmio 0 0x1800000 (BitVec.ofNat 64 (2 ^ 25 + 2 <<< 12))).setMmio 0 0x1000000 ((encodeMicro (.muDecl 0 ⟨0, 0, 0, 0, 0, 0, 0x281⟩)).getD 0))
    fun c => { c with p := vset c.p 1 (tileWord 6 4 8 0x1000 0x7F 1 0), mpc := 0x40 }
  { s.setEngine 0 { s.engine 0 with queue := List.replicate q bareCall, mfmt := 0x44 } with tlb := [⟨0, 0, 0, 0x10000, 0, dramKey 0 0x20000, true⟩], engineTiles := tilesOf (declLines 0 (s.ctx 0).p 2) }

/-- MatrixCalls: a format pair with an FP16 side, before and after firmware has had it, with the routine that a call needs, and with one of FP8. -/
theorem witness_emulation : let h : State := (callAt 7).setEngine 0 { (callAt 7).engine 0 with mfmt := 0x54 }; let w := ctx0 h fun c => { c with wait := some (.block .emulation) }
    h.issues 0 3 ∧ w.ends 0 3 1 ∧ bitsFrom (h.engine 0).mfmt 4 4 = 5 ∧ (h.ctx 0).wait ≠ some (.block .emulation) ∧ (w.ctx 0).wait = some (.block .emulation) ∧ callDecl w 0 0 = .ok (0x81, 2)
    ∧ bitsFrom ((callAt 7).engine 0).mfmt 0 4 = 4 ∧ bitsFrom ((callAt 7).engine 0).mfmt 4 4 = 4 ∧ (callAt 7).savedCalls = [] := by
  and_intros <;> first | decide +kernel | exact ok_of_gives (by decide +kernel) | rfl

/-- MatrixCalls: a call with seven calls before it, one that finds the queue full, and a routine that is not valid. -/
theorem witness_calls : let s := callAt 7; let p := (s.ctx 0).p
    s.ends 0 3 1 ∧ s.issues 0 3 ∧ formFault (.matCall ⟨1, 63, 0, 0, 0⟩) = none ∧ formFault (.matCall ⟨1, 47, 1, 0, 255⟩) = none ∧ fp16Side (s.engine 0).mfmt = false
    ∧ callDecl s 0 0 = .ok (0x81, 2) ∧ (∀ j < 8, (2 : Nat).testBit j = true → tileOk s 0 p j 128 = true) ∧ (tilesOf (declLines 0 p 2)).all s.engineTiles.contains = true
    ∧ callMask ⟨s, 0, s.seen 0, 3⟩ false = .ok none ∧ ((∃ m, callMask ⟨s, 0, s.seen 0, 3⟩ true = .ok m)) ∧ ((s.engine 0).queue.length < 8 ∧ (s.engine 0).writes = [])
    ∧ 8 ≤ ((callAt 8).engine 0).queue.length ∧ (∃ c, callDecl s 0 255 = .error c) := by
  and_intros <;> first | exact ok_some (by decide +kernel) | exact error_some (by decide +kernel) | decide +kernel | exact ok_of_gives (by decide +kernel) | rfl

/-- A call that runs on engine 0: routine 0 of 20 words, tile 1 in format `fmt`, tile 2 a parameter that breaks a rule; it declares
accumulator 1 and tiles 1 and 2; with `tiles`, the lines of tile 1 are the engine's. -/
def runAt (word n0 fmt : Nat) (tiles : Bool) : State :=
  let s := State.reset.setMmio 0 0x1800000 (BitVec.ofNat 64 (2 ^ 25 + 20 <<< 12))
  let p := vset (vset (Vector.replicate 8 0) 1 (tileWord fmt 3 5 0x1000 0x7F 1 0)) 2 (tileWord 15 128 128 0x1001 0 0 0)
  let c : MatCall := ⟨5, 0, 0, 9, p, 0, 0, 0x44, none, 0, 63, 0, true, word, n0, 1, 2, 6, [5, 7], [], false⟩
  let s := s.setEngine 0 (setHead { s.engine 0 with queue := [bareCall], bCols := 128, latches := vset (s.engine 0).latches 1 ⟨128, [], [], none⟩ } c)
  { s with engineTiles := if tiles then tilesOf (tileLinesOf 0 (tileWord fmt 3 5 0x1000 0x7F 1 0)) else [] }

/-- That call, asked to stop. -/
def stopAt : State :=
  let s := runAt 1 2 4 true
  s.setEngine 0 (setHead (s.engine 0) { (s.running 0).getD bareCall with stop := true })

/-- The micro-word with these fields. -/
def microOf (ip pa pb acc la x imm : Nat) : Micro := ⟨.ofNat 1 ip, .ofNat 3 pa, .ofNat 3 pb, .ofNat 3 acc, .ofNat 2 la, .ofNat 1 x, .ofNat 32 imm⟩

/-- MicroControl: the declaration at word 0 and later, loop counters at 0, 1 and 2, targets inside and outside the routine, and phasers 47 and 48. -/
theorem witness_micro_control : let c (s : State) := (s.running 0).getD bareCall; let m (imm : Nat) := microOf 0 1 2 1 1 0 imm
    ([runAt 0 0 4 true, runAt 1 1 4 true, runAt 1 2 4 true].all fun s => s.running 0 == some (c s) && !((c s).stop && (m 0).ip == 1)) = true
    ∧ (c (runAt 0 0 4 true)).word = 0 ∧ (c (runAt 1 0 4 true)).word ≠ 0 ∧ (m 1).imm ≠ 0 ∧ (m 0).imm = 0 ∧ (c (runAt 1 0 4 true)).n0 = 0 ∧ (c (runAt 1 1 4 true)).n0 = 1 ∧ 1 < (c (runAt 1 2 4 true)).n0
    ∧ (m 19).imm.toNat % 4096 < bitsFrom ((runAt 1 2 4 true).mdir 0 0) 12 13 ∧ bitsFrom ((runAt 1 2 4 true).mdir 0 0) 12 13 ≤ (m 20).imm.toNat % 4096
    ∧ stopAt.running 0 = some (c stopAt) ∧ (c stopAt).stop = true ∧ (c (runAt 1 2 4 true)).stop = false ∧ (m 47).ip = 0 ∧ (microOf 1 1 2 1 1 0 47).ip = 1
    ∧ (m 47).imm.toNat % 64 < 48 ∧ 48 ≤ (m 48).imm.toNat % 64 ∧ (stopAt.engine 0).writes = [] ∧ ((runAt 1 2 4 true).engine 0).writes = [] := by decide +kernel

/-- MicroAccumulators, MicroLoads, MicroStores: a running call with declared and undeclared accumulators and tiles, tiles that break a rule, have a
wrong format, wait for their lines, or are ready. -/
theorem witness_micro_tiles : let s := runAt 1 2 4 true; let w := runAt 1 2 4 false; let t := runAt 1 2 6 true; let c := (s.running 0).getD bareCall; let x := s.engine 0; let p := c.p 1
    s.canonical ∧ s.running 0 = some c ∧ (c.stop && (microOf 1 1 2 1 1 0 0).ip == 1) = false ∧ c.accw.testBit 0 = false ∧ c.accw.testBit 1 = true
    ∧ (vget x.acc 1 ⟨true, []⟩).elems = [] ∧ (vget x.acc 2 ⟨true, []⟩).elems = [] ∧ x.bCols ≤ 128 ∧ (vget x.latches 1 ⟨0, [], [], none⟩).rows ≤ 128
    ∧ tileOk s 0 c.params 1 128 = true ∧ tileOk s 0 c.params 2 128 = false ∧ tFmt p = 4 ∧ linesReady s (tileLinesOf 0 p ++ scaleLines 0 c.params 1 5) = true ∧ linesReady s (tileLinesOf 0 p) = true
    ∧ linesReady w (tileLinesOf 0 p ++ scaleLines 0 c.params 1 5) = false ∧ bitsFrom p 22 2 / 2 = 0 % 2 ∧ (tFmt p).toNat = bitsFrom c.mfmt 4 4 ∧ (tFmt p).toNat = bitsFrom c.mfmt 0 4
    ∧ (tFmt (((t.running 0).getD bareCall).p 1)).toNat ≠ bitsFrom c.mfmt 0 4 ∧ bitsFrom c.pert 0 2 = 0 ∧ tCols p = 5 ∧ tRows p = 3
    ∧ c.parw.testBit 0 = false ∧ c.parw.testBit 1 = true ∧ c.parw.testBit 2 = true ∧ (tilesOf (tileLinesOf 0 p)).all (tileReady s) = true ∧ tRowBytes p ≤ 128 * bitsFrom p 24 8 := by
  refine ⟨canonical_of (by decide +kernel), ?_⟩
  and_intros <;> first | decide +kernel | exact ok_of_gives (by decide +kernel) | rfl

/-- MicroStores: a tile that is declared, passes its rules and has no format that can be stored. -/
theorem witness_unstorable : let c := ((runAt 1 2 8 true).running 0).getD bareCall
    c.parw.testBit 1 = true ∧ tileOk (runAt 1 2 8 true) 0 c.params 1 128 = true ∧ ¬ (tFmt (c.p 1) ≤ 7 ∨ tFmt (c.p 1) = 9) := by decide +kernel

/-- The running call of `runAt` with a mask that keeps `kept` positions from 5 on, and stationary B perturbed in mode 1 or 2. -/
def sparseAt (kept mode : Nat) : State :=
  let s := runAt 1 2 4 true
  s.setEngine 0 (setHead (s.engine 0) { (s.running 0).getD bareCall with
    mask := some (.ofNat 256 ((2 ^ kept - 1) * 32)), pert := .ofNat 64 (mode + 7 * 2 ^ 20 + 99 * 2 ^ 32), sigma := 0x3F800000 })

/-- MicroLoads: a mask that keeps the three rows of the tile and one that keeps two; no mask; noise of both modes. -/
theorem witness_sparse_loads : let s := sparseAt 3 1; let c := (s.running 0).getD bareCall; let few := (sparseAt 2 2).running 0; let none' := ((runAt 1 2 4 true).running 0).getD bareCall
    microRuns s 0 c ∧ bitsFrom c.pert 0 2 = 1 ∧ (few.map fun c => bitsFrom c.pert 0 2) = some 2 ∧ c.mask.isSome = true ∧ none'.mask.isSome = false ∧ tRows (c.p 1) = 3
    ∧ (List.range 256).countP (c.mask.getD 0).getLsbD = 3 ∧ (few.map fun c => (List.range 256).countP (c.mask.getD 0).getLsbD) = some 2
    ∧ c.covers True 5 ∧ ¬ c.covers True 4 ∧ c.storedRow True 7 = 2 ∧ tileOk s 0 c.params 1 256 = true ∧ (microOf 0 1 2 1 1 1 0).x = 1 := by
  refine ⟨⟨by decide +kernel, by decide +kernel⟩, ?_⟩
  and_intros <;> first | decide +kernel | (simp only [MatCall.covers]; decide +kernel) | (simp only [MatCall.storedRow]; decide +kernel)

/-- OwnershipAndCopyCommands: a tile of the own column that may be taken, one that a batch still names, and a pointer inside a tile. -/
theorem witness_tiles : let s := slotAt 3 [(5, 0x10000000002FF000)]; let t := tileOf (spKey 0 0 0x2FF000); let b : State := { s with engineTiles := [t], batches := [⟨3, 0, 0, 0, t, t + 1, 0, [], [], 0⟩] }
    s.ends 0 3 1 ∧ b.ends 0 3 1 ∧ s.issues 0 3 ∧ readS (s.seen 0) 21 0 = .ok 0x10000000002FF000 ∧ formFault (.ownGive ⟨1, 21, 0⟩) = none ∧ formFault (.ownTake ⟨1, 21, 0⟩) = none
    ∧ checkAddr s (who s 0) 0x10000000002FF000 0x10000000002FF000 1 false = .ok (.spl, .mem (spKey 0 0 0x2FF000)) ∧ isSp (spKey 0 0 0x2FF000) = true ∧ spCore (spKey 0 0 0x2FF000) = 0 / 4
    ∧ bitsFrom (0x10000000002FF000 : W64) 0 12 = 0 ∧ bitsFrom (0x10000000002FFFFF : W64) 0 12 ≠ 0 ∧ spKey 0 0 0x2FF000 / 4096 = t ∧ mayTake s t = true ∧ mayTake b t = false := by
  and_intros <;> first | decide +kernel | exact ok_of_gives (by decide +kernel) | rfl

/-- Little-endian words in one number. -/
def wordsNat (l : List Nat) : Nat := l.foldr (fun w acc => w + acc * 2 ^ 64) 0

/-- Unit 4 of launch 9 with a schedule of one entry in stage 0, and `n` entries of copy commands placed and `b` waiting. -/
def stageAt (n b : Nat) : State :=
  let e := wordsNat [0x3000000000001000, 0x4000, 32 + 2 * 2 ^ 16 + 2 ^ 32, 0, 1 + 2 * 2 ^ 16, 6 * 16 + 6, 4, 63]
  let l : Launch := ⟨9, 0, 0, 0, 0, 0, BitVec.ofNat 2048 (wordsNat [0, 0, 0, 0, 0, 0, 0, 0, 0, 0x1000000000002000, 1 + 3 * 2 ^ 16]), 0, 0, none, 0, [], [], [], [], 0, [], [], 0, false⟩
  let c (st : CopyState) : CopyCmd := ⟨3, 0, 0, 9, 0, 0, 0, st, false, 0, 0, 0, [], [], none, none, 0, false⟩
  let s := ctx0 { slotAt 3 [] with mem := bytesAt (spKey 0 0 0x2000) 64 e, launches := [l], copies := List.replicate n (c .queued) ++ (List.range b).map fun j => { c .backlog with launch := j } }
    fun c => { c with unit := { c.unit with launch := 9, index := 4 }, stageCtr := 0 }
  { s with engineTiles := tilesOf ((entLines 0 (.ofNat 512 e)).map (·.1)) }

/-- OwnershipAndCopyCommands: a stage of one entry with 47 entries placed, and with 48 placed and 32 waiting. -/
theorem witness_stage : let s := stageAt 47 0; let l := (unitLaunch s 0).getD ⟨0, 0, 0, 0, 0, 0, 0, 0, 0, none, 0, [], [], [], [], 0, [], [], 0, false⟩
    let x := match stageEntries ⟨s, 0, s.seen 0, 3⟩ (l.word 9) 0 (bitsFrom (l.word 10) 0 16) with
      | .ok x => x
      | .error _ => ([], 0)
    let es := x.1
    s.ends 0 3 1 ∧ (stageAt 48 32).ends 0 3 1 ∧ formFault (.cpStage ⟨1⟩) = none ∧ unitLaunch s 0 = some l ∧ (s.ctx 0).stageCtr < bitsFrom (l.word 10) 16 8
    ∧ stageEntries ⟨s, 0, s.seen 0, 3⟩ (l.word 9) 0 (bitsFrom (l.word 10) 0 16) = .ok x ∧ es.length = 1
    ∧ (es.all fun x => (tilesOf ((entLines 0 x.2).map (·.1))).all s.engineTiles.contains) = true ∧ stageFits s 0 1 = true ∧ stageFits (stageAt 48 32) 0 1 = false := by
  and_intros <;> first | decide +kernel | exact ok_of_gives (by decide +kernel) | rfl

/-- OwnershipAndCopyCommands: a batch of the last operation with phaser 47, and a remote read of 32 lines without a phaser. -/
theorem witness_batch_and_read : let b : W64 := 11 + (0x5000 <<< 16) + (47 <<< 40); let r : W64 := 0x5000 + (31 <<< 24) + (63 <<< 29); let t := tileOf (spKey 0 0 0x3000)
    let s : State := { slotAt 3 [(5, 0x1000000000003000), (6, b), (7, r), (8, 0x3000000000000080)] with engineTiles := [t, t + 2] }
    s.ends 0 3 1 ∧ formFault (.cpBatch ⟨1, 21, 0, 22, 0⟩) = none ∧ formFault (.cpRread ⟨1, 24, 0, 23, 0⟩) = none ∧ readS (s.seen 0) 21 0 = .ok 0x1000000000003000 ∧ readS (s.seen 0) 22 0 = .ok b
    ∧ readS (s.seen 0) 24 0 = .ok 0x3000000000000080 ∧ readS (s.seen 0) 23 0 = .ok r
    ∧ checkAddr s (who s 0) 0x1000000000003000 0x1000000000003000 1 false = .ok (.spl, .mem (spKey 0 0 0x3000)) ∧ isSp (spKey 0 0 0x3000) = true ∧ spCore (spKey 0 0 0x3000) = 0 / 4
    ∧ bitsFrom (0x1000000000003000 : W64) 0 12 = 0 ∧ spKey 0 0 0x3000 / 4096 = t ∧ batchOk b = true ∧ s.engineTiles.contains t = true
    ∧ s.engineTiles.contains (tileOf (spKey 0 (bitsFrom b 38 2) (bitsFrom b 16 22))) = true ∧ rreadOk r = true ∧ bitsFrom r 24 5 + 1 = 32 ∧ bitsFrom r 12 10 * 4096 + 4096 ≤ s.spSize 0
    ∧ (∃ sp place, checkAligned s (who s 0) 0x3000000000000080 0x3000000000000080 (128 * 32) 128 false = .ok (sp, place)) ∧ (∃ ps, rreadPages ⟨s, 0, s.seen 0, 3⟩ 0x3000000000000080 32 = .ok ps)
    ∧ s.engineTiles.contains (tileOf (spKey 0 (bitsFrom r 22 2) (bitsFrom r 0 22))) = true := by
  and_intros <;> first | decide +kernel | exact ok_of_gives (by decide +kernel) | exact ok_pair (by decide +kernel) | exact ok_some (by decide +kernel) | rfl

/-- NearMemory: the four packets at the last place of a vault that they fit, and operands at and beyond their limits. -/
theorem witness_packets : let s := vecs (slotAt 3 [(5, 0x300000002FFFFFE0), (6, 0x3000000000005000), (7, 0x300000002FFFFFF0), (8, 0x300000002FFFFFF8), (9, 0x3000000000005001), (10, 0x30000000000000C0), (11, 0x2F), (12, 0x3000000030000000)]) [(2, 4#2048 <<< 512), (3, 5#2048 <<< 512)]
    let e : Env := ⟨s, 0, s.seen 0, 3⟩; let p (o : Nat) : Place := .mem (dramKey 0 o)
    s.ends 0 3 1 ∧ formFault (.nmCas ⟨1, 49, 21, 0, 50, 0⟩) = none ∧ formFault (.nmEnq ⟨1, 30, 23, 0, 22, 0⟩) = none ∧ formFault (.nmDeq ⟨1, 30, 23, 0⟩) = none ∧ formFault (.nmChase ⟨1, 30, 26, 0, 27, 0⟩) = none
    ∧ drainPending (s.seen 0) = false ∧ destV 49 = .ok (.h 1) ∧ destS 30 = .ok (.g 14) ∧ readS (s.seen 0) 21 0 = .ok 0x300000002FFFFFE0 ∧ readS (s.seen 0) 22 0 = .ok 0x3000000000005000
    ∧ readS (s.seen 0) 23 0 = .ok 0x300000002FFFFFF0 ∧ readS (s.seen 0) 26 0 = .ok 0x30000000000000C0 ∧ readS (s.seen 0) 27 0 = .ok 0x2F ∧ readV (s.seen 0) 50 0 = .ok (4#2048 <<< 512) ∧ readV (s.seen 0) 51 0 = .ok (5#2048 <<< 512)
    ∧ packetAddr e 0x300000002FFFFFE0 32 = .ok (p 0x2FFFFFE0) ∧ packetPlace e 0x300000002FFFFFE0 (p 0x2FFFFFE0) true true = .ok (p 0x2FFFFFE0) ∧ packetAddr e 0x300000002FFFFFF0 16 = .ok (p 0x2FFFFFF0) ∧ packetPlace e 0x300000002FFFFFF0 (p 0x2FFFFFF0) true false = .ok (p 0x2FFFFFF0) ∧ packetAddr e 0x30000000000000C0 8 = .ok (p 0xC0) ∧ packetPlace e 0x30000000000000C0 (p 0xC0) false false = .ok (p 0xC0)
    ∧ (bits (4#2048 <<< 512).toNat 512 3 = 4 ∧ (4#2048 <<< 512).toNat < 2 ^ 515) ∧ bits (5#2048 <<< 512).toNat 512 3 = 5
    ∧ (bitsFrom (0x3000000000005000 : W64) 0 3 = 0 ∧ (nodeKey (0 / 4) (dramCore (p 0x2FFFFFF0).key) 0x3000000000005000 0).isSome = true) ∧ bitsFrom (0x3000000000005001 : W64) 0 3 ≠ 0 ∧ readS (s.seen 0) 28 0 = .ok 0x3000000030000000 ∧ (bitsFrom (0x3000000030000000 : W64) 0 3 = 0 ∧ bitsFrom (0x3000000030000000 : W64) 60 4 = 3) ∧ nodeKey 0 (dramCore (p 0x2FFFFFF0).key) 0x3000000030000000 0 = none
    ∧ (0x2F : W64).toNat < 2 ^ 11 ∧ (p 0xC0).key % 0x40000000 + 8 * bitsFrom (0x2F : W64) 4 7 + 8 ≤ 0x30000000 := by
  and_intros <;> first | decide +kernel | exact ok_of_gives (by decide +kernel) | rfl

/-- A queue in the vault of core 0 with this head and tail, and a node at offset 0x5000 with this link. -/
def queueOf (head tail link : W64) : State :=
  { slotAt 3 [] with mem := bytesAt (dramKey 0 0x4FF0) 8 head.toNat ++ bytesAt (dramKey 0 0x4FF8) 8 tail.toNat ++ bytesAt (dramKey 0 0x5000) 8 link.toNat }

/-- NearMemory: queues of one node, of a node with a link, with a link out of the vault, and with a head and a tail that name no node. -/
theorem witness_stored_pointers : let a : W64 := 0x3000000000005000; let b : W64 := 0x3000000000006000; let bad : W64 := 0x3000000100005000
    let names (p : W64) := p.toNat % 8 = 0 ∧ (nodeKey 0 (dramCore (dramKey 0 0x4FF0)) p 0).isSome = true
    (queueOf a a 0).canonical ∧ (queueOf a b b).canonical ∧ (queueOf a b bad).canonical ∧ (queueOf bad bad 0).canonical ∧ names a ∧ names b ∧ ¬ names bad
    ∧ (let m := (queueOf a b bad).mem; memRead m (dramKey 0 0x4FF0) 8 = a.toNat ∧ memRead m (dramKey 0 0x4FF8) 8 = b.toNat ∧ memRead m (dramKey 0 0x5000) 8 = bad.toNat)
    ∧ nodeKey 0 (dramCore (dramKey 0 0x4FF0)) b 0 = some (dramKey 0 0x6000) := by
  refine ⟨canonical_of (by decide +kernel), canonical_of (by decide +kernel), canonical_of (by decide +kernel), canonical_of (by decide +kernel), ?_⟩
  decide +kernel

/-- NearMemory: a node of the own vault beside its header, with an empty queue and with a queue that holds it. -/
theorem witness_queues : let node : W64 := 0x3000000000005000; let key := dramKey 0 0x4FF0; let q : State := { slotAt 3 [] with mem := bytesAt key 8 node.toNat }
    (slotAt 3 []).canonical ∧ q.canonical ∧ nodeKey 0 (dramCore key) node 0 = some (dramKey 0 0x5000) ∧ node ≠ 0 ∧ key + 16 ≤ dramKey 0 0x5000
    ∧ memRead (slotAt 3 []).mem key 8 = 0 ∧ memRead (slotAt 3 []).mem (key + 8) 8 = 0 ∧ memRead q.mem key 8 = node.toNat ∧ node.toNat % 8 = 0 := by
  refine ⟨canonical_of (by decide +kernel), canonical_of (by decide +kernel), ?_⟩
  decide +kernel

/-- The descriptor of R331 of two chunks of 256 bytes of FP32 on group `g`, combined as `rop` says. -/
def collWords (g rop : Nat) : Nat := wordsNat [0x2000, 0x1000000000003000, 0x1000000000005000, 0, g + 4 * 2 ^ 16 + 2 * 2 ^ 48, 256 + 6 * 2 ^ 32 + rop * 2 ^ 38 + 63 * 2 ^ 40]

/-- The run of that descriptor on group 3, at its first step, with counters 1 and 2. -/
def runOf : CollRun := ⟨900, 0, 0, 0, 0, 3, 7, 0, .ofNat 1024 (collWords 3 1), 1, 1, 2, 0, none, true, [], none, false, [], false, none⟩

/-- Group 3 in state `st` with four members, this device the last, and descriptors at offsets 0x8000 and 0x9000, the second not valid;
`n` runs on the die. -/
def collAt (st n : Nat) : State :=
  let x := BitVec.ofNat 1024 (collWords 3 1)
  let s := slotAt 3 [(5, 0x1000000000008000), (6, 3), (7, 0x1000000000009000)]
  let s := words s 0x400060 [.ofNat 64 (3 + 3 * 2 ^ 16 + 65535 * 2 ^ 32 + st * 2 ^ 62), .ofNat 64 (dramKey 0 0x7000)]
  { s with mem := bytesAt (dramKey 0 0x7000) 8 0x0003000200010000 ++ bytesAt (spKey 0 0 0x8000) 128 (collWords 3 1), runs := (List.range n).map fun j => { runOf with id := 900 + j }, engineTiles := tilesOf (cdLines 0 x (word x 1) ++ cdLines 0 x (cdOut x)) }

/-- CollectiveSlots: a run on a defined group with 15 and with 16 runs on the die, a group that is not defined, and a descriptor that is not valid. -/
theorem witness_collective_slots : let s := collAt 2 15; let v := collWords 3 1; let x := BitVec.ofNat 1024 v; let z := BitVec.ofNat 1024 0
    s.ends 0 3 1 ∧ (collAt 2 16).ends 0 3 1 ∧ (collAt 1 0).ends 0 3 1 ∧ formFault (.collRun ⟨1, 30, 21, 0⟩) = none ∧ formFault (.collAbort ⟨1, 22, 0⟩) = none ∧ formFault (.collStat ⟨1, 30, 22, 0⟩) = none ∧ destS 30 = .ok (.g 14)
    ∧ readS (s.seen 0) 21 0 = .ok 0x1000000000008000 ∧ readS (s.seen 0) 23 0 = .ok 0x1000000000009000 ∧ readS (s.seen 0) 22 0 = .ok 3
    ∧ readRecord s 0 0x1000000000008000 128 = .ok v ∧ readRecord s 0 0x1000000000009000 128 = .ok 0 ∧ (cdValid x = true ∧ cdPlaces x = true) ∧ cdStaged s 0 x = true ∧ cdStaged { s with engineTiles := [] } 0 x = false ∧ (({ s with engineTiles := [] } : State).ends 0 3 1) ∧ s.packets = [] ∧ cdValid z = false ∧ cdf x 4 0 6 = 3
    ∧ bitsFrom (s.group 3 0) 62 2 = 2 ∧ bitsFrom ((collAt 1 0).group 3 0) 62 2 ≠ 2 ∧ (tilesOf (cdLines 0 x (word x 1) ++ cdLines 0 x (cdOut x))).all s.engineTiles.contains = true
    ∧ (s.runs.filter (·.die == 0 / 4 / 64)).length < 16 ∧ 16 ≤ ((collAt 2 16).runs.filter (·.die == 0 / 4 / 64)).length
    ∧ (s.group 3 0).getLsbD 63 = true ∧ ((collAt 1 0).group 3 0).getLsbD 63 = false ∧ s.runs.Pairwise (fun x y => x.id ≠ y.id) := by
  and_intros <;> first | decide +kernel | exact ok_of_gives (by decide +kernel) | rfl

theorem witness_collective_canonical : (collAt 2 15).canonical := canonical_of (by decide +kernel)

/-- The device with that run, and a packet of rank 2 with this tag. -/
def stepAt (tag : Option Nat) : State := { collAt 2 0 with runs := [runOf], packets := [⟨rankDevice (collAt 2 0) 3 2, 3, 7, 0, tag, List.replicate 256 1⟩] }

/-- CollectiveSteps: steps towards and from the rank before, whose packet is plain, tagged for this step or for another; chunks ready and empty; a wait before, during and
after its phase; and loop counters at their limit. -/
theorem witness_collective_steps : let w : StepWord := ⟨0, 0, 0, 255, 0, 3, 1, 5⟩; let u : StepWord := ⟨1, 0, 0, 1, 0, 2, 0, 5⟩; let s := stepAt none; let c := stepChunk s runOf w; let b := word runOf.desc 1
    let e : State := { s with emptyLines := [spKey 0 0 0x3000 / 128, spKey 0 0 0x3080 / 128, spKey 0 0 0x3100 / 128, spKey 0 0 0x3180 / 128] }
    s.run? 900 = some runOf ∧ runOf.status = none ∧ runHeld s runOf = false ∧ runOf.event = none ∧ runOf.stop = false ∧ chunkReady s runOf b c = true ∧ chunkReady e runOf b c = false ∧ w.start = 0 ∧ u.start = 1 ∧ w.store = 0 ∧ rankAt s 3 (sdelta w.pd) = 2 ∧ rankAt s 3 (-(sdelta u.pd)) = 2
    ∧ (nextPacket s runOf 2).map (·.tag) = some none ∧ nextPacket s runOf (rankAt s 3 (sdelta u.pd)) = none ∧ nextPacket s runOf (rankAt s 3 (-(sdelta w.pd))) = none ∧ chunkWritable s runOf (cdOut runOf.desc) c = true ∧ (groupRanks s 3).2 = 2 + 1
    ∧ (nextPacket (stepAt (some 2)) runOf 2).map (·.tag) = some (some 2) ∧ (nextPacket (stepAt (some 1)) runOf 2).map (·.tag) = some (some 1)
    ∧ runOf.phase = none ∧ phaseDone (s.phaser 0 5).phase 0 = false ∧ phaseDone (s.phaser 0 5).phase 65535 = true
    ∧ (∀ p ∈ s.packets, p.group = runOf.group → p.seq = runOf.seq → p.opid = runOf.opid)
    ∧ (∃ p ∈ ({ s with packets := [⟨9, 3, 7, 1, none, []⟩] } : State).packets, p.group = runOf.group ∧ p.seq = runOf.seq ∧ p.opid ≠ runOf.opid)
    ∧ runOf.n1 + 1 = w.limit.toNat ∧ runOf.n0 + 1 = u.limit.toNat ∧ 0 + 1 < u.limit.toNat ∧ word runOf.desc 3 = 0 ∧ staggerDelay s runOf = none := by decide +kernel

/-- The log of rank 1 of four under ASID `a` with its cursor at 200 in state `st`, and its ring slot `q` taken by an older entry of sequence number `x`. -/
def logAt (a st x : Nat) : State :=
  let s := words (slotAt 3 [(5, 0x12340005678), (6, 0x3200000007), (7, 9)]) 0x500000 [.ofNat 64 (2 ^ 63 + a * 2 ^ 32 + 3 * 2 ^ 16 + 1)]
  let s := s.setMmio 0 0x500028 (.ofNat 64 (200 + st * 2 ^ 61))
  { s with log := { s.log with waitAt := 9 }, mem := bytesAt (dramKey 0 (32 * 201)) 32 (x + 2 ^ 160 * (if x = 0 then 0 else 1)) }

/-- LogSlots: the log of the own ASID and of another, a slot that is free, taken by the same number, and taken by one that is still to come; a wait to resume. -/
theorem witness_log : let s := logAt 0 3 0; let q := appendSeq s (bitsFrom (0x3200000007 : W64) 32 16)
    s.ends 0 3 1 ∧ (logAt 1 3 0).issues 0 3 ∧ (logAt 0 3 q).issues 0 3 ∧ (logAt 0 3 (q + 64)).ends 0 3 1 ∧ (logAt 0 1 0).issues 0 3
    ∧ formFault (.logAppend ⟨1, 30, 21, 0, 22, 0⟩) = none ∧ formFault (.logReplay ⟨1, 30, 22, 0⟩) = none ∧ formFault (.logResume ⟨1, 23, 0⟩) = none ∧ destS 30 = .ok (.g 14)
    ∧ readS (s.seen 0) 21 0 = .ok 0x12340005678 ∧ readS (s.seen 0) 22 0 = .ok 0x3200000007 ∧ readS (s.seen 0) 23 0 = .ok 9
    ∧ (logEn s = true ∧ (s.ctx 0).asid.toNat = logAsid s) ∧ ((logAt 1 3 0).ctx 0).asid.toNat ≠ logAsid (logAt 1 3 0) ∧ q = 201
    ∧ (logHeld s q = false ∧ slotFree s q = true) ∧ logHeld (logAt 0 3 q) q = true ∧ (logHeld (logAt 0 3 (q + 64)) q = false ∧ slotFree (logAt 0 3 (q + 64)) q = false)
    ∧ (logState s = 3 ∧ s.log.waitAt = (9 : W64).toNat) ∧ logState (logAt 0 1 0) ≠ 3 := by
  and_intros <;> first | decide +kernel | exact ok_of_gives (by decide +kernel) | rfl

/-- Job 2 on core 0 with these tasks on its unit, a word to push, and a task held or not. -/
def wlAt (w : W64) (ts : List Task) (held : Option (W64 × Nat)) (done : Bool) : State :=
  let s := ctx0 (slotAt 3 [(5, w), (6, 0x1FF)]) fun c => { c with task := held, unit := { c.unit with job := 2 } }
  s.setCore 0 { s.core 0 with tasks := ts, wlDone := if done then [2] else [], wlDelta := 1 }

/-- WorklistSlots: pushes to a unit with 511 and 512 tasks and of a reserved word; pops with a task at the bound, with none, after the end, and while a
task is held; and the end of a task. -/
theorem witness_worklist : let s := wlAt 0xFF80000000000000 (List.replicate 511 ⟨9, 1, 5⟩) none false; let p := wlAt 0 [⟨2, 255, 0x77⟩] none false; let h := wlAt 0 [] (some (7, 255)) false
    s.ends 0 3 1 ∧ (wlAt 0 (List.replicate 512 ⟨9, 1, 5⟩) none false).ends 0 3 1 ∧ p.ends 0 3 1 ∧ h.ends 0 3 1 ∧ (wlAt 0 [] none true).ends 0 3 1
    ∧ formFault (.wlPush ⟨1, 21, 0, 22, 0⟩) = none ∧ formFault (.wlPop ⟨1, 30⟩) = none ∧ formFault (.wlDone ⟨1⟩) = none ∧ destS 30 = .ok (.g 14) ∧ readS (s.seen 0) 21 0 = .ok 0xFF80000000000000 ∧ readS (s.seen 0) 22 0 = .ok 0x1FF
    ∧ bitsFrom (0xFF80000000000000 : W64) 54 10 = 1022 ∧ bitsFrom (0xFFC0000000000000 : W64) 54 10 = 1023 ∧ taskCount s 0 < 512 ∧ 512 ≤ taskCount (wlAt 0 (List.replicate 512 ⟨9, 1, 5⟩) none false) 0
    ∧ (h.ctx 0).task.isSome = true ∧ (p.ctx 0).task = none ∧ popChoice p 0 2 = some (0, ⟨2, 255, 0x77⟩) ∧ p.wlJobs = [] ∧ popChoice s 0 2 = none
    ∧ ((wlAt 0 [] none true).core 0).wlDone.contains 2 = true ∧ (s.core 0).wlDone.contains 2 = false := by
  and_intros <;> first | decide +kernel | exact ok_of_gives (by decide +kernel) | rfl

/-- WorklistSlots: nothing spills on that device. -/
theorem witness_no_spill : ∀ c, spillBase (wlAt 0 [⟨2, 255, 0x77⟩] none false) c = none := by
  intro c
  have : ((wlAt 0 [⟨2, 255, 0x77⟩] none false).core c).wlSpill = 0 := by
    by_cases h : c = 0
    · subst h; rfl
    · have e : (wlAt 0 [⟨2, 255, 0x77⟩] none false).core c = (slotAt 3 []).core c :=
        congrArg (fun o : Option Core => o.getD .reset) (tget_tset_ne _ _ h)
      have e' : (slotAt 3 []).core c = State.reset.core c := congrArg (fun o : Option Core => o.getD .reset) (tget_tset_ne _ _ h)
      rw [e, e']; rfl
  simp only [spillBase]
  rw [this]
  rfl

/-- A running launch with this number and this state of its level entry. -/
def launchOf (id : Nat) : Launch := ⟨id, 0, 0, 0, 0, 0, 0, 0, 0, none, 0, [1], [1], [], [], 0, [], [], 0, false⟩

/-- Context 0 in this state, privileged or not, in launch 9. -/
def modeAt (h priv : Bool) (l : List (Nat × W64)) : State :=
  ctx0 { slotAt 3 l with launches := [launchOf 9], faultSeq := 4, decisions := [⟨3, none, some 0, none⟩] } fun c =>
    { c with status := if h then .handler else .running, trapPc := 0x888, record := if h then some 3 else none, unit := { c.unit with launch := 9, priv := priv } }

/-- Traps: a context outside the handler and one in it, with its launch and its record; privileged and not. -/
theorem witness_traps : let s := modeAt false false [(5, 4)]; let h := modeAt true false [(5, 4)]; let p := modeAt false true [(5, 4)]
    (s.ctx 0).status ≠ .handler ∧ s.bundle = some ⟨0, 3, [], false, false⟩ ∧ (h.ctx 0).status = .handler ∧ h.launch? (h.ctx 0).unit.launch = some (launchOf 9) ∧ (launchOf 9).done = false
    ∧ s.ends 0 3 1 ∧ h.ends 0 3 1 ∧ s.issues 0 3 ∧ p.issues 0 3 ∧ formFault (.trapRaise ⟨1, 21, 0⟩) = none ∧ formFault (.trapRet ⟨1⟩) = none ∧ readS (s.seen 0) 21 0 = .ok 4
    ∧ (h.ctx 0).record = some 3 ∧ (p.ctx 0).unit.priv = true ∧ (s.ctx 0).unit.priv = false := by
  and_intros <;> first | decide +kernel | exact ok_of_gives (by decide +kernel) | rfl

/-- PrivilegeAndMaintenance: operands of each kind of flush and of a SPLIT at 12 and 13, of a tinv of all pages, and every privileged register. -/
theorem witness_privilege : let s := modeAt false false [(5, 12), (6, 13), (7, 0x3F), (8, 0x200000003), (9, 0x30000)]; let p := modeAt false true [(5, 12), (6, 13), (7, 0x3F), (8, 3), (9, 0x30000)]
    let e : State := { p with splits := [(0, 12)] }; let b : State := { p with tableWrites := [(0x200000, 8, 5)] }.setCtx 4 { p.ctx 4 with pend := [⟨5, 0, .access { accessOf p 4 0 .load weak 0 [⟨.va 0x30008 0, 8, 0, 64, 0⟩] with asid := 3 }⟩] }
    s.issues 0 3 ∧ p.issues 0 3 ∧ p.ends 0 3 1 ∧ e.ends 0 3 1 ∧ b.ends 0 3 1 ∧ (s.ctx 0).unit.priv = false ∧ (s.ctx 0).status ≠ .handler ∧ (p.ctx 0).unit.priv = true
    ∧ readS (s.seen 0) 21 0 = .ok 12 ∧ readS (p.seen 0) 22 0 = .ok 13 ∧ readS (p.seen 0) 23 0 = .ok 0x3F ∧ readS (s.seen 0) 24 0 = .ok 0x200000003 ∧ readS (p.seen 0) 24 0 = .ok 3 ∧ readS (p.seen 0) 25 0 = .ok 0x30000
    ∧ ([.sysFlushSplit, .sysFlushL2, .sysFlushL2Clean, .sysFlushL1] : List (A1 → Instr)).all (fun i => formFault (i ⟨1, 21, 0⟩) == none) = true ∧ formFault (.sysShinv ⟨1⟩) = none ∧ formFault (.sysTinv ⟨1, 24, 0, 25, 0⟩) = none
    ∧ ([0x001, 0x002, 0x003, 0x062, 0x072] : List (BitVec 12)).all (fun i => formFault (.sysCsrw { s := 1, a := 21, f := 0, i := i }) == none) = true
    ∧ (bitsFrom (12 : W64) 4 2 = 0 ∧ bitsFrom (12 : W64) 0 4 = 12) ∧ bitsFrom (13 : W64) 0 4 = 13 ∧ bitsFrom (0x3F : W64) 4 2 = 3 ∧ e.split (0 / 4) = 12 ∧ p.split (0 / 4) ≠ 12
    ∧ tablesSettled p = true ∧ tablesSettled b = false ∧ tinvQuiet p 3 0x30000 0 = true ∧ tinvQuiet b 3 0x30000 0 = false := by
  and_intros <;> first | decide +kernel | exact ok_of_gives (by decide +kernel) | rfl

/-- A context of job 0 that names an instance of a level; context 4 belongs to job 3. -/
def levelAt (a : W64) : State :=
  let s := modeAt false false [(5, a)]
  s.setCtx 4 { s.ctx 4 with status := .running, unit := { (s.ctx 4).unit with job := 3 } }

/-- LevelSlots: the last instance of level 4 and the first beyond it, a level that is none, and an instance of another job. -/
theorem witness_levels : let s := levelAt 0x30004; let t := levelAt 0x40004; let j := levelAt 0x40000; let o : C2 := ⟨1, 30, 21, 0⟩
    s.ends 0 3 1 ∧ t.issues 0 3 ∧ j.issues 0 3 ∧ formFault (.lvlStat o) = none ∧ formFault (.lvlCancel o) = none ∧ destS 30 = .ok (.g 14)
    ∧ readS (s.seen 0) 21 0 = .ok 0x30004 ∧ readS (t.seen 0) 21 0 = .ok 0x40004 ∧ readS (j.seen 0) 21 0 = .ok 0x40000
    ∧ (bitsFrom (0x30004 : W64) 0 3 = 4 ∧ bitsFrom (0x30004 : W64) 16 16 = 3 ∧ jobOfInstance s 4 3 = none) ∧ bitsFrom (0x40004 : W64) 16 16 = 4
    ∧ (bitsFrom (0x40000 : W64) 0 3 = 0 ∧ bitsFrom (0x40000 : W64) 16 16 = 4 ∧ jobOfInstance j 0 4 = some 3 ∧ (j.ctx 0).unit.job ≠ 3) := by
  and_intros <;> first | decide +kernel | exact ok_of_gives (by decide +kernel) | rfl

/-- ControlRegisters: a register that reads, one that does not, and the words that WLCFG takes and refuses. -/
theorem witness_registers : let s := modeAt false true [(5, 0x2000005), (6, 0x01F0000E)]
    s.ends 0 3 1 ∧ s.issues 0 3 ∧ (s.ctx 0).unit.priv = true ∧ formFault (.sysCsrr { s := 1, d := 30, i := 0x0F0 }) = none ∧ formFault (.sysCsrr { s := 1, d := 30, i := 0xFFF }) = none ∧ destS 30 = .ok (.g 14)
    ∧ (csrRead s 0 0x0F0).isSome = true ∧ csrRead s 0 0xFFF = none ∧ (csrRead s 0 0x000).isSome = true ∧ readS (s.seen 0) 21 0 = .ok 0x2000005
    ∧ ([0x001, 0x002, 0x003, 0x005, 0x006, 0x060, 0x061, 0x062, 0x072, 0x004] : List (BitVec 12)).all (fun i => formFault (.sysCsrw { s := 1, a := 21, f := 0, i := i }) == none) = true
    ∧ (bitsFrom (0x2000005 : W64) 0 10 + 14 ≤ bitsFrom (0x2000005 : W64) 16 10 ∧ bitsFrom (0x2000005 : W64) 16 10 = 512)
    ∧ (bitsFrom (0x20001F2 : W64) 0 10 + 14 = bitsFrom (0x20001F2 : W64) 16 10) ∧ ¬ bitsFrom (0x20001F3 : W64) 0 10 + 14 ≤ bitsFrom (0x20001F3 : W64) 16 10
    ∧ (0x004 : BitVec 12) ∉ ([0x001, 0x002, 0x003, 0x005, 0x006, 0x060, 0x061, 0x062, 0x072] : List (BitVec 12)) := by
  and_intros <;> first | decide +kernel | exact ok_of_gives (by decide +kernel) | rfl

/-- A device whose bring-up has succeeded. -/
def up : State := match execPowerUp ⟨0xABC, 1, true, 0, true, [], []⟩ State.reset with
  | .next t => t
  | _ => State.reset

theorem witness_up_canonical : up.canonical ∧ State.reset.canonical := ⟨canonical_of (by decide +kernel), canonical_of (by decide +kernel)⟩

/-- BringUp: a device before bring-up and after it, and self-tests that find nothing, two detours, and a failure. -/
theorem witness_bring_up : State.reset.devReady = false ∧ State.reset.failed = false ∧ up.devReady = true ∧ up.firmware = 0xABC ∧ failCode .reset ⟨1, 1, true, 0, true, [(3, 4), (70, 71)], [0x20000000]⟩ = 0
    ∧ failCode .reset ⟨1, 1, true, 0, true, [(3, 4), (4, 5)], []⟩ ≠ 0 ∧ failCode .reset ⟨1, 1, true, 9, false, [], []⟩ ≠ 0 ∧ failCode .reset ⟨1, 1, true, 9, false, [], []⟩ ≠ 1
    ∧ failCode .reset ⟨1, 1, false, 0, true, [], []⟩ = 1 ∧ failCode { State.reset with rollback := 2 } ⟨1, 1, true, 0, true, [], []⟩ = 1 := by decide +kernel

/-- A device that is up with these words for TICK and its ports. -/
def tickAt (tick : W64) : State := { up.setMmio 0 0x200 tick with ports := [(0, { Port.reset with egress := [(.abort 1 2, true, false)] }), (2, Port.reset)] }

/-- TimePowerHeat: TICK with and without DET and LOCK, ports in order. -/
theorem witness_time : tickNow (tickAt 3) ≤ (tickAt 3).ticked ∧ ({ tickAt 3 with clk := 2 ^ 40 } : State).ticked < tickNow { tickAt 3 with clk := 2 ^ 40 } ∧ (tickAt 3).devReady = true ∧ (tickAt 3).det = true ∧ (tickAt 0).det = false ∧ (tickAt 0).tickLock = false ∧ (tickAt 2).tickLock = true ∧ (1 : W32).getLsbD 0 = true ∧ (2 : W32).getLsbD 0 = false := by
  decide +kernel

/-- TimePowerHeat: a core whose issuing context waits for a place in the view directory. -/
theorem witness_view_stall : (({ tickAt 3 with clk := 9 } : State).setCore 2 { Core.reset with cur := some 1 } |>.setCtx 9 { Ctx.reset with wait := some (.directory 0 []) }).viewStalls 2 ∧ ¬ (tickAt 3).viewStalls 2 := by
  refine ⟨⟨1, 0, [], by decide +kernel, by decide +kernel⟩, ?_⟩
  rintro ⟨x, asked, slot, h, -⟩
  have : ((tickAt 3).core 2).cur = none := by decide +kernel
  rw [this] at h
  cases h

theorem witness_time_canonical : (tickAt 3).canonical ∧ Tbl.rising (tickAt 3).ports := ⟨canonical_of (by decide +kernel), by unfold Tbl.rising; decide +kernel⟩

/-- TimePowerHeat: a current at 100, a slew limit of 5 a step, the samples at both its ends, and temperatures at TLIM 0x50 and TTRIP 0x60. -/
theorem witness_power : let s := ((up.setMmio 0 0x308 (.ofNat 64 (100 + 15 * 2 ^ 32))).setMmio 0 0x300 5).setMmio 0 0x320 0x6050; let stat := s.mmioWord 0 0x308
    bitsFrom stat 0 16 = 50 + 10 * bitsFrom (s.mmioWord 0 0x300) 0 8 ∧ 150 = bitsFrom stat 0 16 + 10 * bitsFrom (s.mmioWord 0 0x300) 0 8
    ∧ bitsFrom (s.mmioWord 0 0x320) 0 8 = 0x50 ∧ bitsFrom (s.mmioWord 0 0x320) 8 8 = 0x60 ∧ 0x4F < bitsFrom (s.mmioWord 0 0x320) 0 8 := by decide +kernel

theorem witness_power_canonical : (((up.setMmio 0 0x308 (.ofNat 64 (100 + 15 * 2 ^ 32))).setMmio 0 0x300 5).setMmio 0 0x320 0x6050).canonical := canonical_of (by decide +kernel)

/-- TablesAndConversions: the first and last word of the tables, an engine that is idle and one with a call, and a column that asks for another SPLIT. -/
theorem witness_tables : let s := { up with splits := [(255, 12)] }.setCtx 1020 { up.ctx 1020 with status := .running, wait := some (.block (.maintenance (some 0))) }
    s.devReady = true ∧ isTable 0x100000 = true ∧ isTable 0x27FFF8 = true ∧ 0x27FFF8 % 8 = 0 ∧ (s.engine 511).queue = [] ∧ (s.engine 511).writes = [] ∧ ((s.setEngine 511 { s.engine 511 with queue := [bareCall] }).engine 511).queue ≠ []
    ∧ 0 ≠ s.split 255 ∧ splitRequest s 255 = some 0 ∧ columnQuiet s 255 = true := by decide +kernel

theorem witness_tables_canonical : ({ up with splits := [(255, 12)] }.setCtx 1020 { up.ctx 1020 with status := .running, wait := some (.block (.maintenance (some 0))) }).canonical :=
  canonical_of (by decide +kernel)

/-- The state that a meaning leaves. -/
def after (o : Host.Outcome State Fault Refusal) : State := match o with
  | .next t => t
  | _ => State.reset

/-- A launch record (R156) of `units` units of priority 3 with these words in place of its own: code at VA 0 of 64 bytes, two levels. -/
def recordWords (units : Nat) (extra : List (Nat × Nat)) : Nat :=
  let base : List Nat := [0, 64, 4 + 2 ^ 16 + 2 ^ 32, 1 + 3 * 64, units, 5, 0, 0, 0, 0, 2 ^ 24, 0x40, 0x3000]
  wordsNat ((List.range 32).map fun i => match extra.find? (·.1 == i) with
    | some x => x.2
    | none => base.getD i 0)

/-- A device that is up, with launch queue 0 open or not, that record at offset 0x1000 of the vault of core 0, and its code. -/
def boot (r q0 : Nat) : State :=
  { up.setMmio 0 0xA000 (.ofNat 64 q0) with
    mem := bytesAt (dramKey 0 0x1000) 256 r ++ (List.range 16).flatMap fun i => bytesAt (dramKey 0 (0x20000 + 4 * i)) 4 (if i % 4 = 3 then 0xA0000000 else 0x20000000)
    tlb := [⟨0, 0, 0, 0x10000, 0, dramKey 0 0x20000, true⟩] }

/-- Launch queue 0 open for priorities up to 7 and PRIV launches. -/
def openQueue : Nat := 2 ^ 63 + 2 ^ 62 + 7 * 2 ^ 16 + 15 * 2 ^ 24

/-- UnitLife: a launch that was submitted, its first unit placed, its SPLIT converted and its code loaded. -/
def submitted : State := after (execLqSubmit 0 0 0x4000000000001000 (boot (recordWords 2 []) openQueue))
def placed : State := after (execUnitPlace 0 submitted)
def loaded : State := after (execOverlayLoad 0 (after (execSplitConversion 0 1 placed)))
def ending (st : CtxStatus) : State :=
  let s := after (execUnitStart 0 loaded)
  { s.setCtx 0 { s.ctx 0 with status := st, given := [tileOf (spKey 0 0 0x7000)] } with engineTiles := [tileOf (spKey 0 0 0x7000)] }

theorem witness_unit_places : (placeChoice (assignPipes submitted) 0).map (·.ctx) = some 0 ∧ placeChoice (assignPipes up) 0 = none := by decide +kernel

/-- Unit 4 of launch 9 placed, with its stage 0 still to be read. -/
def unread : State := { stageAt 0 0 with launches := (stageAt 0 0).launches.map fun l => { l with asperm := -1 }, engineTiles := tileOf (spKey 0 0 0x2000) :: (stageAt 0 0).engineTiles, stageZero := [⟨0, true, [], [], false⟩] }

theorem witness_stage_zero : let l := (unitLaunch unread 0).getD (launchOf 0); let r := readStage unread l (schedOwner l.id) 0 0 4 0 (bitsFrom (l.word 10) 0 16)
    unitLaunch unread 0 = some l ∧ unread.stageZero.find? (·.ctx == 0) = some ⟨0, true, [], [], false⟩ ∧ unread.decisions = [] ∧ splitReady unread l 0 = true ∧ (unread.ctx 0).unit.index = 4
    ∧ (match r.1 with | .ok es => decide (es.length = 1) | .error _ => false) = true ∧ stageFits r.2 0 1 = true := by decide +kernel

/-- The same placement with an uncorrectable error in the first line of the code. -/
def badCode : State := { after (execSplitConversion 0 1 placed) with badLines := [dramKey 0 0x20000 / 128] }

theorem witness_overlay : let s := after (execSplitConversion 0 1 placed); let l := (unitLaunch s 0).getD (launchOf 0); let z := (s.stageZero.find? (·.ctx == 0)).getD ⟨0, false, [], [], false⟩
    let r := readCode badCode l 0 0 (bitsFrom (l.word 1) 0 32 / 4)
    unitLaunch s 0 = some l ∧ unitLaunch badCode 0 = some l ∧ s.stageZero.find? (·.ctx == 0) = some z ∧ startReady s 0 l z = true ∧ startReady badCode 0 l z = true
    ∧ (placedOn s 0).all (fun j => (s.ctx j).status == .reserved) = true ∧ needsLoad s l 0 = true ∧ needsLoad badCode l 0 = true
    ∧ (readCode s l 0 0 (bitsFrom (l.word 1) 0 32 / 4)).1.isOk = true ∧ r.1.isOk = false ∧ r.2.launch? l.id = some l := by decide +kernel

theorem witness_unit_starts : let l := (unitLaunch placed 0).getD (launchOf 0); let z := (placed.stageZero.find? (·.ctx == 0)).getD ⟨0, false, [], [], false⟩
    unitLaunch placed 0 = some l ∧ placed.stageZero.find? (·.ctx == 0) = some z ∧ z.unread = false ∧ mayStart placed 0 l z = false ∧ mayStart loaded 0 l z = true
    ∧ unitLaunch loaded 0 = some l ∧ loaded.stageZero.find? (·.ctx == 0) = some z := by decide +kernel

theorem witness_unit_ends : let s := ending .retiring; let t := ending .stopping
    (s.ctx 0).status = .retiring ∧ unitCommands s 0 0 (s.ctx 0).unit.launch = false ∧ (s.ctx 0).pend = [] ∧ (s.ctx 0).given.all (mayTake s) = true
    ∧ ((s.launch? (s.ctx 0).unit.launch).map fun l => l.done || !decide (l.lid < 1024) || !decide (s.levelDone l.lid + 1 < 2 ^ 32)) = some false
    ∧ (t.ctx 0).status = .stopping ∧ (t.ctx 0).pend = [] ∧ (t.ctx 0).results = [] ∧ (t.ctx 0).given.all (mayTake t) = true := by decide +kernel

theorem witness_unit_gives_back : let s := addPend (ending .retiring) 0 (.release 3 (.view none))
    (s.ctx 0).status = .retiring ∧ unitCommands s 0 0 (s.ctx 0).unit.launch = false ∧ (s.ctx 0).pend ≠ [] ∧ (s.ctx 0).given.all (mayTake s) = true := by
  decide +kernel

theorem witness_unit_ends_canonical : (ending .retiring).canonical := canonical_of (by decide +kernel)

/-- The record at its place, or none where it cannot be read. -/
def readAt (s : State) (ptr : W64) : Option Nat := (readLaunch s 0 0 ptr).1

/-- SubmissionAndFreeing: a record that is valid, with a bad field, for an entry in use, that cannot be read, and in a queue that is closed. -/
theorem witness_submissions : let s := boot (recordWords 2 []) openQueue; let b := boot (recordWords 0 []) openQueue; let u (s : State) (s' : State) : State := { s' with nextId := s.nextId + 1 }
    let l (s : State) (r : Nat) := recordLaunch s 0 0 s.nextId r 0x4000000000001000 none 0; let s' := (readLaunch s 0 0 0x4000000000001000).2; let v := l s (recordWords 2 [])
    s.devReady = true ∧ (lqWord s 0 0 0).getLsbD 63 = true ∧ (lqWord (boot (recordWords 2 []) 0) 0 0 0).getLsbD 63 = false
    ∧ readAt s 0x4000000000001080 = none ∧ readAt s 0x4000000000001000 = some (recordWords 2 []) ∧ readAt b 0x4000000000001000 = some (recordWords 0 [])
    ∧ recordFields (l b (recordWords 0 [])) = false ∧ (u b (readLaunch b 0 0 0x4000000000001000).2).levelState (l b (recordWords 0 [])).lid = 0
    ∧ (u s s').levelState v.lid = 0 ∧ recordFields v = true ∧ recordPointers (u s s') v ⟨v.die * 64, v.asperm, v.priv⟩ = true ∧ v.priv = false ∧ v.prio ≤ bitsFrom (lqWord (u s s') v.die v.queue 0) 16 3
    ∧ levelsOk (u s s') v = true ∧ v.det = false ∧ v.pipe = false ∧ inCancelled (u s s') v = false ∧ v.preds = [] ∧ ((u s s').setMmio 0 (0x300000 + 16 * 5) (.ofNat 64 (2 ^ 61))).levelState v.lid ≠ 0 := by decide +kernel

theorem witness_submissions_canonical : (boot (recordWords 2 []) openQueue).canonical ∧ (readLaunch (boot (recordWords 2 []) openQueue) 0 0 0x4000000000001000).2.canonical
    ∧ (readLaunch (boot (recordWords 2 []) openQueue) 0 0 0x4000000000001080).2.canonical ∧ (readLaunch (boot (recordWords 0 []) openQueue) 0 0 0x4000000000001000).2.canonical :=
  ⟨canonical_of (by decide +kernel), canonical_of (by decide +kernel), canonical_of (by decide +kernel), canonical_of (by decide +kernel)⟩

/-- The record of a pipeline of two stages with its stage table at that pointer. -/
def pipeRecord (ptr : Nat) : Nat := recordWords 2 [(3, 1 + 3 * 64 + 3 * 2 ^ 12), (8, ptr)]

/-- That record submitted, with a stage table at offset 0x2000 of the vault of core 0 whose queue has `depth` slots. -/
def pipeBoot (ptr depth : Nat) : State :=
  let tab := wordsNat ([2 ^ 16 + 3 * 2 ^ 24 + 15 * 2 ^ 32, 0, 0, 0, 2 ^ 16 + 3 * 2 ^ 24 + 15 * 2 ^ 36] ++ List.replicate 27 0 ++ [0x2000000000004000, depth])
  let s := boot (pipeRecord ptr) openQueue
  { s.setMmio 0 0x600000 0x8003000000000000 with mem := bytesAt (dramKey 0 0x1000) 256 (pipeRecord ptr) ++ bytesAt (dramKey 0 0x2000) 384 tab }

/-- The launch that the record at that place makes, with the state after its read. -/
def pipeLaunch (s : State) : Launch × State :=
  let s' := (readLaunch s 0 0 0x4000000000001000).2
  (recordLaunch s 0 0 s'.nextId ((readAt s 0x4000000000001000).getD 0) 0x4000000000001000 none 0, { s' with nextId := s'.nextId + 1 })

/-- The rights of queue 0. -/
def queueWho : Who := ⟨0, 30, false⟩

/-- The stage table of that launch keeps the rules, and nothing stands against the launch. -/
def pipeTable (s : State) : Option Bool :=
  let x := pipeLaunch s
  match readTable x.2 x.1 queueWho with
  | (.val v, t) => let p := { x.1 with stageTab := BitVec.ofNat 3072 v }; some (stageTableOk p queueWho && !inCancelled t p && p.preds.isEmpty)
  | _ => none

/-- SubmissionAndFreeing: pipelines with a table that keeps the rules, with one that does not, and with one in another device's memory. -/
theorem witness_pipe_records : let y := pipeLaunch (pipeBoot 0x8000300000000000 4)
    ([pipeBoot 0x4000000000002000 4, pipeBoot 0x4000000000002000 65, pipeBoot 0x8000300000000000 4].all fun s => let x := pipeLaunch s
      x.1.pipe && x.2.levelState x.1.lid == 0 && recordFields x.1 && recordPointers x.2 x.1 queueWho && levelsOk x.2 x.1 && !x.1.priv && !x.1.det
        && decide (x.1.prio ≤ bitsFrom (lqWord x.2 0 0 0) 16 3) && decide ((⟨x.1.die * 64, x.1.asperm, x.1.priv⟩ : Who) = queueWho)) = true
    ∧ pipeTable (pipeBoot 0x4000000000002000 4) = some true ∧ pipeTable (pipeBoot 0x4000000000002000 65) = some false
    ∧ (readTable y.2 y.1 queueWho).1 = .wait ∧ (readTable y.2 y.1 queueWho).2.validating = [] := by decide +kernel

/-- Mailbox 63 with these words, its handler record at that place, and a handler launch that is over or not. -/
def boxAt (ws : List W64) (busy : Option Bool) : State :=
  let s := words (boot (recordWords 2 []) openQueue) (0xC000 + 32 * 63 + 8) [0x4000000000001000, 0x0000000500002000]
  { s with mailboxes := if ws = [] then [] else [(63, ws)], launches := match busy with
    | none => []
    | some d => [{ launchOf 99 with mailbox := some 63, done := d }] }

/-- SubmissionAndFreeing: a mailbox that is empty, one whose handler runs, and one whose handler may start on the first of two words. -/
theorem witness_mailbox : let s := boxAt [9, 10] (some true); let t : State := { s with mailboxes := tset s.mailboxes 63 [10] }; let s' := (readLaunch t 0 0 0x4000000000001000).2
    let l := recordLaunch s 0 0 s'.nextId (recordWords 2 []) 0x4000000000001000 (some 63) 9; let u : State := { s' with nextId := s'.nextId + 1 }
    s.devReady = true ∧ (tget (boxAt [] none).mailboxes 63).getD [] = [] ∧ (boxAt [9] (some false)).launches.any (fun l => l.mailbox == some 63 && !l.done) = true ∧ tget s.mailboxes 63 = some (9 :: [10])
    ∧ (s.launches ++ s.validating).all (fun l => l.mailbox != some 63 || l.done) = true ∧ bitsFrom (s.mmioWord 0 (0xC000 + 32 * 63 + 16)) 0 4 = 0 ∧ s.mmioWord 0 (0xC000 + 32 * 63 + 8) = 0x4000000000001000 ∧ (lqWord s 0 0 0).getLsbD 63 = true
    ∧ readAt s 0x4000000000001000 = some (recordWords 2 []) ∧ readAt t 0x4000000000001000 = some (recordWords 2 [])
    ∧ s.levelState l.lid = 0 ∧ u.levelState l.lid = 0 ∧ recordFields l = true ∧ recordPointers u l ⟨l.die * 64, l.asperm, l.priv⟩ = true ∧ l.priv = false ∧ l.prio ≤ bitsFrom (lqWord u l.die l.queue 0) 16 3
    ∧ levelsOk u l = true ∧ l.det = false ∧ l.pipe = false ∧ inCancelled u l = false ∧ l.preds = [] := by decide +kernel

theorem witness_mailbox_canonical : (boxAt [9, 10] (some true)).canonical ∧ (readLaunch { boxAt [9, 10] (some true) with mailboxes := tset (boxAt [9, 10] (some true)).mailboxes 63 [10] } 0 0 0x4000000000001000).2.canonical :=
  ⟨canonical_of (by decide +kernel), canonical_of (by decide +kernel)⟩

/-- SubmissionAndFreeing: the last level entry in each state, and a retired view whose release has performed or is pending. -/
theorem witness_entries : let s (n : Nat) := up.setMmio 0 (0x300000 + 16 * 1299) (.ofNat 64 (n * 2 ^ 61 + 77)); let v := (s 3).setCore 2 { up.core 2 with dir := [(0, ⟨1, 3, none⟩), (4, ⟨1, 5, some 1⟩)] }
    let h := v.setCtx 9 { v.ctx 9 with pend := [⟨3, 0, .access { accessOf v 9 0 .store weak 0 [⟨.mem (dramKey 0 0), 4, 0, 32, 0⟩] with entry := some 4 }⟩] }
    (s 3).devReady = true ∧ (s 3).levelState 1299 = 3 ∧ (s 6).levelState 1299 = 6 ∧ ¬ (3 ≤ (s 2).levelState 1299) ∧ ¬ (s 7).levelState 1299 ≤ 6 ∧ (s 2).levelState (1296 + 3) = 2 ∧ (s 3).levelState (1296 + 3) ≠ 2
    ∧ tget (v.core 2).dir 4 = some ⟨1, 5, some 1⟩ ∧ tget (v.core 2).dir 0 = some ⟨1, 3, none⟩ ∧ entryDone v 9 4 1 = true ∧ entryDone h 9 4 1 = false := by decide +kernel

theorem witness_entries_canonical : (up.setMmio 0 (0x300000 + 16 * 1299) (.ofNat 64 (3 * 2 ^ 61 + 77))).canonical := canonical_of (by decide +kernel)
theorem witness_directory : Tbl.rising ([(0, ⟨1, 3, none⟩), (4, ⟨1, 5, some 1⟩)] : Tbl DirEntry) := by unfold Tbl.rising; decide +kernel

/-- A launch with this number whose static schedule starts at offset 0x2000 of the own vault. -/
def copier : Launch := { launchOf 9 with asperm := -1, record := BitVec.ofNat 2048 (wordsNat [0, 64, 1, 0, 1, 7, 0, 0, 0, 0x4000000000002000, 1 + 3 * 2 ^ 16]) }

/-- A copy entry (R320) of 2 rows of 40 FP32 elements from `src` to offset 0x4000 with this semaphore byte and phaser, and its command in state `st`; its tiles are the
engine's, or not. -/
def entryWords (src sem ph w5 : Nat) : Nat :=
  wordsNat [src, 0x4000, 40 + 2 * 2 ^ 16 + 2 ^ 32, 0, 2 + 4 * 2 ^ 16, 6 * 16 + 6 + w5 + ph * 2 ^ 24 + sem * 2 ^ 32 + 0x7F * 2 ^ 8, 0xFFFFFFFF + 4 * 2 ^ 32, 0]
def copyOf (src sem ph w5 : Nat) (st : CopyState) : CopyCmd :=
  let x := BitVec.ofNat 512 (entryWords src sem ph w5)
  let lines := (entLines 0 x).map (·.1)
  ⟨40, 0, 1, 9, 4, 0, x, st, false, 0, 0, 0, lines, tilesOf lines, none, none, 0, false⟩
def copyAt (src sem ph w5 : Nat) (st : CopyState) (tiles : Bool) : State :=
  let c := copyOf src sem ph w5 st
  { up with launches := [copier], copies := [c], engineTiles := if tiles then c.tiles else [], emptyLines := c.lines
            mem := bytesAt (dramKey 0 0x1000) 512 0x3F80000040490FDB ++ bytesAt (dramKey 0 0x2000) 64 (entryWords src sem ph w5) }

def source : Nat := 0x3000000000001000

/-- CopyProgress: 48 entries placed, and none with one in the backlog whose record reads; entries to start whose tiles are not given, whose fields are wrong, and
that pass; and entries that run and that do not. -/
theorem witness_copy_starts : let s := copyAt source 0x15 63 0; let c := copyOf source 0x15 63 0; let bad := copyOf source 0x15 63 (2 ^ 21) .queued
    48 ≤ placesUsed (stageAt 48 0) 0 ∧ placesUsed (s .backlog true) 0 < 48 ∧ (s .backlog true).copies.find? (fun c => c.core / 8 == 0 && c.state == .backlog) = some (c .backlog)
    ∧ (s .backlog true).launch? 9 = some copier ∧ (match launchRecord (s .backlog true) copier 1064 0 (copier.word 9 + BitVec.ofNat 64 (64 * 0)) 64 with
        | (.val _, _) => true
        | _ => false) = true
    ∧ (let d : CopyCmd := { c .backlog with entry := (c .backlog).entry ||| 0x4000000000006000#512 <<< 448 }; word d.entry 7 ≠ 0 ∧ d.entry ≠ (c .backlog).entry
      ∧ (match recordPlace (s .backlog true) (copier.who 0) 0 0 (word d.entry 7) 32 true with
        | .ok _ => true
        | .error _ => false) = true) ∧ bad.entry ≠ (c .queued).entry
    ∧ (s .queued true).copy? 40 = some (c .queued) ∧ (c .queued).tiles.all (tileReady (s .queued false)) = false ∧ (c .queued).tiles.all (tileReady (s .queued true)) = true
    ∧ word (c .queued).entry 7 = 0 ∧ word bad.entry 7 = 0 ∧ (entFields (copyAt source 0x15 63 (2 ^ 21) .queued true) 0 bad.entry).isSome = true ∧ bad.tiles.all (tileReady (copyAt source 0x15 63 (2 ^ 21) .queued true)) = true
    ∧ entFields (s .queued true) 0 (c .queued).entry = none ∧ entView (c .queued).entry = false
    ∧ (entElems (c .queued).entry).all (fun x => (entElemCheck (s .queued true) (copier.who 0) { c .queued with view := none, crec := none } x.1 x.2.1 x.2.2) == none) = true
    ∧ (s .running true).copy? 40 = some (c .running) ∧ (s .preempted true).copy? 40 = some (c .preempted) := by decide +kernel

/-- CopyProgress: an entry of the backlog whose tile still waits for its give. -/
theorem witness_backlog_give : let s := copyAt source 0x15 63 0 .backlog true; let c := copyOf source 0x15 63 0 .backlog
    let g := s.setCtx 0 { s.ctx 0 with pend := [⟨3, 0, .release 2 (.give (tileOf (spKey 0 0 0x4000)))⟩] }
    g.copies.find? (fun c => c.core / 8 == 0 && c.state == .backlog) = some c ∧ c.tiles.any (giveWaits g) = true ∧ c.tiles.any (giveWaits s) = false := by decide +kernel

/-- CopyProgress: a chunk whose lines can be read, one of a source that is out of range, one that meets an uncorrectable error, and one that waits for another device. -/
theorem witness_copy_chunks : let s := copyAt source 0x15 63 0 .running true; let f := copyAt 0x3000000030000000 0x15 63 0 .running true; let p := copyAt 0x8000300000000000 0x15 63 0 .running true; let c := copyOf source 0x15 63 0 .running
    c.tiles.all (tileReady s) = true ∧ (match chunkOut s copier c with
      | (.ok out, s') => canon s' && decide ((out.map (·.1)).Nodup) && decide (0 < out.length)
      | _ => false) = true
    ∧ (match chunkOut f copier (copyOf 0x3000000030000000 0x15 63 0 .running) with
      | (.error (.trap _), _) => true
      | _ => false) = true
    ∧ (match chunkOut { s with badLines := [dramKey 0 0x1000 / 128] } copier c with
      | (.error (.dead _), _) => true
      | _ => false) = true
    ∧ (match chunkOut (p.setMmio 0 0x600000 0x8003000000000000) copier (copyOf 0x8000300000000000 0x15 63 0 .running) with
      | (.error .wait, _) => true
      | _ => false) = true := by decide +kernel

/-- A copy that has completed, or failed, in its last steps; its core has phaser 47 with this state. -/
def lastAt (sem : Nat) (st : CopyState) : State :=
  let s := copyAt source sem 47 0 st true
  s.setCore 0 { s.core 0 with phasers := [(47, ⟨7, 1, 0, true, 0, 0, []⟩)] }

/-- CopyCompletion: a completed entry with and without a semaphore, a failed one, and records on a tile of the thread side, on one of the engine side and in DRAM. -/
theorem witness_copy_ends : let s := lastAt 0x1F .completing; let c := copyOf source 0x1F 47 0 .completing; let r (k : Nat) : CopyCmd := { c with step := 1, crec := some (.mem k) }
    let t (k : Nat) : State := { s with copies := [r k] }
    s.copy? 40 = some c ∧ c.step = 0 ∧ c.crec = none ∧ c.stage0 = false ∧ c.tiles.any (giveWaits s) = false ∧ s.savedCtxs = [] ∧ (word c.entry 5).getLsbD 36 = true ∧ (vget (s.ctx 1).k (bitsFrom (word c.entry 5) 32 4) 0).toNat < 2 ^ 32 - 1
    ∧ (word (copyOf source 0xF 47 0 .completing).entry 5).getLsbD 36 = false ∧ bitsFrom (word c.entry 5) 24 6 = 47 ∧ (word c.entry 5).getLsbD 37 = false
    ∧ (lastAt 0x1F (.failed 3 7)).copy? 40 = some (copyOf source 0x1F 47 0 (.failed 3 7))
    ∧ (t (spKey 0 0 0x6000)).copy? 40 = some (r (spKey 0 0 0x6000)) ∧ isSp (spKey 0 0 0x6000) = true ∧ tileReady s (tileOf (spKey 0 0 0x6000)) = false ∧ tileReady s (tileOf (spKey 0 0 0x4000)) = true
    ∧ (t (dramKey 0 0x5000)).copy? 40 = some (r (dramKey 0 0x5000)) ∧ isSp (dramKey 0 0x5000) = false := by decide +kernel

/-- CopyCompletion: the completed entry of a unit that is saved. -/
theorem witness_saved_semaphore : let c : CopyCmd := { copyOf source 0x1F 47 0 .completing with ctx := 5 }; let v : SavedCtx := ⟨1, Ctx.reset.unit, [], Vector.replicate 16 0, [15], 0, none, 0⟩
    let s : State := { lastAt 0x1F .completing with copies := [c], savedCtxs := [v] }
    s.copy? 40 = some c ∧ 4 ≤ c.ctx ∧ (word c.entry 5).getLsbD 36 = true ∧ s.savedCtxs.find? (·.key == c.core * 4 + c.ctx % 4) = some v ∧ savedCount s v 15 < 2 ^ 32 - 1 ∧ c.tiles.any (giveWaits s) = false := by
  decide +kernel

theorem witness_copy_ends_canonical : Tbl.rising ((lastAt 0x1F .completing).core 0).phasers
    ∧ ({ lastAt 0x1F .completing with copies := [{ copyOf source 0x1F 47 0 .completing with step := 1, crec := some (.mem (dramKey 0 0x5000)) }] } : State).canonical :=
  ⟨by unfold Tbl.rising; decide +kernel, canonical_of (by decide +kernel)⟩

/-- A batch of four elements at element `next` whose operand for each of them stands at `ptr`, with swaps of 8 bytes. -/
def batchAt (next ptr : Nat) : State :=
  let opnd := tileOf (spKey 0 0 0x3000)
  let res := tileOf (spKey 0 0 0x8000)
  { up with launches := [copier], batches := [⟨40, 0, 1, 9, opnd, res, .ofNat 64 (8 + 64 + 3 * 2 ^ 8 + 63 * 2 ^ 40), [res * 32, res * 32 + 5], [], next⟩], engineTiles := [opnd, res], emptyLines := [res * 32, res * 32 + 5]
            mem := bytesAt (dramKey 0 0x1000) 16 0xC0A000003F800000FF ++ bytesAt (spKey 0 0 0x3000) 64 (wordsNat [ptr, 7, ptr, 7, ptr, 7, ptr, 7]) }
def batchOf (next : Nat) : BatchCmd := ⟨40, 0, 1, 9, tileOf (spKey 0 0 0x3000), tileOf (spKey 0 0 0x8000), .ofNat 64 (8 + 64 + 3 * 2 ^ 8 + 63 * 2 ^ 40), [tileOf (spKey 0 0 0x8000) * 32, tileOf (spKey 0 0 0x8000) * 32 + 5], [], next⟩

/-- CopyCompletion: the last element of a batch, one that fails a check, and a batch that is over. -/
theorem witness_batches : let s := batchAt 3 source; let f := batchAt 3 0x3000000030000000; let b := batchOf 3
    s.batches.find? (·.id == 40) = some b ∧ f.batches.find? (·.id == 40) = some b ∧ (batchAt 4 source).batches.find? (·.id == 40) = some (batchOf 4) ∧ s.launch? 9 = some copier ∧ copier.done = false
    ∧ tileReady s b.opnd = true ∧ tileReady s b.res = true ∧ batchWaits s b (b.opnd * 32 + b.next / 8) = false ∧ batchWaits { s with emptyLines := [b.opnd * 32] } b (b.opnd * 32 + b.next / 8) = true ∧ b.waiting = [] ∧ badLine? s (dramKey 0 0x1000) 8 = none ∧ bitsFrom b.ctl 6 1 = 1 ∧ b.next = bitsFrom b.ctl 8 8 ∧ bitsFrom b.ctl 8 8 < (batchOf 4).next
    ∧ memRead s.mem (b.opnd * 4096 + 16 * b.next) 8 = source ∧ memRead f.mem (b.opnd * 4096 + 16 * b.next) 8 = 0x3000000030000000
    ∧ ([source, 0x1000000000003100].all fun p => match checkAddr s (copier.who 0) (BitVec.ofNat 64 p) (BitVec.ofNat 64 p) 8 false with
      | .ok (_, .mem key) => decide (key + 8 ≤ b.res * 4096 + 8 * b.next ∨ b.res * 4096 + 8 * b.next + 8 ≤ key) && (!isSp key || (tileReady s (tileOf key) && !batchWaits s b (lineOf key)))
      | _ => false) = true
    ∧ (checkAddr f (copier.who 0) 0x3000000030000000 0x3000000030000000 8 false).isOk = false := by decide +kernel

/-- CopyCompletion: a batch with an element on its way to the own device, and one to another; pointers to which R29's checks apply for atomics and not. -/
theorem witness_batch_waits : let s := batchAt 3 source; let w (d : Nat) : BatchCmd := { batchOf 3 with waiting := [(2, d, 8)] }
    (∃ x ∈ (w s.deviceId).waiting, x.2.1 = s.deviceId) ∧ (∀ x ∈ (w 9).waiting, x.2.1 ≠ s.deviceId) ∧ atomicSpace 0x8000300000000000 = false ∧ atomicSpace 0x3000000000001000 = true := by
  unfold atomicSpace
  decide +kernel

theorem witness_batches_canonical : (batchAt 3 source).canonical := canonical_of (by decide +kernel)

/-- A remote read whose lines `w` of four are still to come. -/
def rreadOf (w : List (Nat × Place)) : RreadCmd := ⟨40, 0, 1, 9, spKey 0 0 0x8080, 3, 47, w⟩
def rreadAt (w : List (Nat × Place)) : State :=
  let dst := spKey 0 0 0x8080
  let s := { up with launches := [copier], rreads := [rreadOf w], engineTiles := [tileOf dst], emptyLines := [dst / 128, dst / 128 + 1, dst / 128 + 2]
                     mem := bytesAt (dramKey 0 0x1000) 384 0x1122334455667788 }
  s.setCore 0 { s.core 0 with phasers := [(47, ⟨7, 1, 0, true, 0, 0, []⟩)] }

/-- CopyCompletion: a line of a remote read of a vault, of scratchpad and of a page, and the end of one. -/
theorem witness_remote_reads : let w : List (Nat × Place) := [(2, .mem (dramKey 0 0x1100)), (0, .va 0x30000 (dramKey 0 0x1000)), (1, .mem (spKey 0 0 0x8200))]; let s := rreadAt w; let k := spKey 0 0 0x8200
    s.rreads.find? (·.id == 40) = some (rreadOf w) ∧ (rreadAt []).rreads.find? (·.id == 40) = some (rreadOf []) ∧ s.launch? 9 = some copier ∧ tileReady s (tileOf (rreadOf w).dst) = true
    ∧ tileReady { s with engineTiles := [] } (tileOf (rreadOf w).dst) = false ∧ isSp (dramKey 0 0x1100) = false ∧ isSp k = true ∧ (linesOf k 128).all (fun x => tileReady s (x / 32) && !s.emptyLines.contains x) = true
    ∧ badLine? s (dramKey 0 0x1100) 128 = none ∧ (rreadOf w).ph < 48 := by decide +kernel

theorem witness_remote_reads_canonical : (rreadAt [(2, .mem (dramKey 0 0x1100))]).canonical ∧ Tbl.rising ((rreadAt []).core 0).phasers := ⟨canonical_of (by decide +kernel), by unfold Tbl.rising; decide +kernel⟩

/-- HostAndPeers: the last two bytes of a vault, and two bytes of which the second is not populated. -/
theorem witness_host : up.mem = [] ∧ (List.range 2).all (fun i => populated (dramKey 0 0x2FFFFFFE + i)) = true ∧ populated (2 ^ 39 - 1) = true ∧ populated (2 ^ 39) = false
    ∧ badLine? up (dramKey 0 0x2FFFFFFE) 2 = none ∧ badLine? { up with badLines := [dramKey 0 0x2FFFFFFE / 128] } (dramKey 0 0x2FFFFFFE) 2 = some (dramKey 0 0x2FFFFFFE / 128)
    ∧ (2 ^ 34 - 8 < 2 ^ 34 ∧ (2 ^ 34 - 8) % 8 = 0) ∧ 0x104 % 8 ≠ 0 := by decide +kernel

/-- A device whose PEER window maps ASID 0xFFFF, its first 64 KiB to a page that may be written, the next to one that may not, and whose route to device 3 is port 3, up or not. -/
def peerAt (portUp : Bool) : State :=
  let s := (up.setMmio 0 0x100 0x1FFFF).setMmio 0 0x600000 0x8003000000000000
  let s := s.setMmio 0 (0x1000 + 48) (if portUp then 1 else 0)
  { s with tlb := [⟨192, 0, 0xFFFF, 0x10000, 0, 2 ^ 30, true⟩, ⟨192, 1, 0xFFFF, 0x10000, 1, 2 ^ 31, false⟩] }

/-- A PEER request of device 5 for `device` after `hops` hops. -/
def askOf (device off : Nat) (op : MemOp) (hops : Nat) : PeerReq := ⟨5, 7, device, off, op, 8, 0, 64, 0x99887766, hops, 3⟩

/-- HostAndPeers: requests that are served at the end of a page, that fail translation, that go on with 62 hops, and that have no route. -/
theorem witness_peers : let s := peerAt true
    s.deviceId = 0 ∧ peerTranslate s 3 0x1FFF8 true = none ∧ peerTranslate s 3 0xFFF8 true = some (2 ^ 30 + 0xFFF8, s) ∧ peerTranslate s 3 0x1FFF8 false = some (2 ^ 31 + 0xFFF8, s)
    ∧ badLine? s (2 ^ 31 + 0xFFF8) 8 = none ∧ badLine? { s with badLines := [2 ^ 24 + 0x1FF] } (2 ^ 31 + 0xFFF8) 8 ≠ none
    ∧ opWrites (askOf 0 0xFFF8 .store 0).op = true ∧ opWrites (askOf 0 0x1FFF8 .load 0).op = false ∧ (askOf 0 0 .load 0).bits = 8 * (askOf 0 0 .load 0).bytes
    ∧ s.route 3 = some 3 ∧ s.portUp 3 = true ∧ (peerAt false).route 3 = some 3 ∧ (peerAt false).portUp 3 = false ∧ (askOf 3 0 .load 62).hops < 63 ∧ s.route 9 = none := by decide +kernel

theorem witness_peers_canonical : (peerAt true).canonical := canonical_of (by decide +kernel)

/-- HostAndPeers: pending accesses of a running unit to another device and to the host. -/
theorem witness_targets : let a (p : Place) : Access := ⟨.load, none, 0, false, 0, 0, 0, [⟨p, 8, 0, 64, 0⟩], 0, some 3, none, none, true, none, 0⟩
    let s (p : Place) : State := ({ up with launches := [copier] }).setCtx 5 { up.ctx 5 with status := .running, unit := { (up.ctx 5).unit with launch := 9 }, pend := [⟨4, 0, .access (a p)⟩] }
    ((s (.peer 5 8)).ctx 5).pend.find? (·.id == 4) = some ⟨4, 0, .access (a (.peer 5 8))⟩ ∧ ((s (.host 8)).ctx 5).pend.find? (·.id == 4) = some ⟨4, 0, .access (a (.host 8))⟩
    ∧ (s (.host 8)).launch? ((s (.host 8)).ctx 5).unit.launch = some copier ∧ copier.done = false ∧ ((s (.host 8)).ctx 5).status ≠ .free := by decide +kernel

/-- RegisterWrites: a device before bring-up and after it, the ends of the tables, and words that set each of the fields that decide. -/
theorem witness_register_writes : State.reset.devReady = false ∧ up.devReady = true ∧ isTable 0x11FFF8 = true ∧ isTable 0x200000 = true ∧ bitsFrom (0x1FFFFFFFFFFFFFFF : W64) 61 3 = 0
    ∧ bitsFrom (0x6000000000000000 : W64) 61 3 = 3 ∧ (0x8000000000000000 : W64).getLsbD 63 = true ∧ bitsFrom (0xFFFFFFFF00000003 : W64) 0 2 = 3 ∧ bitsFrom (0 : W64) 0 2 = 0 ∧ (4 : W64).getLsbD 2 = true := by decide +kernel

/-- A device with a fault record that has four regions, and the ring at `head` and `tail`. -/
def ringAt (head tail : Nat) (base : W64) : State :=
  let s := ((up.setMmio 0 0x608 (.ofNat 64 (head + tail * 2 ^ 32))).setMmio 0 0x600 base).setMmio 0 0x610 0
  { s with faultQueue := [⟨5, 1, 0, 7, 3, 2, some 9, 0x123, 4, 6, false, 0, 3, 1, 0x777, 9, [1, 2, 3, 4]⟩], launches := [copier] }

/-- FaultsAndDecisions: an error at the last byte of LPDDR with a launch and without, and a ring that is full and one with its last place free. -/
theorem witness_faults : let s := ringAt 63 1 0x4000
    populated (2 ^ 39 - 1) = true ∧ s.launch? copier.id = some copier ∧ copier.done = false ∧ s.faultQueue.length = 1
    ∧ (bitsFrom (s.mmioWord 0 0x608) 0 6 + 1) % 64 ≠ bitsFrom (s.mmioWord 0 0x608) 32 6 ∧ populated ((s.mmioWord 0 0x600).toNat + 64 * 63) = true ∧ (s.mmioWord 0 0x610).getLsbD 6 = false
    ∧ (bitsFrom ((ringAt 63 0 0x4000).mmioWord 0 0x608) 0 6 + 1) % 64 = bitsFrom ((ringAt 63 0 0x4000).mmioWord 0 0x608) 32 6 := by decide +kernel

/-- FaultsAndDecisions: a ring whose records raise an event in mailbox 5. -/
theorem witness_fault_event : let s := ((ringAt 63 1 0x4000).setMmio 0 0x610 0x45).setMmio 0 (0xC000 + 32 * 5) (.ofNat 64 (dramKey 0 0x8000)); let key := (s.mmioWord 0 0x600).toNat + 64 * 63
    let event := bitsFrom (s.mmioWord 0 (0xC000 + 32 * bitsFrom (s.mmioWord 0 0x610) 0 6)) 3 45 * 8
    (bitsFrom (s.mmioWord 0 0x608) 0 6 = 63 ∧ bitsFrom (s.mmioWord 0 0x608) 32 6 = 1) ∧ populated key = true ∧ (s.mmioWord 0 0x610).getLsbD 6 = true ∧ event = dramKey 0 0x8000 ∧ populated event = true
    ∧ (event + 8 ≤ key ∨ key + 64 ≤ event) ∧ (s.faultQueue.headD ⟨0, 0, 0, 0, 0, 0, none, 0, 0, 0, false, 0, 0, 0, 0, 0, []⟩).seq = 5 ∧ canon s = true := by decide +kernel

theorem witness_faults_canonical : (ringAt 63 1 0x4000).canonical := canonical_of (by decide +kernel)

/-- A device with records 4 (of context 0 in its handler, or of copy 40) awaiting a decision, in the ring or still to be written. -/
def awaiting (unit written : Bool) (cls : Nat) : State :=
  let fr : FaultRec := ⟨4, 1, 0, 7, 3, 2, some 9, 0x123, 4, 6, false, 0, 3, 1, 0x777, 9, []⟩
  let s := { up with launches := [copier], copies := [copyOf source 0 63 0 (.suspended 4)], faultQueue := if written then [] else [fr]
                     decisions := if unit then [⟨4, none, some 0, none⟩] else [⟨4, some 40, none, none⟩] }
  s.setCtx 0 { s.ctx 0 with status := .handler, record := some 4, trapPc := 0x20, pc := 0x60, faultInfo := .ofNat 64 (cls * 256 + 3), unit := { (s.ctx 0).unit with launch := 9 } }

/-- SaveAndRestore: decisions for a unit and for a copy, before and after their record is written, and for a record that is not there. -/
theorem witness_decisions : let s := awaiting true true 2; let c := awaiting false true 2
    s.devReady = true ∧ s.decisions.find? (·.seq == 5) = none ∧ (awaiting true false 2).faultQueue.any (·.seq == 4) = true
    ∧ s.decisions.find? (·.seq == 4) = some ⟨4, none, some 0, none⟩ ∧ s.faultQueue.any (·.seq == 4) = false ∧ (s.ctx 0).status = .handler ∧ (s.ctx 0).record = some 4 ∧ s.savedCtxs = [] ∧ (s.ctx 0).handling = false ∧ (s.core (0 / 4)).handlerStore = [] ∧ (let h := s.setCore 0 { s.core 0 with handlerStore := [0x20000000] }; (h.core (0 / 4)).handlerStore ≠ [] ∧ (h.ctx 0).record = some 4)
    ∧ bitsFrom (s.ctx 0).faultInfo 8 8 ≠ 1 ∧ bitsFrom ((awaiting true true 1).ctx 0).faultInfo 8 8 = 1 ∧ s.launch? (s.ctx 0).unit.launch = some copier ∧ copier.done = false
    ∧ c.decisions.find? (·.seq == 4) = some ⟨4, some 40, none, none⟩ ∧ c.copy? 40 = some (copyOf source 0 63 0 (.suspended 4)) ∧ c.launch? (copyOf source 0 63 0 (.suspended 4)).launch = some copier := by decide +kernel

/-- Context 5 in this state, with its PRECTL in state `st`, and something pending or not; the directory of its core has `n` entries, view 3 is writable. -/
def savingAt (st : Nat) (status : CtxStatus) (busy : Bool) (n : Nat) : State :=
  let s := up.setMmio 0 (prectlOff 5) (.ofNat 64 (st * 4 + dramKey 1 0x8000))
  let c := { Ctx.reset with status := status, g := regs [(31, 0x1234567890)], w := vset Ctx.reset.w 3 (3#512 <<< 19), monitor := some ⟨5, 3, none, none, 0x20⟩, task := some (7, 255) }
  let s := s.setCtx 5 { c with pend := if busy then [⟨3, 0, .drain 2⟩] else [] }
  { s.setCore 1 { s.core 1 with dir := (List.range n).map fun j => (j, ⟨0, 3, none⟩) } with
    savedCtxs := if status = .free then [⟨5, Ctx.reset.unit, [], Vector.replicate 16 0, [], 0, none, 0⟩] else [] }

/-- SaveAndRestore: a running context to be saved, one whose accesses are over and one that still has some, one that need not be saved, and restores with 64 and 65 entries in the directory. -/
theorem witness_saves : let s := savingAt 1 .running false 0; let r (n : Nat) := savingAt 2 .free false n
    let x : SavedCtx := ⟨5, Ctx.reset.unit, [], Vector.replicate 16 0, [], 0, none, 0⟩; let c (n : Nat) := fromImage (memRead (r n).mem (bitsFrom (prectl (r n) 5) 8 40 * 256) 0x3000) x
    preState s 5 = 1 ∧ s.bundle = none ∧ (s.ctx 5).status = .running ∧ (s.ctx 5).wait = none ∧ (((savingAt 1 .handler false 0).ctx 5).wait = none ∧ ((savingAt 1 .handler false 0).ctx 5).status = .handler) ∧ preState (savingAt 0 .running false 0) 5 ≠ 1
    ∧ (preState (savingAt 1 .saving false 0) 5 = 1 ∧ ((savingAt 1 .saving false 0).ctx 5).status = .saving ∧ saveSettled (savingAt 1 .saving false 0) 5 = true) ∧ saveSettled (savingAt 1 .saving true 0) 5 = false
    ∧ preState (r 64) 5 = 2 ∧ preState (savingAt 3 .free false 0) 5 = 3 ∧ ((r 64).ctx 5).status = .free ∧ (r 64).savedCtxs.find? (·.key == 5) = some x ∧ x.record = none ∧ x.bumps = []
    ∧ ((r 64).core 1).dir.length + (writableViews (c 64)).length ≤ 64 ∧ 64 < ((r 65).core 1).dir.length + (writableViews (c 65)).length := by decide +kernel

theorem witness_saves_canonical : (savingAt 1 .saving false 0).canonical := canonical_of (by decide +kernel)

/-- SaveAndRestore: a context of which nothing is pending, and one whose bundle firmware performs. -/
theorem witness_images : let c := (savingAt 1 .saving false 0).ctx 5
    (∀ j < 16, (vget c.q j ⟨false, 0, none⟩).pend = none ∧ (vget c.h j ⟨0, none⟩).pend = none) ∧ (∀ j < 32, (vget c.g j ⟨0, none⟩).pend = none ∧ (vget c.bank j ⟨0, none⟩).pend = none) ∧ c.stageCtr < 2 ^ 64
    ∧ ((savingAt 0 .emulating false 0).ctx 5).status = .emulating ∧ c.status ≠ .emulating := by decide +kernel

/-- Engine 2 with a call in this form at its head, a call of the same launch and one of another behind it, its MEPRE in state `st`, and an interrupt point or not. -/
def engineOf (started stop : Bool) (ip st ph phase : Nat) : State :=
  let c : MatCall := ⟨5, 1, 0, 9, Vector.replicate 8 0, 3, 4, 0x66, none, 0, ph, phase, started, 1, 4, 1, 3, 2, [], [], stop⟩
  let s := up.setMmio 0 (0x1800000 + 0x800 * 2) (.ofNat 64 (2 ^ 25 + 2 <<< 12))
  let s := s.setMmio 0 (0x1000000 + 0x8000 * 2 + 8) (((encodeMicro (.muEnd 0 (microOf 0 0 0 0 0 0 0))).getD 0) ||| BitVec.ofNat 64 ip <<< 63)
  let s := s.setEngine 2 { s.engine 2 with queue := [c, { c with started := false, id := 6 }, { c with started := false, launch := 4, id := 7 }] }
  let s := s.setMmio 0 (mepreOff 2) (.ofNat 64 (st * 4 + dramKey 1 0x8000))
  { s.setCore 1 { s.core 1 with phasers := [(5, ⟨8, 1, 0, true, 0, 0, []⟩)] } with savedCalls := [⟨2, bareCall, [bareCall]⟩] }

/-- SaveAndRestore: a call without a phase, one whose phase is over and one that waits; a running call at an interrupt point, elsewhere, and one that stops; a restore while no call runs
and while one does. -/
theorem witness_engine_saves : let q := engineOf false false 1 1 63 0; let s := engineOf true false 1 1 63 0; let c := ((s.engine 2).queue).headD bareCall
    ((q.engine 2).queue.map (·.started)) = [false, false, false] ∧ ((q.engine 2).queue.map (·.ph)) = [63, 63, 63] ∧ phaseDone (q.phaser 1 5).phase 7 = true ∧ phaseDone (q.phaser 1 5).phase 8 = false
    ∧ ((engineOf false false 1 1 5 7).engine 2).queue.map (fun c => (c.core, c.ph, c.phase)) = [(1, 5, 7), (1, 5, 7), (1, 5, 7)]
    ∧ c.tiles.any (giveWaits q) = false ∧ (let g := q.setCtx 4 { q.ctx 4 with pend := [⟨3, 0, .release 2 (.give 3)⟩] }; ({ c with tiles := [3] } : MatCall).tiles.any (giveWaits g) = true)
    ∧ s.running 2 = some c ∧ mepreState s 2 = 1 ∧ atInterrupt s 2 c = true ∧ c.stop = false ∧ atInterrupt (engineOf true false 0 1 63 0) 2 c = false ∧ (((engineOf true true 1 1 63 0).running 2).map (·.stop)) = some true
    ∧ q.running 2 = none ∧ mepreState q 2 = 1 ∧ s.savedCalls.find? (·.engine == 2) = some ⟨2, bareCall, [bareCall]⟩ ∧ mepreState (engineOf false false 1 2 63 0) 2 = 2 ∧ (engineOf false false 1 2 63 0).running 2 = none
    ∧ mepreState (engineOf false false 1 3 63 0) 2 = 3 ∧ mepreState (engineOf true false 1 2 63 0) 2 = 2 ∧ ((engineOf true false 1 2 63 0).running 2).isSome = true := by decide +kernel

/-- SaveAndRestore: an engine whose queue holds calls of the launch whose calls are saved, behind them one of another launch, and nothing else. -/
theorem witness_saved_launch : let q := engineOf false false 1 1 63 0; let v : SavedCalls := ⟨2, { bareCall with launch := 9 }, []⟩; let s : State := { q with savedCalls := [v] }
    let only : State := s.setEngine 2 { s.engine 2 with queue := (s.engine 2).queue.take 2 }
    s.running 2 = none ∧ (s.savedCalls.find? (·.engine == 2)).map (·.call.launch) = some 9 ∧ ((s.engine 2).queue.map (·.launch)) = [9, 9, 4] ∧ ((only.engine 2).queue.map (·.launch)) = [9, 9] ∧ only.running 2 = none := by
  decide +kernel

theorem witness_engine_saves_canonical : (engineOf true false 1 1 63 0).canonical := canonical_of (by decide +kernel)

/-- Group 3 in state `st` with four members, this device of rank `me`, a mailbox or none, and these runs. -/
def groupAt (st me mailbox : Nat) (runs : List CollRun) : State :=
  let s := words up 0x400060 [.ofNat 64 (me + 3 * 2 ^ 16 + 5 * 2 ^ 32 + st * 2 ^ 62), .ofNat 64 (dramKey 0 0x100), .ofNat 64 mailbox]
  { s.setMmio 0 (0xC000 + 32 * 63) (.ofNat 64 (dramKey 0 0x4000)) with runs := runs, clk := 6, staggers := [⟨6, 0, 1, 2, 6⟩, ⟨0, 0, 5, 0, 7⟩] }

/-- CollectiveEventsAndLogTree: runs that are open and ended, alone with one peer; groups that have runs or none, and are cancelled or not, with a mailbox and without; a signal that is due and one that is not. -/
theorem witness_collective_events : let s := groupAt 2 1 0x7F [{ runOf with peers := [2] }]; let e := groupAt 2 1 0x7F [{ runOf with status := some 2 }]; let n := groupAt 2 1 0x3F []
    s.devReady = true ∧ (0x8000000000000000 : W64).getLsbD 63 = true ∧ (0x7FFFFFFFFFFFFFFF : W64).getLsbD 63 = false ∧ e.runs.all (fun r => r.status != none) = true ∧ s.runs = [{ runOf with peers := [2] }]
    ∧ s.runs.any (fun r => r.group == 3 && r.status == none) = true ∧ ((groupAt 3 1 0x7F []).group 3 0).getLsbD 62 = true ∧ (e.group 3 0).getLsbD 62 = false ∧ e.runs.all (fun r => r.group != 3 || r.status != none) = true
    ∧ (e.group 3 2).getLsbD 6 = true ∧ populated (bitsFrom (e.mmioWord 0 (0xC000 + 32 * bitsFrom (e.group 3 2) 0 6)) 3 45 * 8) = true ∧ (n.group 3 2).getLsbD 6 = false
    ∧ s.staggers[0]? = some ⟨6, 0, 1, 2, 6⟩ ∧ s.staggers[1]? = some ⟨0, 0, 5, 0, 7⟩ ∧ s.clk = 6 := by decide +kernel

theorem witness_collective_events_canonical : (groupAt 2 1 0x7F []).canonical := canonical_of (by decide +kernel)

/-- A log of `n` members on group 3, of rank `rank`, enabled or not, with this state, cursor 8 and limit; group 3 is a member's or not. -/
def logOf (n rank en st lim gst : Nat) : State :=
  let s := words up 0x500000 [.ofNat 64 (en * 2 ^ 63 + (n - 1) * 2 ^ 16 + rank), .ofNat 64 (5 + 5 * 2 ^ 16 + 3 * 2 ^ 38 + 5 * 2 ^ 44), 0x3F000000, 0x4000000000200000]
  let s := words s 0x500028 [.ofNat 64 (8 + st * 2 ^ 61), .ofNat 64 lim]
  let s := s.setMmio 0 (0xC000 + 32 * 5) (.ofNat 64 (dramKey 0 0x4000))
  let s := words s 0x400060 [.ofNat 64 (rank + (n - 1) * 2 ^ 16 + gst * 2 ^ 62), .ofNat 64 (dramKey 0 0x100)]
  { s with mem := bytesAt (dramKey 0 0x100) 8 0x0003000200010000, log := { s.log with released := 2, held := [postedEntry 8 n 0 7 3 5], ticks := 5 } }

/-- CollectiveEventsAndLogTree: logs that are enabled and not, that may start, of the root, of another member and of a device outside the group; entries that are late and at the round in work;
a ring slot that is free and one with an older entry; a time-out that has come and one that has not. -/
theorem witness_log_tree : let s := logOf 2 0 1 2 16 2; let m := logOf 4 1 1 0 16 2; let o := logOf 2 0 0 0 16 2; let x := logOf 2 0 1 0 16 0; let e := postedEntry 9 2 1 7 3 5
    let p := s.setMmio 0 0x500040 (.ofNat 64 (2 ^ 63 + 9)); let t : State := { s with mem := s.mem ++ bytesAt (ringKey s 9) 32 (postedEntry (9 + 65536) 2 1 7 3 5).toNat }
    s.devReady = true ∧ logEn s = true ∧ logEn o = false ∧ logMayStart (o.setMmio 0 0x500000 0x10000) = true ∧ logGroup s = 3
    ∧ (s.group 3 0).getLsbD 63 = true ∧ (x.group 3 0).getLsbD 63 = false ∧ (groupRanks s 3).2 = 0 ∧ (groupRanks m 3).2 = 1
    ∧ entrySeq e = 9 ∧ entrySeq e / logN s = 4 ∧ entrySeq (postedEntry 3 2 1 7 3 5) / logN s < s.log.released ∧ entrySeq (postedEntry 4 2 0 7 3 5) / logN s = s.log.released
    ∧ s.log.arrived = [] ∧ (s.mmioWord 0 0x500040).getLsbD 63 = false ∧ slotFree s 9 = true ∧ slotFree t 9 = false ∧ ((p.mmioWord 0 0x500040).getLsbD 63 = true ∧ bitsFrom (p.mmioWord 0 0x500040) 0 48 = entrySeq e)
    ∧ m.log.up = [] ∧ m.log.down = [] ∧ bitsFrom (logCtl m) 0 16 ≠ 0 ∧ bitsFrom (logCtl s) 0 16 = 0
    ∧ heldOf { s with log := { s.log with released := 4 } } 4 ≠ [] ∧ bitsFrom (logCfg s) 16 16 = s.log.ticks ∧ heldOf s s.log.released = [] := by decide +kernel

/-- CollectiveEventsAndLogTree: at the root of two, an entry that fills the round, one that does not, one whose number is held, and a round that has entries of the next. -/
theorem witness_round_release : let s := logOf 2 0 1 2 16 2; let held (l : List (BitVec 256)) : State := { s with log := { s.log with held := l } }; let e := postedEntry 5 2 1 7 3 5; let f := postedEntry 4 2 0 7 3 5
    let full (l : List (BitVec 256)) : Bool := (List.range 2).all fun k => l.any (entrySeq · == 2 * 2 + k)
    logN s = 2 ∧ s.log.released = 2 ∧ s.log.released ≤ entrySeq e / logN s ∧ (held [f]).log.held.all (entrySeq · != entrySeq e) = true ∧ full ([f] ++ [e]) = true ∧ full ([] ++ [e]) = false ∧ bitsFrom (logCtl s) 0 16 = 0
    ∧ ([f] ++ [e]).all (fun x => entrySeq x / 2 != s.log.released + 1) = true ∧ (held [e]).log.held.any (entrySeq · == entrySeq e) = true ∧ logEn (logOf 2 0 1 2 16 0) = true
    ∧ ((logOf 2 0 1 2 16 0).group 3 0).getLsbD 63 = false ∧ (logOf 2 0 1 2 16 0).log.arrived = [] := by decide +kernel

theorem witness_log_tree_canonical : (logOf 2 0 1 2 16 2).canonical := canonical_of (by decide +kernel)

/-- A log of one member before the round of slot 8, whose entry is in the ring or not, with `k` slots in its work list, its master tensor 5 at `base` and its output tensor 6 of FP16 on the engine side, with a
block scale at `scale` or none. -/
def replayAt (st lim : Nat) (entry : Bool) (k : Nat) (base : Nat) (scale : Nat := 0) : State :=
  let s := logOf 1 0 1 st lim 2
  let s := words s (0x200000 + 128 * 5) ([5 + 2 ^ 12 + 6 * 2 ^ 16, base, 1, 0, 0, 4, 0, 0, 0, 0, 0, 0x10001].map (.ofNat 64))
  let s := words s (0x200000 + 128 * 6) ([6 + 2 ^ 12 + 4 * 2 ^ 16, 0x1000000000005000, 1, 0, 0, 2, 0, 0, 0, 0, 0, 0x10001, if scale = 0 then 0 else 2 ^ 11, scale].map (.ofNat 64))
  let s := s.setMmio 0 (0x501000 + 8 * 2) (if k = 0 then 0 else .ofNat 64 (5 + 6 * 2 ^ 12 + 3 * 2 ^ 32 + 2 ^ 60 + 2 ^ 63))
  { s with mem := bytesAt (dramKey 0 0x6000) 4 0x40400000 ++ (if entry then bytesAt (ringKey s 8) 32 (releaseEntry (postedEntry 8 1 0 7 3 0x3F800000)).toNat else []) ++ bytesAt (spKey 0 0 0x5000) 4 0x3C003C00
           engineTiles := [tileOf (spKey 0 0 0x5000)], emptyLines := [spKey 0 0 0x5000 / 128], log := { s.log with gapTicks := 5, waitAt := 8, held := [] } }

/-- The state in which a round begins. -/
def roundOf (s : State) : State := setLogState { s with log := { s.log with begun := logN s } } 1

/-- The place of the one element that a round works on. -/
def oneTarget (s : State) : Option (Nat × Nat × Option ScaleAt) := match roundWork (roundOf s) with
  | [(_, _, [(_, .at mk ok 0 scale)])] => some (mk, ok, scale)
  | _ => none

/-- Replay: a round beyond the limit, a round at the limit with its slot not ready, with a bad element, with nothing to do and with one element; a wait of GAPT ticks. -/
theorem witness_replay : let w := replayAt 0 9 false 1 0x4000000000006000; let r := replayAt 2 9 true 1 0x4000000000006000; let b := replayAt 0 9 true 1 0x5000000000006000; let z := replayAt 0 9 true 0 0x4000000000006000
    logState w = 0 ∧ logState r = 2 ∧ logEn w = true ∧ logLimit (replayAt 0 8 false 1 0x4000000000006000) < 8 + 1 ∧ logCursor w + logN w = logLimit w ∧ [8].find? (fun q => slotBad w q || !slotReady w q) = some 8 ∧ slotBad w 8 = false ∧ (let x : State := { r with badLines := [ringKey r 8 / 128] }; [8].find? (fun q => slotBad x q || !slotReady x q) = some 8 ∧ slotBad x 8 = true) ∧ slotBad r 8 = false
    ∧ [8].all (slotReady r) = true ∧ ((((roundWork (roundOf b)).flatMap fun x => x.2.2.map (·.2)).findSome? fun t => match t with
        | .bad c => some c
        | _ => none).isSome) = true
    ∧ [8].all (slotReady b) = true ∧ roundWork (roundOf z) = [] ∧ [8].all (slotReady z) = true ∧ r.log.arrived = []
    ∧ oneTarget r = some (dramKey 0 0x6000, spKey 0 0 0x5000, none) ∧ (linesOf (spKey 0 0 0x5000) 2).all (fun l => tileReady (roundOf r) (l / 32)) = true ∧ oneTarget (replayAt 2 9 true 1 0x4000000000006000 0x1000000000005800) = some (dramKey 0 0x6000, spKey 0 0 0x5000, some (.mem (spKey 0 0 0x5800)))
    ∧ (let v := roundOf { r with engineTiles := [] }; logState v = 1 ∧ (tilesOf (roundLines v)).all (tileReady v) = false ∧ oneTarget { r with engineTiles := [] } = oneTarget r)
    ∧ isDram (dramKey 0 0x6000) = true ∧ isSp (spKey 0 0 0x5000) = true
    ∧ elemBits (dFmt (r.descriptor 6)) = 16 ∧ bitsFrom (logCfg r) 0 16 = r.log.gapTicks ∧ slotReady (replayAt 2 9 false 1 0x4000000000006000) 8 = false ∧ populated (bitsFrom (r.mmioWord 0 (0xC000 + 32 * bitsFrom (logCfg r) 44 6)) 3 45 * 8) = true := by decide +kernel

/-- Replay: block scales in a scratchpad tile of the thread side and of the engine side, in host memory, and on a device whose answer has not come; a round in STATE 1 with a slot that cannot be read. -/
theorem witness_replay_scales : let at' (p : Nat) := roundOf (replayAt 0 9 true 1 0x4000000000006000 p); let s := at' 0x1000000000005800; let far := at' 0x1000000000009800
    let peer := at' 0x8000300000000040; let x : State := { s with badLines := [ringKey s 8 / 128] }
    scaleReady s (.mem (spKey 0 0 0x5800)) = true ∧ (roundScales (roundWork far)).any (fun x => !scaleReady far x) = true ∧ logState far = 1 ∧ far.log.begun = 1 ∧ slotBad far 8 = false
    ∧ ((roundWork far).flatMap fun x => x.2.2.map (·.2)).all (fun t => match t with
        | .bad _ => false
        | _ => true) = true
    ∧ roundScales (roundWork (at' 0xC000000000000040)) = [.host 0x40] ∧ scaleReady s (.host 0x40) = true
    ∧ roundScales (roundWork (peer.setMmio 0 0x600000 0x8003000000000000)) = [.peer 3 0x40] ∧ scaleReady (peer.setMmio 0 0x600000 0x8003000000000000) (.peer 3 0x40) = false
    ∧ logState x = 1 ∧ slotBad x (logCursor x + 0) = true := by decide +kernel

theorem witness_replay_canonical : (replayAt 2 9 true 1 0x4000000000006000).canonical := canonical_of (by decide +kernel)

/-- Job 2 on group 3 of four devices, this one of rank `rank`, with exchange between devices or not; `n` tasks on every unit of die 0 and `m` more on core 0. -/
def jobAt (exchange rank n m : Nat) (w : WlJob) (counts : Nat × Nat) : State :=
  let s := (up.setMmio 0 0x400 (.ofNat 64 (exchange * 2 ^ 63 + 3))).setMmio 0 (0x300000 + 16 * 1296) (.ofNat 64 (2 * 2 ^ 61 + 2))
  let s := words s 0x400060 [.ofNat 64 (rank + 3 * 2 ^ 16 + 2 ^ 63), .ofNat 64 (dramKey 0 0x100)]
  let s := if n = 0 then s else (List.range 64).foldl (fun s i => s.setCore i { s.core i with tasks := List.replicate n ⟨2, 9, 7⟩ }) s
  { s.setCore 0 { s.core 0 with tasks := List.replicate (n + m) ⟨2, 9, 7⟩, wlCounts := [(2, counts)], wlDone := [2] } with mem := bytesAt (dramKey 0 0x100) 8 0x0003000200010000, wlJobs := [(2, w)] }

/-- The waves and neighbours of a job: its last wave, awaited acknowledgements and the inbound counts of its neighbours. -/
def jobOf (wave : Option (Nat × Nat)) (acks : Nat) (ibs : Tbl Nat) : WlJob := ⟨66, 77, 256, wave, [(1, (40, 5, 4)), (2, (200, 1, 1))], ibs, none, [], acks, []⟩

/-- WorklistAndPipelines: shipments to the least loaded core and to full ones, acknowledgements awaited and not, and waves with equal sums, with the same sums before, and with others. -/
theorem witness_worklist_events : let s := jobAt 0 0 0 5 (jobOf (some (3, 3)) 3 []) (3, 3); let f := jobAt 0 0 512 0 (jobOf none 0 []) (0, 0)
    (List.range 64).all (fun n => taskCount s 1 ≤ taskCount s n) = true ∧ taskCount s 1 < taskCount s 0 ∧ taskCount s 1 < 512 ∧ spillBase s 1 = none ∧ (List.range 64).all (fun n => 512 ≤ taskCount f n) = true
    ∧ (f.wlJob 2).acks = 0 ∧ 0 < (s.wlJob 2).acks ∧ (wlJobsOf s).contains 2 = true ∧ wlEn s 2 = false ∧ jobCounts s 2 = (3, 3) ∧ (s.wlJob 2).lastWave = some (3, 3)
    ∧ ((jobAt 0 0 0 5 (jobOf (some (4, 3)) 3 []) (3, 3)).wlJob 2).lastWave = some (4, 3) := by decide +kernel

/-- WorklistAndPipelines: the root of the tree and another rank, and a device with 65 tasks more than its neighbour and one with 64. -/
theorem witness_worklist_tree : let s := jobAt 1 0 0 65 (jobOf none 0 [(1, 0)]) (3, 3); let t := jobAt 1 0 0 64 (jobOf none 0 [(1, 0)]) (3, 3); let r := jobAt 1 3 0 5 (jobOf none 0 []) (3, 3)
    let whole (w : WlJob) (rank : Nat) : Bool := ([2 * rank + 1, 2 * rank + 2].filter (· < 4)).all (w.fresh.contains ·)
    wlEn s 2 = true ∧ bitsFrom (wlJobWord s 2) 0 6 = 3 ∧ groupRanks s 3 = (4, 0) ∧ groupRanks r 3 = (4, 3) ∧ (r.wlJob 2).down = none ∧ (r.wlJob 2).fresh = [] ∧ whole { s.wlJob 2 with fresh := [1, 2] } 0 = true ∧ whole { s.wlJob 2 with fresh := [1] } 0 = false ∧ whole (r.wlJob 2) 3 = true ∧ whole (r.wlJob 2) 1 = false
   
    ∧ tget (s.wlJob 2).ibs 1 = some 0 ∧ 0 + 64 < inBound s 2 ∧ (List.range 256).all (fun m => spillBase s m == none) = true ∧ inBound t 2 ≤ 0 + 64 := by decide +kernel

/-- A pipeline of two stages: stage 0 with `units` left and the cores `a`, stage 1 with `w` words waiting and the cores `b`; a second launch has the cores `taken`. -/
def pipeOf (units w : Nat) (a b : List Nat) : Launch :=
  let stage (inq outq mn mx : Nat) : List Nat := [mn * 2 ^ 16 + mx * 2 ^ 24 + inq * 2 ^ 32 + outq * 2 ^ 36, 0, 0, 0]
  ⟨9, 0, 0, 0, -1, 0, BitVec.ofNat 2048 (wordsNat [0, 64, 0x100010001, 2 ^ 12 + 2 ^ 13, units, 0]), BitVec.ofNat 3072 (wordsNat (stage 0 0 1 3 ++ stage 0 1 1 3)), 0, none, 0, [0, 0], [0, 0],
    [List.replicate w (.occupied 3) ++ [.free]], [a, b], 0, [], [], 0, false⟩
def pipeAt (l : Launch) (taken : List Nat) : State := { up with clk := 1024, launches := [l, { launchOf 10 with cores := [taken] }] }

/-- What a stage wants, and whether it takes a core, as PipelinesRebalance says it. -/
def pipeWant (l : Launch) (n : Nat) : Nat :=
  if n = 0 then l.units - l.started.getD 0 0 else ((l.slots.getD (l.inq n) []).filter fun x => match x with
    | .occupied _ => true
    | _ => false).length
def pipeTakes (l : Launch) (n : Nat) : Bool := n < l.stages && (l.cores.getD n []).length < l.maxc n && (n + 1 == l.stages || (l.slots.getD (l.outq n) []).contains .free) && 0 < pipeWant l n

/-- WorklistAndPipelines: a stage that wants most with a core free, with none free and a donor two below it, and with no donor; a launch with nothing to share. -/
theorem witness_pipelines : let l := pipeOf 1 3 [0, 5] [1]; let n := pipeOf 2 3 [0, 5] [1]; let z := pipeOf 0 0 [0] [1]; let free (s : State) (c : Nat) : Bool := s.launches.all fun x => !x.cores.flatten.contains c
    l.done = false ∧ l.pipe = true ∧ l.balanced < (pipeAt l []).clk / 1024 ∧ ¬ ({ l with balanced := 1 } : Launch).balanced < (pipeAt l []).clk / 1024 ∧ l.stages = 2 ∧ (pipeAt l []).launch? 9 = some l ∧ (pipeTakes l 0 && pipeTakes l 1) = true ∧ pipeWant l 0 = 1 ∧ pipeWant l 1 = 3 ∧ pipeWant n 0 = 2 ∧ pipeTakes n 1 = true
    ∧ (free (pipeAt l []) 2 && !free (pipeAt l []) 0 && !free (pipeAt l []) 1) = true ∧ (List.range 64).all (fun c => !free (pipeAt l (List.range 64)) c) = true
    ∧ l.minc 0 < (l.cores.getD 0 []).length ∧ ¬ l.minc 1 < (l.cores.getD 1 []).length ∧ pipeTakes z 0 = false ∧ pipeTakes z 1 = false := by decide +kernel

/-- A flit of this number with its TAG under the key 7. -/
def flitAt (n : Nat) (map : BitVec 27) (msgs : List Msg) : Flit := tagFlit 7 ⟨5, 0, false, false, map, n, 0, 0, [], msgs⟩

/-- A device with port 31 in this state, a failed flit or none, and this count of signatures. -/
def portAt (word : Nat) (failed : Option Nat) (sigs : Nat) : State :=
  ({ up with signatures := sigs }.setMmio 0 0x11F0 (.ofNat 64 word)).setPort 31 ⟨9, 4, failed, [], [flitAt 7 0 [], flitAt 8 1 [.abort 1 1]], [], 7, none⟩

/-- Ports: a port that is UP, LOCKED and neither, before and after a first failure, with its counter at its top, at the last signature of the key, and with attestation lost. -/
theorem witness_ports : let s := portAt 1 none 0; let f := portAt 1 (some 4) 0; let l := portAt 0xFFFF0002 none 32767; let d := portAt 0 none 0
    s.portUp 31 = true ∧ d.portUp 31 = false ∧ (s.port 31).expect = 4 ∧ (s.port 31).failed = none ∧ (f.port 31).failed = some 4 ∧ s.devReady = true ∧ (devStatus s).getLsbD 2 = true
    ∧ (l.mmioWord 0 (0x1000 + 16 * 31)).getLsbD 1 = true ∧ (d.mmioWord 0 (0x1000 + 16 * 31)).getLsbD 1 = false ∧ 32768 ≤ l.signatures + 1 ∧ State.reset.devReady = false := by decide +kernel

/-- Ports: flits that are good, and ones with a wrong tag and with a segment role of 6. -/
theorem witness_flits : let s := portAt 1 none 0; let f := flitAt 4 (5 <<< 24) []
    flitGood s 31 f ∧ f.fseq = (s.port 31).expect ∧ ¬ flitGood s 31 { f with tag := f.tag + 1 } ∧ ¬ flitGood s 31 (flitAt 4 (6 <<< 24) []) := by
  refine ⟨⟨rfl, by decide +kernel⟩, by decide +kernel, fun h => ?_, fun h => absurd (h.2 8 (by decide)) (by decide +kernel)⟩
  have : (flitAt 4 (5 <<< 24) []).tag + 1 = (flitAt 4 (5 <<< 24) []).tag := h.1
  exact absurd (BitVec.add_right_eq_self.mp this) (by decide)

/-- Ports: the last flit of a session, and an egress that a new session has room for. -/
theorem witness_session : let s : State := (portAt 1 none 0).setPort 31 { (portAt 1 none 0).port 31 with expect := 2 ^ 64 - 1 }
    flitGood s 31 (flitAt (2 ^ 64 - 1) 0 []) ∧ (flitAt (2 ^ 64 - 1) 0 []).fseq = (s.port 31).expect ∧ (flitAt (2 ^ 64 - 1) 0 []).fseq + 1 = 2 ^ 64 ∧ ({ s.port 31 with sent := 0 } : Port).fits := by
  refine ⟨⟨rfl, by decide +kernel⟩, by decide +kernel, by decide +kernel, ?_⟩
  unfold Port.fits
  decide +kernel

theorem witness_ports_canonical : (portAt 1 none 0).canonical ∧ (jobAt 1 0 0 65 (jobOf none 0 [(1, 0)]) (3, 3)).canonical := ⟨canonical_of (by decide +kernel), canonical_of (by decide +kernel)⟩

/-- EncodingRoundTrip: the words of a slot, a micro-operation and a step, and what they decode to. -/
theorem witness_round_trip : encode (.aluAdd ⟨1, 21, 21, 0, 23, 0⟩) = some 0b1000000_010101_010101_0_010111_0_00001
    ∧ encodeMicro (.muMac 0 ⟨1, 0, 0, 2, 1, 1, 0⟩) = some 0b1_000_0100_000_000_010_01_1_000000000000_00000000000000000000000000000000
    ∧ encodeStep (.collLoop 5 ⟨0, 0, 0, 0, 0, 8, 1, 3⟩) = some 0b0101_0_0_00_00000000_00000000_0000000000001000_0000000000000_1_0000000011
    ∧ (decodeSlot 0x20000000).isOk = true ∧ (decodeMicro 0 0x0100000000000000).isSome = true ∧ (decodeStep 0 0).isSome = true ∧ decodeStep 0 (0x1FFF#64 <<< 11) = decodeStep 0 0 := by decide +kernel

/-- Context 0 at `pc` in the middle of a bundle of an overlay of these words. -/
def codeAt (ws : List W32) (pc : W64) : State :=
  let s := slotAt 0 []
  ctx0 (s.setCore 0 { s.core 0 with ovlWords := ws }) fun c => { c with pc := pc }

/-- StepRunsWhatIsNext: a bundle in progress whose next word is an instruction, one whose word is none, and one beyond the code. -/
theorem witness_slots_in_progress : let s := codeAt [0x20000000, 0xFE000000] 0
    s.failed = false ∧ s.bundle = some ⟨0, 0, [], false, false⟩ ∧ codeWord s 0 0 = some 0x20000000 ∧ (decodeSlot 0x20000000).isOk = true ∧ codeWord s 0 4 = some 0xFE000000 ∧ (decodeSlot 0xFE000000).isOk = false ∧ codeWord s 0 8 = none := by
  decide +kernel

/-- Core 0 about to issue a bundle of these words at `pc`. -/
def turnAt (ws : List W32) (pc : W64) : State := { codeAt ws pc with bundle := none, agenda := [.issue 0] }

/-- What the fetch of a bundle gives: its words and the instructions of its slots. -/
def fetched (s : State) : Option (List Instr) := match bundleWords s 0 (s.ctx 0).pc 8 with
  | .ok ws => if ws.length < 4 then none else match checkSlots s 0 (s.ctx 0).pc 0 [] ws with
    | .ok is => some is
    | .error _ => none
  | .error _ => none

/-- Context 0 has a drain of an earlier bundle that is still to come. -/
def draining (s : State) : State := s.setCtx 0 { s.ctx 0 with pend := [⟨3, 0, .drain 2⟩], bundleNo := 1 }

/-- StepRunsWhatIsNext: a core's turn at a bundle of four nops, at one with two jumps, and at a place that is not aligned. -/
theorem witness_turns : let s := turnAt [0x20000000, 0x20000000, 0x20000000, 0xA0000000] 0; let d := turnAt [0b0011100_010110_010111_0_100000_0_00000, 0x20000000, 0x20000000, 0xA0000000] 0; let j := turnAt [0x20000001, 0x20000001, 0x20000000, 0xA0000000] 0
    s.bundle = none ∧ heatStops s 0 = false ∧ (s.core 0).cur = some 0 ∧ (s.ctx 0).pc.toNat % 4 = 0 ∧ ((turnAt [] 6).ctx 0).pc.toNat % 4 ≠ 0
    ∧ (fetched { s with agenda := [], focus := 0 }).map (fun is => classesOk (is.map classOf)) = some true ∧ (fetched { j with agenda := [], focus := 0 }).map (fun is => classesOk (is.map classOf)) = some false
    ∧ (fetched { s with agenda := [], focus := 0 }).map (drainHolds (s.ctx 0)) = some none ∧ (fetched { draining d with agenda := [], focus := 0 }).map (drainHolds ((draining d).ctx 0)) = some (some 0) := by decide +kernel

/-- A collective run whose only step, a loop, stands in the scratchpad of its launch. -/
def oneStep : CollRun := { runOf with launch := 9, step := 0, desc := .ofNat 1024 (wordsNat [0x1000000000002000, 0x1000000000003000, 0x1000000000005000, 0, 3 + 2 ^ 16 + 2 * 2 ^ 48, 256 + 6 * 2 ^ 32 + 2 ^ 38]) }
def stepOnce : State := { up with launches := [copier], runs := [oneStep], agenda := [], engineTiles := [tileOf (spKey 0 0 0x2000)], mem := bytesAt (spKey 0 0 0x2000) 8 0b0101_0_0_00_00000000_00000000_0000000000001000_0000000000000_1_0000000011 }

/-- StepRunsWhatIsNext: an engine's next micro-word, a collective run with a step to go and one that has ended, and an event. -/
theorem witness_other_turns : let s : State := { engineOf true false 1 1 63 0 with bundle := none, agenda := [.micro 2] }; let c := (s.running 2).getD bareCall; let e : CollRun := { oneStep with status := some 1 }
    s.failed = false ∧ s.running 2 = some c ∧ ((routineWord s 2 c.routine c.word).bind (decodeMicro 2)).isSome = true
    ∧ stepOnce.run? 900 = some oneStep ∧ oneStep.status = none ∧ runHeld stepOnce oneStep = false ∧ oneStep.step < cdf oneStep.desc 4 16 16 ∧ ({ stepOnce with runs := [e] }.run? 900) = some e ∧ e.status ≠ none
    ∧ (match collWord stepOnce oneStep 0 with
      | (.val v, _) => decodeStep 900 (BitVec.ofNat 64 v) == some (.collLoop 900 ⟨0, 0, 0, 0, 0, 8, 1, 3⟩)
      | _ => false) = true := by decide +kernel

/-- IllegalSlotsTrap: a slot with an operand that is not allowed, one with a modifier that is not, and a bundle in progress. -/
theorem witness_illegal : (slotAt 7 []).issues 0 7 ∧ formFault (.aluAdd ⟨0, 63, 21, 0, 23, 0⟩) = some .operand ∧ formFault (.memLd { s := 0, d := 23, a := 21, z := 7, o := 0, n := 0 }) = some .modifier
    ∧ (encode (.aluAdd ⟨0, 63, 21, 0, 23, 0⟩)).isSome = true ∧ (encode (.memLd { s := 0, d := 23, a := 21, z := 7, o := 0, n := 0 })).isSome = true ∧ (slotAt 7 []).bundle = some ⟨0, 7, [], false, false⟩
    ∧ ((slotAt 7 []).ctx 0).status = .running := by
  and_intros <;> first | decide +kernel | rfl

/-- CanonicalFormIsKept: a state that keeps its form and takes a step. -/
theorem witness_step : (match step (slotAt 3 []) with
    | .next _ => true
    | _ => false) = true ∧ (match step State.reset with
    | .next _ => true
    | _ => false) = true := by decide +kernel

theorem witness_step_canonical : (slotAt 3 []).canonical ∧ State.reset.canonical := ⟨canonical_of (by decide +kernel), canonical_of (by decide +kernel)⟩

/-- The file of "A small image" (R217 to R220): the unit, its tensor, one of its sharding entries and its launch record. -/
def probe : Name := [0x70, 0x72, 0x6F, 0x62, 0x65]
def probeL : Name := probe ++ [0x5F, 0x6C]
def entry : Name := [0x65, 0x6E, 0x74, 0x72, 0x79]
def smallImage : List Line := [.scope true [probe, probeL], .unit probe, .overlay 7, .bundleLabel entry,
  .bundle [(0x00CA2481, none), (0x20000001, none)], .endUnit,
  .tensor [0x67] ⟨5, 6, [64, 64], [], .num 0, 1, 0x7F, none, 16, [0, 1], [32, 32], [2, 2]⟩,
  .shard 17 ⟨5, 1, 0, 1, 0, 0, 0, 0x01000000⟩,
  .launch probeL ⟨probe, some entry, 5, (3, 2, 1), none, 4, 5, 3, 0, 0, 0, none, 0, 3, 2, 0, 0, [], none, none, [], .num 0, none⟩]
def smallObject : Adko := (assemble smallImage).getD ⟨false, [], []⟩
def words64 (a : Adko) (k : SectKind) (n : Nat) : List Nat :=
  ((a.sects.find? (·.kind == k)).map fun t => ((wordsOf t.data).take n).map (·.toNat)).getD []

/-- The words and relocations that "A small image" lists. -/
theorem test_assemble_small_image :
    words64 smallObject .code 2 = [0x20000001_00CA2481, 0xA0000000_20000000] ∧ words64 smallObject .tdesc 1 = [0x00000010_22162005]
    ∧ words64 smallObject .shard 3 = [17, 0x00000004_00011005, 0x01000000]
    ∧ (words64 smallObject .launch 7).drop 2 = [0x00000001_00020003, 0x174, 0x00000007_00000006, 0x00000000_00030005, 0x2]
    ∧ ((smallObject.sects.find? (·.kind == .launch)).map fun t => t.rels.map fun r => ((wordsOf r.encode).getD 1 0).toNat)
      = some [0x00050000_00000000, 0x00044201_00000001, 0x00048002_00000000] := by decide +kernel

/-- The linked image of "A small image", with the base 0x4000_0000. -/
theorem test_link_small_image : (match linkObjects 0x40000000 [smallObject] with
    | .ok a => words64 a .launch 2 == [0x40000000, 0x10] && a.launches == [0x40000100]
    | .error _ => false) = true := by decide +kernel

/-- The slots of "Reading encodings" (R199 to R201). -/
theorem test_slot_text : [slotWord [] (spell "mem.ld g9, g7, 128 sz=w"), slotWord [] (spell "mem.ld g5, g7, 64 sz=d sc=dev"), slotWord [] (spell "mat.call me0, 7, ph3"),
      slotWord [] (spell "alu.add q, g5, g6"), slotWord [] (spell "alu.add q0, g5, g6")]
    = [some (0x28CAE820, none), some (0x28AAED88, none), some (0x60180007, none), some (0x0002A581, none), none] := by decide +kernel

/-- The bundle and the launch record of "A small image" as text. -/
theorem test_source_text : textLine [] (spell "entry: alu.add g9, g1, g2 || ctl.end ; one bundle") = some ((smallImage.drop 3).take 2)
    ∧ textLine [] (spell ".launch probe_l, unit=probe, entry=entry, id=5, grid=3:2:1, split=4, pclass=P3, prio=5, graph=3, graphn=2")
      = some (smallImage.drop 8) := by decide +kernel
end Sys2Proof.Tests
end

section
/-! PROOFS. The state right after reset: what an empty table of registers reads, and the values that the spec states. -/
namespace Sys2Proof.Proofs.ResetValues
open Sys2Proof.Machine

/-- A word of the register window after reset is its reset value. -/
theorem mmioWord_reset (die off : Nat) : State.reset.mmioWord die off = mmioReset (off / 8 * 8) := rfl

/-- Where no register with a reset value of its own stands, words are 0: FPORT and the level table lie there. -/
theorem mmioReset_eq_zero {off : Nat} (h : (0x1000 ≤ off ∧ off < 0x2800) ∨ (0x50000 ≤ off ∧ off < 0x500000)) :
    mmioReset off = 0 := by
  simp only [mmioReset, beq_iff_eq, Bool.and_eq_true, decide_eq_true_eq]
  rw [if_neg (by omega), if_neg (by omega), if_neg (by omega), if_neg (by omega), if_neg (by omega), if_neg (by omega),
    if_neg (by omega)]

/-- The level table stands at 0 after reset (R166). -/
theorem levelState_reset {i : Nat} (h : i < 1300) : State.reset.levelState i = 0 := by
  rw [State.levelState, State.level, mmioWord_reset, mmioReset_eq_zero (.inr (by omega))]
  rfl

/-- No port is up after reset (R408 to R410). -/
theorem portUp_reset {p : Nat} (h : p < 32) : State.reset.portUp p = false := by
  rw [State.portUp, State.fport, mmioWord_reset, mmioReset_eq_zero (.inl (by omega))]
  rfl

theorem canonical_reset : State.reset.canonical :=
  ⟨rfl, rfl, List.Pairwise.nil, List.Pairwise.nil, fun p h => by cases h⟩

/-- Settles O6: every table of the state is empty, so that each part reads as its own reset value. -/
theorem resetValues : Obligations.ResetValues := by
  have parts : ∀ core, State.reset.split core = 0 ∧ (∀ slot, State.reset.phaser core slot = Phaser.reset)
      ∧ (State.reset.core core).wlDelta = 255 ∧ (State.reset.core core).wlCfg = 0x01C00100
      ∧ (State.reset.core core).wlSpill = 0 ∧ (State.reset.core core).ovlTag = 0 ∧ (State.reset.core core).dir = [] :=
    fun core => ⟨rfl, fun slot => rfl, rfl, rfl, rfl, rfl, rfl⟩
  have engines : ∀ e, (State.reset.engine e).queue = [] ∧ (State.reset.engine e).mfmt = 0 ∧ (State.reset.engine e).pert = 0
      ∧ (State.reset.engine e).sigma = 0 ∧ (State.reset.engine e).satcnt = 0 := fun e => ⟨rfl, rfl, rfl, rfl, rfl⟩
  exact ⟨canonical_reset, rfl, rfl, fun _ => rfl, rfl, rfl, parts, engines, fun _ => levelState_reset, rfl, rfl, rfl,
    rfl, rfl, rfl, rfl, rfl, rfl, fun _ => portUp_reset, rfl, rfl⟩

end Sys2Proof.Proofs.ResetValues
end

section
/-! PROOFS. Address spaces: the issue checks of an access as a list of which the first that applies gives the trap, and the
loads and stores that fail one (R8 to R13, R22, R23, R26, R29, R30, R133). -/
namespace Sys2Proof.Proofs.AddressSpaces
open Sys2Proof.Machine

/-! ### Fields and tags -/

theorem fld_eq_bitsFrom (p : W64) (lo n : Nat) : fld p lo n = bitsFrom p lo n := by
  simp only [fld, bits, bitsFrom, Nat.shiftRight_eq_div_pow]

/-- The tag of a space (R8). -/
def tagOf : Space → Nat
  | .va => 0
  | .spl => 1
  | .spd => 2
  | .cdv => 3
  | .pdv => 4
  | .peer => 8
  | .host => 12
  | .mmio => 14

theorem spaceOf_eq_some_iff {tag : Nat} {sp : Space} : spaceOf tag = some sp ↔ tag = tagOf sp := by
  constructor
  · intro h
    unfold spaceOf at h
    split at h <;> cases h <;> rfl
  · rintro rfl
    cases sp <;> rfl

theorem spaceOf_eq_none_iff {tag : Nat} : spaceOf tag = none ↔ ¬ (tag ≤ 4 ∨ tag = 8 ∨ tag = 12 ∨ tag = 14) := by
  constructor
  · intro h hv
    have named : tag = 0 ∨ tag = 1 ∨ tag = 2 ∨ tag = 3 ∨ tag = 4 ∨ tag = 8 ∨ tag = 12 ∨ tag = 14 := by omega
    rcases named with rfl | rfl | rfl | rfl | rfl | rfl | rfl | rfl <;> cases h
  · intro h
    cases hs : spaceOf tag with
    | none => rfl
    | some sp =>
      rw [spaceOf_eq_some_iff] at hs
      cases sp <;> simp [tagOf] at hs <;> omega

/-! ### The checks of R29 in a known space, as the spec writes them -/

section
variable {tag : Nat} {sp : Space} (ht : tag = tagOf sp) (s : State) (w : Who) (ea : W64) (n : Nat)
include ht

theorem space_beq_iff (x : Space) : (sp == x) = true ↔ tag = tagOf x := by
  subst ht
  cases sp <;> cases x <;> decide

theorem fieldBad_iff : fieldBad sp ea = true ↔
    ((tag = 0 ∧ bitsFrom ea 48 12 ≠ 0) ∨ (tag = 1 ∧ bitsFrom ea 24 36 ≠ 0)
      ∨ (tag = 2 ∧ (bitsFrom ea 58 2 ≠ 0 ∨ bitsFrom ea 24 26 ≠ 0)) ∨ (tag = 3 ∧ bitsFrom ea 30 30 ≠ 0)
      ∨ (tag = 4 ∧ (bitsFrom ea 58 2 ≠ 0 ∨ bitsFrom ea 30 20 ≠ 0)) ∨ (tag = 12 ∧ bitsFrom ea 57 3 ≠ 0)
      ∨ (tag = 14 ∧ (bitsFrom ea 58 2 ≠ 0 ∨ bitsFrom ea 32 24 ≠ 0))) := by
  subst ht
  cases sp <;> simp [tagOf, fieldBad, fld_eq_bitsFrom]

theorem privDenied_iff : (sp == .mmio && !w.priv) = true ↔ tag = 14 ∧ w.priv = false := by
  rw [Bool.and_eq_true, space_beq_iff ht, Bool.not_eq_true', tagOf]

theorem denied_iff : denied sp w ea = true ↔
    ((tag = 2 ∧ ¬ ptrCore ea = w.core ∧ w.asperm.getLsbD 1 = false)
      ∨ (tag = 4 ∧ ¬ ptrCore ea = w.core ∧ w.asperm.getLsbD 2 = false)
      ∨ (tag = 8 ∧ w.asperm.getLsbD 3 = false) ∨ (tag = 12 ∧ w.asperm.getLsbD 4 = false)) := by
  subst ht
  cases sp <;> simp [tagOf, denied]

theorem mmioSize_iff : (sp == .mmio && n != 4 && n != 8) = true ↔ tag = 14 ∧ n ≠ 4 ∧ n ≠ 8 := by
  rw [Bool.and_eq_true, Bool.and_eq_true, space_beq_iff ht, bne_iff_ne, bne_iff_ne, and_assoc, tagOf]

theorem atomicSpace_iff (atomic : Bool) : (atomic && (sp == .peer || sp == .host || sp == .mmio)) = true ↔
    atomic = true ∧ (tag = 8 ∨ tag = 12 ∨ tag = 14) := by
  simp only [Bool.and_eq_true, Bool.or_eq_true, space_beq_iff ht, or_assoc, tagOf]

theorem noRoute_iff : (sp == .peer && fld ea 44 16 != s.deviceId && (s.route (fld ea 44 16)).isNone) = true ↔
    tag = 8 ∧ bitsFrom ea 44 16 ≠ s.deviceId ∧ s.route (bitsFrom ea 44 16) = none := by
  simp only [Bool.and_eq_true, space_beq_iff ht, bne_iff_ne, Option.isNone_iff_eq_none, and_assoc, fld_eq_bitsFrom, tagOf]

theorem targetCore_eq : targetCore sp w ea = if tag = 2 ∨ tag = 4 then ptrCore ea else w.core := by
  subst ht
  cases sp <;> rfl

theorem outOfRange_iff : outOfRange s sp w ea n = true ↔
    ((tag = 1 ∨ tag = 2) ∧ s.spSize (targetCore sp w ea) < bitsFrom ea 0 22 + n
      ∨ (tag = 3 ∨ tag = 4) ∧ 0x30000000 < bitsFrom ea 0 30 + n) := by
  subst ht
  cases sp <;> simp [tagOf, outOfRange, fld_eq_bitsFrom]

theorem placeOf_eq : placeOf sp w ea =
    (if tag = 0 then .untranslated (bitsFrom ea 0 48)
      else if tag ≤ 2 then .mem (spKey (targetCore sp w ea) (bitsFrom ea 22 2) (bitsFrom ea 0 22))
      else if tag ≤ 4 then .mem (dramKey (targetCore sp w ea) (bitsFrom ea 0 30))
      else if tag = 8 then .peer (bitsFrom ea 44 16) (bitsFrom ea 0 44)
      else if tag = 12 then .host (bitsFrom ea 0 57) else .mmio (bitsFrom ea 56 2) (bitsFrom ea 0 32)) := by
  subst ht
  cases sp <;> simp [tagOf, placeOf, fld_eq_bitsFrom]

end

/-! ### The checks as a list -/

/-- The issue checks that follow the one of the tag, in the order of R29, each with its trap. -/
def issueChecks (s : State) (w : Who) (sp : Space) (base ea : W64) (n align : Nat) (atomic : Bool) : List (Bool × Trap) := [
  (fld ea 60 4 != fld base 60 4, addrTrap 2 base),
  (fieldBad sp ea, addrTrap 3 ea),
  (sp == .mmio && !w.priv, addrTrap 4 ea),
  (denied sp w ea, addrTrap 5 ea),
  (sp == .mmio && n != 4 && n != 8, addrTrap 6 ea),
  (atomic && (sp == .peer || sp == .host || sp == .mmio), addrTrap 7 ea),
  (ea.toNat % align != 0, addrTrap 8 ea),
  (outOfRange s sp w ea n, addrTrap 9 ea),
  (sp == .peer && fld ea 44 16 != s.deviceId && (s.route (fld ea 44 16)).isNone, addrTrap 10 ea)]

section
variable {s : State} {w : Who} {sp : Space} {base ea : W64} {n align : Nat} {atomic : Bool}

theorem elim_find?_cons {α : Type} (b : Bool) (t : Trap) (l : List (Bool × Trap)) (r : α) (f : Bool × Trap → α) :
    (((b, t) :: l).find? (·.1)).elim r f = if b then f (b, t) else (l.find? (·.1)).elim r f := by
  cases b <;> rfl

theorem checkAligned_of_space_none (h : spaceOf (fld base 60 4) = none) :
    checkAligned s w base ea n align atomic = .error (addrTrap 1 ea) := by
  simp only [checkAligned, h]

theorem checkAligned_of_space_some (h : spaceOf (fld base 60 4) = some sp) :
    checkAligned s w base ea n align atomic =
      ((issueChecks s w sp base ea n align atomic).find? (·.1)).elim (.ok (sp, placeOf sp w ea)) fun x => .error x.2 := by
  simp only [checkAligned, h, issueChecks, elim_find?_cons]
  rfl

/-- No issue check's trap is put off as that of a translation is (R388). -/
theorem checkAligned_error_translates {t : Trap} (h : checkAligned s w base ea n align atomic = .error t) :
    (Stop.trap t).translates = false := by
  cases hs : spaceOf (fld base 60 4) with
  | none =>
    rw [checkAligned_of_space_none hs] at h
    cases h
    rfl
  | some sp =>
    rw [checkAligned_of_space_some hs] at h
    cases hc : (issueChecks s w sp base ea n align atomic).find? (·.1) with
    | none => rw [hc] at h; cases h
    | some x =>
      rw [hc] at h
      cases h
      have traps : ∀ x ∈ issueChecks s w sp base ea n align atomic, (Stop.trap x.2).translates = false := by
        simp [issueChecks, addrTrap, Stop.translates]
      exact traps x (List.mem_of_find?_eq_some hc)

end

/-- A list of causes with their conditions says the same, item by item, as a list of checks with their traps. -/
inductive SameChecks (trapOf : Nat → Trap) : List (Prop × Nat) → List (Bool × Trap) → Prop
  | nil : SameChecks trapOf [] []
  | cons {p : Prop} {c : Nat} {b : Bool} {t : Trap} {causes : List (Prop × Nat)} {checks : List (Bool × Trap)}
      (holds : b = true ↔ p) (trap : t = trapOf c) (rest : SameChecks trapOf causes checks) :
      SameChecks trapOf ((p, c) :: causes) ((b, t) :: checks)

section
variable {trapOf : Nat → Trap} {causes : List (Prop × Nat)} {checks : List (Bool × Trap)} (h : SameChecks trapOf causes checks)
include h

/-- The first cause that holds is the first check that applies. -/
theorem find?_of_first_cause {j : Nat} {p : Prop} {c : Nat} (hj : causes[j]? = some (p, c)) (hp : p)
    (first : ∀ i < j, ∀ q d, causes[i]? = some (q, d) → ¬ q) : checks.find? (·.1) = some (true, trapOf c) := by
  induction h generalizing j with
  | nil => cases hj
  | @cons q d b t _ _ holds trap _ ih =>
    cases j with
    | zero =>
      cases hj
      have applies : (b, t) = (true, trapOf c) := Prod.ext (holds.mpr hp) trap
      rw [applies]
      rfl
    | succ j =>
      have passes : ¬ b = true := fun hb => first 0 (Nat.succ_pos j) q d rfl (holds.mp hb)
      rw [List.find?_cons_of_neg passes]
      exact ih hj fun i hi q d hq => first (i + 1) (Nat.succ_lt_succ hi) q d hq

/-- Where no cause holds no check applies. -/
theorem find?_of_no_cause (none_holds : ∀ x ∈ causes, ¬ x.1) : checks.find? (·.1) = none := by
  induction h with
  | nil => rfl
  | cons holds _ _ ih =>
    rw [List.find?_cons_of_neg fun hb => none_holds _ List.mem_cons_self (holds.mp hb)]
    exact ih fun x hx => none_holds x (List.mem_cons_of_mem _ hx)

end

/-- A reserved tag is the first cause; in a space the causes after it are the issue checks one by one. -/
theorem addressChecksInOrder : Sys2Proof.Claim.AddressChecksInOrder := by
  intro s w base ea n atomic tag own column causes
  cases hs : spaceOf tag with
  | none =>
    have reserved : ¬ (tag ≤ 4 ∨ tag = 8 ∨ tag = 12 ∨ tag = 14) := spaceOf_eq_none_iff.mp hs
    constructor
    · intro j p c hj _ first
      cases j with
      | zero =>
        cases hj
        exact checkAligned_of_space_none (by rw [fld_eq_bitsFrom]; exact hs)
      | succ j => exact absurd reserved (first 0 (Nat.succ_pos j) _ _ rfl)
    · exact fun none_holds => absurd reserved (none_holds _ List.mem_cons_self)
  | some sp =>
    have ht : tag = tagOf sp := spaceOf_eq_some_iff.mp hs
    have hown : (ptrCore ea = w.core) = own := by simp only [ptrCore, fld_eq_bitsFrom]; rfl
    have hcolumn : targetCore sp w ea = column := by rw [targetCore_eq ht, ptrCore, fld_eq_bitsFrom, fld_eq_bitsFrom]
    have same : SameChecks (fun c => ⟨0x03, c, some (if c = 2 then base else ea)⟩) causes
        ((false, addrTrap 1 ea) :: issueChecks s w sp base ea n n atomic) := by
      have valid : (false = true) ↔ ¬ (tag ≤ 4 ∨ tag = 8 ∨ tag = 12 ∨ tag = 14) := by
        rw [← spaceOf_eq_none_iff, hs]
        exact iff_of_false Bool.false_ne_true (Option.some_ne_none sp)
      have tagCarry : (fld ea 60 4 != fld base 60 4) = true ↔ bitsFrom ea 60 4 ≠ tag := by
        rw [bne_iff_ne, fld_eq_bitsFrom, fld_eq_bitsFrom]
      have asperm := denied_iff ht w ea
      rw [hown] at asperm
      have range := outOfRange_iff ht s w ea n
      rw [hcolumn] at range
      exact .cons valid rfl (.cons tagCarry rfl (.cons (fieldBad_iff ht ea) rfl (.cons (privDenied_iff ht w) rfl
        (.cons asperm rfl (.cons (mmioSize_iff ht n) rfl (.cons (atomicSpace_iff ht atomic) rfl
        (.cons bne_iff_ne rfl (.cons range rfl (.cons (noRoute_iff ht s ea) rfl .nil)))))))))
    have check : checkAddr s w base ea n atomic = _ := checkAligned_of_space_some (by rw [fld_eq_bitsFrom]; exact hs)
    constructor
    · intro j p c hj hp first
      have found := find?_of_first_cause same hj hp first
      rw [List.find?_cons_of_neg Bool.false_ne_true] at found
      rw [check, found]
      rfl
    · intro none_holds
      have passed := find?_of_no_cause same none_holds
      rw [List.find?_cons_of_neg Bool.false_ne_true] at passed
      refine ⟨sp, placeOf sp w ea, by rw [check, passed]; rfl, ?_⟩
      rw [placeOf_eq ht, hcolumn]

/-! ### Loads and stores that fail a check -/

section
variable {c : Ctx} {code : BitVec 6} {f : BitVec 1}

/-- A scalar operand that could be read is a full source of its type (R182, R185). -/
theorem scalar_source_ready {v : W64} (h : readS c code f = .ok v) (g : BitVec 1) :
    (Role.ss code g).clashes c = false ∧ (Role.ss code g).empty? c = none := by
  unfold readS at h
  by_cases hq : code.toNat < 16
  · cases hv : (vget c.q code.toNat ⟨false, 0#2048, none⟩).isVec with
    | true => simp [hq, hv] at h
    | false => cases hp : (vget c.q code.toNat ⟨false, 0#2048, none⟩).pend with
      | some id => simp [hq, hv, hp] at h
      | none => simp [Role.clashes, Role.empty?, Ctx.filled, hq, hv, hp]
  · by_cases h0 : code.toNat = 16
    · simp [Role.clashes, Role.empty?, Ctx.filled, h0]
    · by_cases hg : code.toNat < 48
      · cases hp : (vget c.g (code.toNat - 16) ⟨0#64, none⟩).pend with
        | some id => simp [hq, h0, hg, gCode, hp] at h
        | none => simp [Role.clashes, Role.empty?, Ctx.filled, hq, hg, hp]
      · simp [hq, h0, hg] at h

/-- A vector operand that could be read is a full source of its type (R182, R185). -/
theorem vector_source_ready {v : Vec} (h : readV c code f = .ok v) (g : BitVec 1) :
    (Role.vs code g).clashes c = false ∧ (Role.vs code g).empty? c = none := by
  unfold readV at h
  by_cases hq : code.toNat < 16
  · cases hv : (vget c.q code.toNat ⟨false, 0#2048, none⟩).isVec with
    | false => simp [hq, hv] at h
    | true => cases hp : (vget c.q code.toNat ⟨false, 0#2048, none⟩).pend with
      | some id => simp [hq, hv, hp] at h
      | none => simp [Role.clashes, Role.empty?, Ctx.filled, hq, hv, hp]
  · by_cases hg : code.toNat < 48
    · simp [hq, hg] at h
    · cases hp : (vget c.h (code.toNat - 48) ⟨0#2048, none⟩).pend with
      | some id => simp [hq, hg, hp] at h
      | none => simp [Role.clashes, Role.empty?, Ctx.filled, hq, hg, hp]

theorem scalar_of_dataOf {v : Vec} (h : dataOf c code false = .ok v) : ∃ x, readS c code 0 = .ok x := by
  cases hs : readS c code 0 with
  | error x =>
    rw [dataOf, if_neg Bool.false_ne_true, hs] at h
    cases h
  | ok x => exact ⟨x, rfl⟩

end

theorem operandStop_eq_none {i : Instr} {c : Ctx} (h : ∀ r ∈ rolesOf i, r.clashes c = false ∧ r.empty? c = none) :
    operandStop i c = none := by
  have noClash : (rolesOf i).any (Role.clashes c) = false := List.any_eq_false.mpr fun r hr => by simp [(h r hr).1]
  rw [operandStop, noClash]
  exact List.findSome?_eq_none_iff.mpr fun r hr => (h r hr).2

theorem load_operands_ready {o : E} {c : Ctx} {a : W64} (ha : readS c o.a 0 = .ok a) : operandStop (.memLd o) c = none := by
  refine operandStop_eq_none fun r hr => ?_
  rcases List.mem_append.mp hr with hd | hb
  · unfold sizedRole at hd
    split at hd <;> simp at hd <;> subst hd <;> exact ⟨rfl, rfl⟩
  · rw [List.mem_singleton.mp hb]
    exact scalar_source_ready ha 0

theorem store_operands_ready {o : E} {c : Ctx} {a : W64} {sz : Nat} {isVec : Bool} {v : Vec} (ha : readS c o.a 0 = .ok a)
    (hz : sizeOf' o.z = some (sz, isVec)) (hv : dataOf c o.d isVec = .ok v) : operandStop (.memSt o) c = none := by
  refine operandStop_eq_none fun r hr => ?_
  rcases List.mem_append.mp hr with hd | hb
  · simp only [sizedRole, hz] at hd
    cases isVec with
    | true =>
      rw [List.mem_singleton.mp hd]
      exact vector_source_ready hv 0
    | false =>
      rw [List.mem_singleton.mp hd]
      obtain ⟨x, hx⟩ := scalar_of_dataOf hv
      exact scalar_source_ready hx 0
  · rw [List.mem_singleton.mp hb]
    exact scalar_source_ready ha 0

theorem formE_eq {e : Env} {o : E} {load : Bool} {a : W64} {sz : Nat} {isVec : Bool} {ord : Ord}
    (hz : sizeOf' o.z = some (sz, isVec)) (ho : ordOf o.o load = some ord) (ha : readS e.c o.a 0 = .ok a) :
    formE e o load = .ok (a, a + BitVec.ofNat 64 (o.n.toNat * sz), sz, isVec, ord) := by
  simp only [formE, needSize, hz, needOrd, ho, ha]
  rfl

theorem exec_memLd (o : E) (s : State) : exec (.memLd o) s =
    .next (issueMem (.memLd o) o.s s fun e => (formE e o true).bind fun (a, ea, n, isVec, ord) => loadAt e o.d a ea n isVec ord) :=
  rfl

theorem exec_memSt (o : E) (s : State) : exec (.memSt o) s =
    .next (issueMem (.memSt o) o.s s fun e => (formE e o false).bind fun (a, ea, n, isVec, ord) => storeAt e o.d a ea n isVec ord) :=
  rfl

/-- A slot of the memory class that no drain holds back, and whose own part traps, has its trap taken (R101, R252). -/
theorem issueMem_trap {i : Instr} {stop : BitVec 1} {s : State} {f : Env → Except Stop (List Effect)} {k n : Nat} {t : Trap}
    (h : s.issues k n) (hd : drainPending (s.seen k) = false) (hf : formFault i = none) (ho : operandStop i (s.seen k) = none)
    (he : f ⟨s, k, s.seen k, n⟩ = .error (.trap t)) (ht : (Stop.trap t).translates = false) :
    issueMem i stop s f = takeTrap s k n t :=
  issue_trap h hf ho (by simp only [afterDrain, hd, Bool.false_eq_true, if_false, he]) ht

theorem checkAccess_of_check_error {e : Env} {base ea : W64} {n : Nat} {atomic writes : Bool} {t : Trap}
    (h : checkAddr e.s (who e.s e.k) base ea n atomic = .error t) : checkAccess e base ea n atomic writes = .error (.trap t) := by
  simp only [checkAccess, h]

/-- The owner fault STORE of R133. -/
theorem checkAccess_of_engineSide {e : Env} {base ea : W64} {n : Nat} {atomic : Bool} {sp : Space} {key : Nat}
    (h : checkAddr e.s (who e.s e.k) base ea n atomic = .ok (sp, .mem key)) (hsp : isSp key = true) (he : engineSide e.s key = true) :
    checkAccess e base ea n atomic true = .error (.trap ⟨0x06, 1, some ea⟩) := by
  simp [checkAccess, h, ownerOk, hsp, he]

theorem loadAt_of_check_error {e : Env} {d : BitVec 6} {base ea : W64} {n : Nat} {isVec : Bool} {ord : Ord} {dst : Dest} {x : Stop}
    (hd : destOf d isVec = .ok dst) (h : checkAccess e base ea n false false = .error x) :
    loadAt e d base ea n isVec ord = .error x := by
  simp only [loadAt, hd, h]
  rfl

theorem storeAt_of_check_error {e : Env} {d : BitVec 6} {base ea : W64} {n : Nat} {isVec : Bool} {ord : Ord} {v : Vec} {x : Stop}
    (hd : dataOf e.c d isVec = .ok v) (h : checkAccess e base ea n false true = .error x) :
    storeAt e d base ea n isVec ord = .error x := by
  simp only [storeAt, hd, h]
  rfl

theorem addressFaultsTrap : Sys2Proof.Claim.AddressFaultsTrap := by
  intro s k n o a sz isVec ord hissues hdrain ha hz ea
  have store_traps : ∀ t v, formFault (.memSt o) = none → ordOf o.o false = some ord → dataOf (s.seen k) o.d isVec = .ok v →
      checkAccess ⟨s, k, s.seen k, n⟩ a ea sz false true = .error (.trap t) → (Stop.trap t).translates = false →
      exec (.memSt o) s = .next (takeTrap s k n t) := by
    intro t v hf ho hv hc ht
    refine (exec_memSt o s).trans (congrArg Host.Outcome.next
      (issueMem_trap hissues hdrain hf (store_operands_ready ha hz hv) ?_ ht))
    rw [formE_eq (e := ⟨s, k, s.seen k, n⟩) hz ho ha]
    exact storeAt_of_check_error hv hc
  refine ⟨?_, ?_, ?_⟩
  · intro t dst hf ho hd hc
    refine (exec_memLd o s).trans (congrArg Host.Outcome.next
      (issueMem_trap hissues hdrain hf (load_operands_ready ha) ?_ (checkAligned_error_translates hc)))
    rw [formE_eq (e := ⟨s, k, s.seen k, n⟩) hz ho ha]
    exact loadAt_of_check_error hd (checkAccess_of_check_error hc)
  · intro t v hf ho hv hc
    exact store_traps t v hf ho hv (checkAccess_of_check_error hc) (checkAligned_error_translates hc)
  · intro v sp key hf ho hv hc hsp he
    exact store_traps _ v hf ho hv (checkAccess_of_engineSide hc hsp he) rfl

/-- Settles O21: the first cause of R29 that holds is the first issue check that applies, and its trap ends the bundle. -/
theorem addressChecks : Obligations.AddressChecks := ⟨addressChecksInOrder, addressFaultsTrap⟩

end Sys2Proof.Proofs.AddressSpaces
end

section
/-! PROOFS. Performed accesses: what the tags, monitors and mailboxes leave alone, the bytes that a write puts, and what is
left once the one piece of an access has performed (R33, R115 to R117, R170, R181, R260, R261, R265, R388). -/
namespace Sys2Proof.Proofs.PerformedAccesses
open Sys2Proof.Machine

/-! ### Cache tags, monitors and mailboxes -/

/-- Memory, host memory and the cores of `t` are those of `s`, and a context has at most another monitor: what is left free are
the cache tags, the mailboxes and the registers. -/
structure Unmoved (s t : State) : Prop where
  mem : t.mem = s.mem
  hostMem : t.hostMem = s.hostMem
  cores : t.cores = s.cores
  ctx : ∀ k, ∃ m, t.ctx k = { s.ctx k with monitor := m }

namespace Unmoved

theorem refl (s : State) : Unmoved s s := ⟨rfl, rfl, rfl, fun k => ⟨(s.ctx k).monitor, rfl⟩⟩

theorem trans {s t u : State} (h : Unmoved s t) (g : Unmoved t u) : Unmoved s u where
  mem := g.mem.trans h.mem
  hostMem := g.hostMem.trans h.hostMem
  cores := g.cores.trans h.cores
  ctx k := by
    obtain ⟨m, hm⟩ := h.ctx k
    obtain ⟨m', hm'⟩ := g.ctx k
    exact ⟨m', by rw [hm', hm]⟩

theorem foldl {α : Type} {f : State → α → State} (h : ∀ s x, Unmoved s (f s x)) (l : List α) (s : State) :
    Unmoved s (l.foldl f s) := by
  induction l generalizing s with
  | nil => exact refl s
  | cons x r ih => exact (h s x).trans (ih (f s x))

theorem withMem {s t : State} (h : Unmoved s t) (m : List Host.Cell) : Unmoved { s with mem := m } { t with mem := m } :=
  ⟨rfl, h.hostMem, h.cores, h.ctx⟩

/-- The tags of both caches and the count of free choices are no part of it. -/
theorem tags (s : State) (l2 : List L2Line) (llc : List LlcLine) (free : Nat) :
    Unmoved s { s with l2 := l2, llc := llc, free := free } := ⟨rfl, rfl, rfl, fun k => ⟨(s.ctx k).monitor, rfl⟩⟩

/-- Nor are the registers and the mailboxes. -/
theorem registers (s : State) (mmio : Tbl W64) (mailboxes : Tbl (List W64)) :
    Unmoved s { s with mmio := mmio, mailboxes := mailboxes } := ⟨rfl, rfl, rfl, fun k => ⟨(s.ctx k).monitor, rfl⟩⟩

end Unmoved

theorem tget_map {α : Type} (f : Nat → α → α) (t : Tbl α) (k : Nat) :
    tget (t.map fun x => (x.1, f x.1 x.2)) k = (tget t k).map (f k) := by
  induction t with
  | nil => rfl
  | cons x r ih =>
    simp only [List.map_cons, tget, beq_iff_eq]
    by_cases hk : x.1 = k
    · simp [hk]
    · by_cases hlt : k < x.1
      · simp [hk, hlt]
      · simp [hk, hlt, ih]

/-- A context whose monitor, if it is armed on this line, has been woken. -/
def wokenOn (line cause : Nat) (c : Ctx) : Ctx :=
  match c.monitor with
  | some m => if m.line == line && m.woken.isNone then { c with monitor := some { m with woken := some cause } } else c
  | none => c

theorem wakeMonitors_eq (s : State) (line cause : Nat) :
    wakeMonitors s line cause = { s with ctxs := s.ctxs.map fun x => (x.1, wokenOn line cause x.2) } := by
  unfold wakeMonitors
  congr 2
  funext ⟨k, c⟩
  simp only [wokenOn]
  cases c.monitor with
  | none => rfl
  | some m => dsimp only; split <;> rfl

theorem wokenOn_eq (line cause : Nat) (c : Ctx) : ∃ m, wokenOn line cause c = { c with monitor := m } := by
  unfold wokenOn
  split
  · split
    · exact ⟨_, rfl⟩
    · exact ⟨c.monitor, rfl⟩
  · exact ⟨c.monitor, rfl⟩

theorem unmoved_wakeMonitors (s : State) (line cause : Nat) : Unmoved s (wakeMonitors s line cause) := by
  rw [wakeMonitors_eq]
  refine ⟨rfl, rfl, rfl, fun k => ?_⟩
  simp only [State.ctx, tget_map fun _ => wokenOn line cause]
  cases tget s.ctxs k with
  | none => exact ⟨Ctx.reset.monitor, rfl⟩
  | some c => exact wokenOn_eq line cause c

theorem unmoved_l2Gone (s : State) (l : L2Line) : Unmoved s (l2Gone s l) := by
  unfold l2Gone
  split
  · exact (Unmoved.tags s s.l2 _ s.free).trans (unmoved_wakeMonitors _ _ _)
  · exact unmoved_wakeMonitors _ _ _

theorem unmoved_l2Insert (s : State) (column line : Nat) (stream : Bool) (st : LineState) (dirty : Bool) :
    Unmoved s (l2Insert s column line stream st dirty) := by
  unfold l2Insert
  split
  · exact Unmoved.refl s
  · dsimp only
    split
    · exact Unmoved.tags s _ s.llc s.free
    · refine Unmoved.trans ?_ (Unmoved.tags _ _ _ _)
      split
      · exact Unmoved.refl s
      · split
        · exact (Unmoved.tags s _ s.llc s.free).trans (unmoved_l2Gone _ _)
        · exact Unmoved.refl s

theorem unmoved_dropOthers (s : State) (line : Nat) (keep : Option Nat) : Unmoved s (dropOthers s line keep) :=
  Unmoved.tags s _ s.llc s.free

theorem unmoved_llcEvict (s : State) (line : Nat) : Unmoved s (llcEvict s line) := by
  unfold llcEvict
  split
  · exact (Unmoved.tags s _ _ s.free).trans (unmoved_wakeMonitors _ _ _)
  · exact Unmoved.refl s

theorem unmoved_llcPut (s : State) (line : Nat) (sharers : Option (List Nat)) (dirty : Bool) :
    Unmoved s (llcPut s line sharers dirty) := by
  unfold llcPut
  refine Unmoved.trans ?_ (Unmoved.tags _ _ _ _)
  dsimp only
  split
  · exact Unmoved.refl s
  · split
    · exact Unmoved.refl s
    · split
      · exact (unmoved_llcEvict s _).trans (Unmoved.tags _ _ _ _)
      · exact Unmoved.refl s

theorem unmoved_lpddrWrite (s : State) (column line : Nat) (stream : Bool) : Unmoved s (lpddrWrite s column line stream) :=
  ((unmoved_dropOthers s line _).trans (unmoved_llcPut _ _ _ _)).trans (unmoved_l2Insert _ _ _ _ _ _)

theorem unmoved_lpddrRead (s : State) (column line : Nat) (stream : Bool) : Unmoved s (lpddrRead s column line stream) :=
  ((unmoved_llcPut s line _ _).trans (Unmoved.tags _ _ _ _)).trans (unmoved_l2Insert _ _ _ _ _ _)

theorem unmoved_touchCaches (s : State) (column key : Nat) (write stream : Bool) :
    Unmoved s (touchCaches s column key write stream) := by
  unfold touchCaches
  dsimp only
  split
  · exact Unmoved.refl s
  · split
    · exact unmoved_l2Insert _ _ _ _ _ _
    · split
      · exact unmoved_lpddrWrite _ _ _ _
      · exact unmoved_lpddrRead _ _ _ _

theorem unmoved_capture (s : State) (die n : Nat) (v : W64) : Unmoved s (capture s die n v) := by
  unfold capture
  dsimp only
  split
  · exact Unmoved.registers s s.mmio _
  · exact Unmoved.registers s _ s.mailboxes

/-- A write changes memory, and beyond it what a capture and a wake-up change. -/
theorem unmoved_performWrite (s : State) (key n v : Nat) :
    Unmoved { s with mem := memWrite s.mem key v n } (performWrite s key n v) :=
  (Unmoved.foldl (fun _ _ => unmoved_capture _ _ _ _) _ _).trans (Unmoved.foldl (fun _ _ => unmoved_wakeMonitors _ _ _) _ _)

/-! ### Bytes -/

theorem memGet_memWrite_in (n : Nat) (m : List Host.Cell) (a v x : Nat) (hm : Memory.wf m = true) (hx : a ≤ x ∧ x < a + n) :
    memGet (memWrite m a v n) x = BitVec.ofNat 8 (v / 2 ^ (8 * (x - a))) := by
  induction n generalizing m a v with
  | zero => omega
  | succ n ih =>
    have hw := wf_memSet m a (BitVec.ofNat 8 v) hm
    unfold memWrite
    by_cases ha : x = a
    · subst ha
      rw [memGet_memWrite_out n _ _ _ _ hw (.inl (Nat.lt_succ_self x)), memGet_memSet_self m x _ hm]
      simp
    · rw [ih _ _ _ hw (by omega), show (256 : Nat) = 2 ^ 8 from rfl, Nat.div_div_eq_div_mul, ← Nat.pow_add,
        show 8 + 8 * (x - (a + 1)) = 8 * (x - a) by omega]

theorem memRead_lt (m : List Host.Cell) (a n : Nat) : memRead m a n < 2 ^ (8 * n) := by
  induction n generalizing a with
  | zero => simp [memRead]
  | succ n ih =>
    have hb := (memGet m a).isLt
    have hr := ih (a + 1)
    rw [memRead, show 8 * (n + 1) = 8 * n + 8 by omega, Nat.pow_add]
    omega

/-- Bytes of a number cut to at least those bits are those of the number. -/
theorem byte_of_mod (v n i : Nat) (hi : i < n) : BitVec.ofNat 8 (v % 2 ^ (8 * n) / 2 ^ (8 * i)) = BitVec.ofNat 8 (v / 2 ^ (8 * i)) := by
  apply BitVec.eq_of_toNat_eq
  rw [BitVec.toNat_ofNat, BitVec.toNat_ofNat, show 8 * n = 8 * i + 8 * (n - i) by omega, Nat.pow_add, Nat.mod_mul_right_div_self]
  exact Nat.mod_mod_of_dvd _ (Nat.pow_dvd_pow 2 (by omega))

/-! ### The end of an access of one piece -/

/-- An acquire changes the L1 of a core alone (R113, R123). -/
theorem acquireL1_eq (s : State) (core asid scope : Nat) : ∃ cores, acquireL1 s core asid scope = { s with cores := cores } := by
  unfold acquireL1 l1Invalidate
  dsimp only
  split
  · exact ⟨s.cores, rfl⟩
  · split
    · exact ⟨s.cores, rfl⟩
    · exact ⟨_, rfl⟩

/-- An access of one piece is over: it is off the list of its unit, its result is `v` with the flags `f`, and memory is `m`. -/
structure AccessOver (s t : State) (k id : Nat) (a : Access) (p : Piece) (m : List Host.Cell) (v : Nat) (f : Flags) : Prop where
  mem : t.mem = m
  hostMem : t.hostMem = s.hostMem
  pend : (t.ctx k).pend = (s.ctx k).pend.filter (·.id != id)
  results : (t.ctx k).results = (s.ctx k).results ++
    (a.res.toList.map fun r => ⟨r, a.got ||| BitVec.ofNat 2048 (v * 2 ^ p.lo), f⟩)

theorem accessOver_finishPiece {s t : State} {m : List Host.Cell} (h : Unmoved { s with mem := m } t) {a : Access} {p : Piece}
    (hp : a.pieces = [p]) (k id v : Nat) (f : Flags) : AccessOver s (finishPiece t k id a p v f) k id a p m v f := by
  let done : Ctx := { t.ctx k with
    pend := (t.ctx k).pend.filter (·.id != id)
    results := (t.ctx k).results ++ (a.res.toList.map fun r => ⟨r, a.got ||| BitVec.ofNat 2048 (v * 2 ^ p.lo), f⟩) }
  have finish : ∃ cores, finishPiece t k id a p v f = { t.setCtx k done with cores := cores } := by
    have last : finishPiece t k id a p v f = finishPiece.acquired k a (t.setCtx k done) := by
      simp only [finishPiece, hp, List.tail_cons, List.isEmpty_nil, if_true, Nat.shiftLeft_eq, done]
      cases a.res <;> rfl
    rw [last, finishPiece.acquired]
    split
    · exact acquireL1_eq _ _ _ _
    · exact ⟨t.cores, rfl⟩
  obtain ⟨cores, hf⟩ := finish
  have hctx : (finishPiece t k id a p v f).ctx k = done := by
    rw [hf]
    exact ctx_setCtx t k done
  obtain ⟨mon, hmon⟩ := h.ctx k
  exact {
    mem := by rw [hf]; exact h.mem
    hostMem := by rw [hf]; exact h.hostMem
    pend := by rw [hctx]; simp only [done, hmon]; rfl
    results := by rw [hctx]; simp only [done, hmon]; rfl }

/-- What a core reads rests on memory and on its forwarded stores. -/
theorem Unmoved.coreRead_eq {s t : State} (h : Unmoved s t) (core key n : Nat) : coreRead t core key n = coreRead s core key n := by
  simp only [coreRead, performRead, State.core, h.cores, h.mem]

theorem coreRead_of_no_fwd {s : State} {core : Nat} (h : (s.core core).fwd = []) (key n : Nat) :
    coreRead s core key n = memRead s.mem key n := by
  rw [coreRead, h]
  rfl

section
variable {s : State} {k id : Nat} {a : Access} {p : Piece} {key : Nat}

/-- A pending access that may perform performs its piece at its point of coherence. -/
theorem exec_accessPerform {e : Pend} (hfind : (s.ctx k).pend.find? (·.id == id) = some e)
    (hmay : mayPerform s k (pendBefore (s.ctx k).pend id) e = true) (hkind : e.kind = .access a) (hp : a.pieces = [p])
    (hplace : p.place = .mem key) : exec (.accessPerform k id) s = .next (performAt s k id a p key) := by
  show Host.Outcome.next (perform s k id) = _
  simp only [perform, hfind, hmay, Bool.not_true, Bool.false_eq_true, if_false, hkind, hp, performPiece, hplace]

theorem performAt_bad {l : Nat} (hop : opReads a.op = true) (hbad : badLine? s key p.bytes = some l) :
    performAt s k id a p key = failAccess s k id (memoryFault l) := by
  simp only [performAt, hop, if_true, hbad]

theorem accessOver_load (hp : a.pieces = [p]) (hop : a.op = .load) (hbad : badLine? s key p.bytes = none) :
    AccessOver s (performAt s k id a p key) k id a p s.mem (bits (coreRead s (k / 4) key p.bytes) p.bit p.bits) 0 := by
  have touched := unmoved_touchCaches s (k / 4) key (opWrites a.op) (a.hint == 2)
  have h : performAt s k id a p key = finishPiece (touchCaches s (k / 4) key (opWrites a.op) (a.hint == 2)) k id a p
      (bits (coreRead s (k / 4) key p.bytes) p.bit p.bits) 0 := by
    rw [← touched.coreRead_eq]
    simp [performAt, hop, hbad]
  rw [h]
  exact accessOver_finishPiece touched hp k id _ _

/-- Any other operation is one indivisible access of the bytes, after the caches have met the line. -/
theorem performAt_op (hop : a.op ≠ .load) (hbad : opReads a.op = true → badLine? s key p.bytes = none) :
    performAt s k id a p key =
      (let r := performOp (touchCaches s (k / 4) key (opWrites a.op) (a.hint == 2)) (k / 4) a.op key p.bytes p.bit p.bits (pieceData a p)
      finishPiece r.2.2 k id a p r.1 r.2.1) := by
  have hgood : (if opReads a.op then badLine? s key p.bytes else none) = none := by
    split
    · exact hbad ‹_›
    · rfl
  simp [performAt, hgood, hop]

end

/-- A write of bits is a write of the bytes, of the number itself where the bits are all of theirs. -/
theorem performBits_eq (s : State) (key bytes bit n v : Nat) : ∃ x, performBits s key bytes bit n v = performWrite s key bytes x
    ∧ (bit = 0 → n = 8 * bytes → x = v) := by
  unfold performBits
  split
  · exact ⟨v, rfl, fun _ _ => rfl⟩
  · next notWhole =>
    refine ⟨_, rfl, fun hb hn => absurd ?_ notWhole⟩
    simp [hb, hn]

/-- A write after the caches have met the line changes memory as the write alone does. -/
theorem unmoved_touched_write (s : State) (column key n v : Nat) (write stream : Bool) :
    Unmoved { s with mem := memWrite s.mem key v n } (performWrite (touchCaches s column key write stream) key n v) := by
  have touched := unmoved_touchCaches s column key write stream
  have written := unmoved_performWrite (touchCaches s column key write stream) key n v
  rw [touched.mem] at written
  exact (touched.withMem _).trans written

section
variable {s : State} {k id : Nat} {a : Access} {p : Piece} {key : Nat}

/-- A store is over with its bits written; where the piece is whole bytes they are the low bytes of its data. -/
theorem accessOver_store (hp : a.pieces = [p]) (hop : a.op = .store) : ∃ x v f,
    AccessOver s (performAt s k id a p key) k id a p (memWrite s.mem key x p.bytes) v f
    ∧ (p.bit = 0 → p.bits = 8 * p.bytes → x = (pieceData a p).toNat % 2 ^ p.bits) := by
  obtain ⟨x, hx, whole⟩ := performBits_eq (touchCaches s (k / 4) key (opWrites a.op) (a.hint == 2)) key p.bytes p.bit p.bits
    ((pieceData a p).toNat % 2 ^ p.bits)
  rw [performAt_op (by simp [hop]) (by simp [hop, opReads])]
  simp only [hop, performOp] at hx ⊢
  rw [hx]
  exact ⟨x, _, _, accessOver_finishPiece (unmoved_touched_write s (k / 4) key p.bytes x _ _) hp k id _ _, whole⟩

end

/-! ### Atomics on whole words -/

/-- The word that an atomic finds. -/
theorem bits_memRead (m : List Host.Cell) (key n : Nat) : bits (memRead m key n) 0 (8 * n) = memRead m key n := by
  rw [bits, Nat.shiftRight_zero, Nat.mod_eq_of_lt (memRead_lt m key n)]

theorem performBits_whole (s : State) (key bytes v : Nat) : performBits s key bytes 0 (8 * bytes) v = performWrite s key bytes v := by
  simp [performBits]

theorem performOp_atom (s : State) (core j key bytes : Nat) (data : Vec) :
    performOp s core (.atom j) key bytes 0 (8 * bytes) data =
      (let r := atomicNew j (8 * bytes) (memRead s.mem key bytes) (data.toNat % 2 ^ (8 * bytes))
      (memRead s.mem key bytes, r.2, performWrite s key bytes r.1)) := by
  simp only [performOp, performRead, bits_memRead, performBits_whole]

theorem performOp_cas (s : State) (core key bytes : Nat) (cmp : W64) (data : Vec) :
    performOp s core (.cas cmp) key bytes 0 (8 * bytes) data = (memRead s.mem key bytes, 0,
      if memRead s.mem key bytes = cmp.toNat % 2 ^ (8 * bytes) then performWrite s key bytes (data.toNat % 2 ^ (8 * bytes)) else s) := by
  simp only [performOp, performRead, bits_memRead, performBits_whole, beq_iff_eq]

section
variable {s : State} {k id : Nat} {a : Access} {p : Piece} {key : Nat} (hp : a.pieces = [p]) (hbit : p.bit = 0)
  (hbits : p.bits = 8 * p.bytes) (hbad : badLine? s key p.bytes = none)
include hp hbit hbits hbad

theorem accessOver_atom {j : Nat} (hop : a.op = .atom j) :
    let r := atomicNew j (8 * p.bytes) (memRead s.mem key p.bytes) ((pieceData a p).toNat % 2 ^ (8 * p.bytes))
    AccessOver s (performAt s k id a p key) k id a p (memWrite s.mem key r.1 p.bytes) (memRead s.mem key p.bytes) r.2 := by
  intro r
  rw [performAt_op (by simp [hop]) fun _ => hbad]
  simp only [hop, hbit, hbits, performOp_atom, (unmoved_touchCaches s _ _ _ _).mem]
  exact accessOver_finishPiece (unmoved_touched_write s (k / 4) key p.bytes r.1 _ _) hp k id _ _

theorem accessOver_cas {cmp : W64} (hop : a.op = .cas cmp) :
    AccessOver s (performAt s k id a p key) k id a p
      (if memRead s.mem key p.bytes = cmp.toNat % 2 ^ (8 * p.bytes)
        then memWrite s.mem key ((pieceData a p).toNat % 2 ^ (8 * p.bytes)) p.bytes else s.mem)
      (memRead s.mem key p.bytes) 0 := by
  rw [performAt_op (by simp [hop]) fun _ => hbad]
  simp only [hop, hbit, hbits, performOp_cas, (unmoved_touchCaches s _ _ _ _).mem]
  split
  · exact accessOver_finishPiece (unmoved_touched_write s (k / 4) key p.bytes _ _ _) hp k id _ _
  · exact accessOver_finishPiece (unmoved_touchCaches s (k / 4) key _ _) hp k id _ _

end

/-! ### The rows of the atomics -/

/-- The signed reading of a number of `n` bits, as the claim writes it. -/
theorem signed_of_lt {n x : Nat} (hn : 0 < n) (hx : x < 2 ^ n) :
    signed x n = if 2 ^ (n - 1) ≤ x then (x : Int) - 2 ^ n else x := by
  have top : x.testBit (n - 1) = decide (2 ^ (n - 1) ≤ x) := by
    have hpow : 2 ^ n = 2 ^ (n - 1) * 2 := by rw [← Nat.pow_succ]; congr 1; omega
    rw [Nat.testBit_eq_decide_div_mod_eq, Nat.mod_eq_of_lt (Nat.div_lt_of_lt_mul (hpow ▸ hx)), decide_eq_decide,
      Nat.div_eq_iff (Nat.two_pow_pos _)]
    omega
  rw [signed, top, Nat.mod_eq_of_lt hx]
  simp

/-- Numbers of `n` bits with one signed reading are one number. -/
theorem signed_inj {n x y : Nat} (hn : 0 < n) (hx : x < 2 ^ n) (hy : y < 2 ^ n) (h : signed x n = signed y n) : x = y := by
  have hpow : ((2 ^ n : Nat) : Int) = (2 : Int) ^ n := by norm_cast
  rw [signed_of_lt hn hx, signed_of_lt hn hy] at h
  split at h <;> split at h <;> omega

theorem atomicNew_rows (n old v : Nat) (hn : 0 < n) (hold : old < 2 ^ n) (hv : v < 2 ^ n) :
    let sg (x : Nat) : Int := if 2 ^ (n - 1) ≤ x then (x : Int) - 2 ^ n else x
    (atomicNew 0 n old v).1 = (old + v) % 2 ^ n ∧ (atomicNew 1 n old v).1 = old &&& v ∧ (atomicNew 2 n old v).1 = old ||| v
      ∧ (atomicNew 3 n old v).1 = old ^^^ v ∧ (atomicNew 4 n old v).1 = (if sg old ≤ sg v then old else v)
      ∧ (atomicNew 5 n old v).1 = (if sg old ≤ sg v then v else old) ∧ (atomicNew 6 n old v).1 = min old v
      ∧ (atomicNew 7 n old v).1 = max old v ∧ (atomicNew 8 n old v).1 = v ∧ ∀ j ≤ 8, (atomicNew j n old v).2 = 0 := by
  intro sg
  have ho : signed old n = sg old := signed_of_lt hn hold
  have hw : signed v n = sg v := signed_of_lt hn hv
  have smin : (atomicNew 4 n old v).1 = if sg old ≤ sg v then old else v := by
    show (if signed v n < signed old n then v else old) = _
    rw [ho, hw, ← ite_not]
    simp only [Int.not_lt]
  have smax : (atomicNew 5 n old v).1 = if sg old ≤ sg v then v else old := by
    show (if signed old n < signed v n then v else old) = _
    rw [ho, hw]
    rcases Int.lt_trichotomy (sg old) (sg v) with h | h | h
    · rw [if_pos h, if_pos (Int.le_of_lt h)]
    · have same : old = v := signed_inj hn hold hv (by rw [ho, hw, h])
      simp [same]
    · rw [if_neg (Int.not_lt.mpr (Int.le_of_lt h)), if_neg (Int.not_le.mpr h)]
  refine ⟨rfl, rfl, rfl, rfl, smin, smax, rfl, rfl, rfl, fun j hj => ?_⟩
  match j with
  | 0 | 1 | 2 | 3 | 4 | 5 | 6 | 7 | 8 => rfl
  | j + 9 => omega

/-! ### The claims -/

theorem performedLoadsAndStores : Sys2Proof.Claim.PerformedLoadsAndStores := by
  intro s k id e a p key hs hfind hmay hkind hp hplace
  obtain ⟨hwf, -⟩ := hs
  have performs := exec_accessPerform hfind hmay hkind hp hplace
  refine ⟨?_, ?_⟩
  · intro l hop hbad
    rw [performs, performAt_bad (by rw [hop]; rfl) hbad]
  · rintro (⟨hop, hbad⟩ | hop)
    · have hover := accessOver_load (k := k) (id := id) hp hop hbad
      refine ⟨_, performs, hover.pend, hover.hostMem, fun _ => ⟨hover.mem, hover.results, fun hfwd => coreRead_of_no_fwd hfwd _ _⟩, ?_⟩
      rw [hop]
      exact fun h => MemOp.noConfusion h
    · obtain ⟨x, v, f, hover, whole⟩ := accessOver_store (s := s) (k := k) (id := id) (key := key) hp hop
      refine ⟨_, performs, hover.pend, hover.hostMem, ?_, fun _ hbit hbits y => ?_⟩
      · rw [hop]
        exact fun h => MemOp.noConfusion h
      · have hx := whole hbit hbits
        rw [hover.mem]
        split
        · next hy =>
          rw [memGet_memWrite_in _ _ _ _ _ hwf hy, hx, hbits]
          exact byte_of_mod _ _ _ (by omega)
        · exact memGet_memWrite_out _ _ _ _ _ hwf (by omega)

theorem performedAtomics : Sys2Proof.Claim.PerformedAtomics := by
  refine ⟨?_, atomicNew_rows⟩
  intro s k id e a p key hs hfind hmay hkind hp hplace hbit hbits hlo hbad old v
  obtain ⟨hwf, -⟩ := hs
  have performs := exec_accessPerform hfind hmay hkind hp hplace
  have hdata : (pieceData a p).toNat % 2 ^ (8 * p.bytes) = v := by simp only [pieceData, hlo, v, BitVec.ushiftRight_zero]
  have hpow : 256 ^ p.bytes = 2 ^ (8 * p.bytes) := by rw [Nat.pow_mul]
  refine ⟨_, performs, fun j hop => ?_, fun cmp hop => ?_⟩
  · have hover := accessOver_atom (k := k) (id := id) hp hbit hbits hbad hop
    rw [hdata] at hover
    refine ⟨?_, ?_, fun x hx => ?_⟩
    · rw [hover.mem, memRead_memWrite _ _ _ _ hwf, hpow]
    · have results := hover.results
      rwa [hlo, Nat.pow_zero, Nat.mul_one] at results
    · rw [hover.mem]
      exact memGet_memWrite_out _ _ _ _ _ hwf (by omega)
  · have hover := accessOver_cas (k := k) (id := id) hp hbit hbits hbad hop
    rw [hdata] at hover
    refine ⟨?_, ?_, fun x hx => ?_⟩
    · rw [hover.mem]
      split
      · rw [memRead_memWrite _ _ _ _ hwf, hpow, Nat.mod_eq_of_lt (Nat.mod_lt _ (Nat.two_pow_pos _))]
      · rfl
    · have results := hover.results
      rwa [hlo, Nat.pow_zero, Nat.mul_one] at results
    · rw [hover.mem]
      split
      · exact memGet_memWrite_out _ _ _ _ _ hwf (by omega)
      · rfl

/-- Settles O22: an access that performs is over with its result, and memory is what its one write makes of it. -/
theorem performedAccesses : Obligations.PerformedAccesses := ⟨performedLoadsAndStores, performedAtomics⟩

end Sys2Proof.Proofs.PerformedAccesses
end

section
/-! PROOFS. Access order: what holds an access back, as the rules that can do so, and what a release, a drain and the accesses
after them wait for (R49, R102 to R104, R116 to R119, R122, R123, R127, R252, R255, R420, R421). -/
namespace Sys2Proof.Proofs.AccessOrder
open Sys2Proof.Machine

/-! ### The pending list -/

theorem pendBefore_append {l r : List Pend} {p : Pend} (h : ∀ z ∈ l, z.id ≠ p.id) : pendBefore (l ++ p :: r) p.id = l := by
  rw [pendBefore, List.takeWhile_append_of_pos fun z hz => by simpa using h z hz]
  simp

theorem find?_append {l r : List Pend} {p : Pend} (h : ∀ z ∈ l, z.id ≠ p.id) : (l ++ p :: r).find? (·.id == p.id) = some p := by
  have none_before : l.find? (·.id == p.id) = none := List.find?_eq_none.mpr fun z hz => by simpa using h z hz
  simp [List.find?_append, none_before]

/-- An entry that may not perform after those before it changes nothing when its turn comes. -/
theorem exec_accessPerform_waits {s : State} {k : Nat} {l r : List Pend} {p : Pend} (hpend : (s.ctx k).pend = l ++ p :: r)
    (hid : ∀ z ∈ l, z.id ≠ p.id) (hmay : ¬ mayPerform s k l p = true) : exec (.accessPerform k p.id) s = .next s := by
  show Host.Outcome.next (perform s k p.id) = _
  simp [perform, hpend, find?_append hid, pendBefore_append hid, hmay]

theorem mem_accessesOf {l : List Pend} {e : Pend} {x : Access} (he : e ∈ l) (hx : e.kind = .access x) :
    (e.bundle, x) ∈ accessesOf l := List.mem_filterMap.mpr ⟨e, he, by rw [hx]⟩

/-! ### What holds an access back -/

/-- An earlier access `e` of bundle `b`, still to perform at core scope, holds back the piece `q` of `a` of bundle `b'`: the
rules that can do so. -/
inductive Held (core : Nat) (earlier : List Pend) (b : Nat) (e : Access) (b' : Nat) (a : Access) (q : Piece) : Prop
  /-- Within a bundle a write and a walk of nodes come in slot order (R102). -/
  | sameBundle (hb : b = b') (ha : opWrites a.op = true ∨ walksNodes a.op = true)
  /-- Accesses that may meet, one of them a write (R49). -/
  | meets (hw : opWrites e.op = true ∨ opWrites a.op = true) (hm : mayMeet earlier e a q = true ∨ sameVault e a q = true)
      (hb : b ≠ b' ∨ opWrites a.op = true)
  /-- Reads of one byte (R117). -/
  | sameByte (hb : b ≠ b') (he : opReads e.op = true) (ha : opReads a.op = true) (hq : q.place.kind ≠ 7) (p : Piece)
      (hp : p ∈ e.pieces) (hpk : p.place.kind ≠ 7) (hpq : p.overlap q = true)
  /-- Accesses of the own column's scratchpad (R104). -/
  | bothLocal (hb : b ≠ b') (p : Piece) (hp : p ∈ e.pieces) (hpl : ownLocal core p = true) (hql : ownLocal core q = true)
  /-- Strong stores (R118). -/
  | strongStores (he : opWrites e.op = true) (ha : opWrites a.op = true) (hs : strongHolds e a q = true)
  /-- Writes to the own column (R119). -/
  | columnStores (he : opWrites e.op = true) (ha : opWrites a.op = true) (p : Piece) (hp : p ∈ e.pieces)
      (hpc : ownColumn core p = true) (hqc : ownColumn core q = true)
  /-- What stays on the device follows an acquire (R123, R127). -/
  | acquired (hb : b ≠ b') (he : e.acquire = true) (hoff : e.off = false) (hq : offDevice q = false)

section
variable {core : Nat} {earlier : List Pend} {b b' : Nat} {e a : Access} {q : Piece}

/-- Nothing but these rules holds an access back. -/
theorem held_of_holdsBack (h : holdsBack core earlier b e b' a q = true) : Held core earlier b e b' a q := by
  simp only [holdsBack, Bool.or_eq_true, Bool.and_eq_true, beq_iff_eq, bne_iff_ne, List.any_eq_true,
    Bool.not_eq_true'] at h
  rcases h with (((((⟨⟨hb, ha⟩, -⟩ | ⟨⟨⟨hw, -⟩, hm⟩, hb⟩) | ⟨⟨⟨⟨hb, he⟩, ha⟩, hq⟩, p, hp, hpk, hpq⟩) | ⟨⟨hb, p, hp, hpl⟩, hql⟩)
    | ⟨⟨he, ha⟩, hs⟩) | ⟨⟨⟨⟨he, ha⟩, -⟩, p, hp, hpc⟩, hqc⟩) | ⟨⟨⟨hb, he⟩, hoff⟩, hq⟩
  · exact .sameBundle hb ha
  · exact .meets hw hm hb
  · exact .sameByte hb he ha hq p hp hpk hpq
  · exact .bothLocal hb p hp hpl hql
  · exact .strongStores he ha hs
  · exact .columnStores he ha p hp hpc hqc
  · exact .acquired hb he hoff hq

/-- Each of them does, until the earlier one has performed at core scope (R116). -/
theorem Held.holdsBack (hcore : e.atCore = false) (h : Held core earlier b e b' a q) :
    holdsBack core earlier b e b' a q = true := by
  simp only [Machine.holdsBack, hcore, Bool.false_and, Bool.not_false, Bool.and_true, Bool.or_eq_true, Bool.and_eq_true,
    beq_iff_eq, bne_iff_ne, List.any_eq_true, Bool.not_eq_true']
  cases h with
  | sameBundle hb ha => simp [hb, ha]
  | meets hw hm hb => simp [hw, hm, hb]
  | sameByte hb he ha hq p hp hpk hpq => exact .inl (.inl (.inl (.inl (.inr ⟨⟨⟨⟨hb, he⟩, ha⟩, hq⟩, p, hp, hpk, hpq⟩))))
  | bothLocal hb p hp hpl hql => exact .inl (.inl (.inl (.inr ⟨⟨hb, p, hp, hpl⟩, hql⟩)))
  | strongStores he ha hs => simp [he, ha, hs]
  | columnStores he ha p hp hpc hqc => exact .inl (.inr ⟨⟨⟨he, ha⟩, p, hp, hpc⟩, hqc⟩)
  | acquired hb he hoff hq => simp [hb, he, hoff, hq]

/-- Without views the bytes alone decide whether two accesses may meet. -/
theorem mayMeet_of_no_view (he : e.foot = none) (ha : a.foot = none) :
    mayMeet earlier e a q = e.pieces.any fun p => p.overlap q := by
  simp only [mayMeet, he, ha]

theorem sameVault_eq_false (he : walksNodes e.op = false) (ha : walksNodes a.op = false) : sameVault e a q = false := by
  simp [sameVault, he, ha]

theorem ownColumn_of_ownLocal (h : ownLocal core q = true) : ownColumn core q = true := by
  obtain ⟨hk, hc⟩ := (Bool.and_eq_true _ _).mp h
  rw [ownColumn, if_pos hk, hc]

/-- Two strong stores keep their order, where the later one reaches its place of memory. -/
theorem strongHolds_mem {key : Nat} (he : e.strong ≠ none) (ha : a.strong ≠ none) (hoff : e.off = false)
    (hq : q.place = .mem key) : strongHolds e a q = true := by
  have stays : offDevice q = false := by
    simp only [offDevice, hq, Place.kind]
    split
    · rfl
    · split <;> rfl
  have no_cross : crosses a q = false := by simp [crosses, hq]
  simp [strongHolds, Option.isSome_iff_ne_none, he, ha, hoff, stays, no_cross]

end

section
variable {s : State} {k : Nat} {l : List Pend} {e p : Pend} {x a : Access} {q : Piece} {rest : List Piece}

theorem mayPerform_access (hp : p.kind = .access a) (hq : a.pieces = q :: rest) :
    mayPerform s k l p = pieceMay s k p.id l p.bundle a q := by
  simp only [mayPerform, hp, hq]

theorem not_mayPerform_of_holdsBack (he : e ∈ l) (hx : e.kind = .access x) (hp : p.kind = .access a) (hq : a.pieces = q :: rest)
    (h : holdsBack (k / 4) l e.bundle x p.bundle a q = true) : ¬ mayPerform s k l p = true := by
  rw [mayPerform_access hp hq]
  intro hmay
  simp only [pieceMay, Bool.and_eq_true, List.all_eq_true] at hmay
  obtain ⟨⟨free, -⟩, -⟩ := hmay
  simpa [h] using free _ (mem_accessesOf he hx)

theorem not_mayPerform_of_eventsLet (hp : p.kind = .access a) (hq : a.pieces = q :: rest)
    (h : eventsLet l p.bundle a q = false) : ¬ mayPerform s k l p = true := by
  simp [mayPerform_access hp hq, pieceMay, h]

end

/-! ### Releases and drains -/

/-- An access that has not performed at the scope is not covered: one of the device always, any where `off` is set. -/
theorem coveredDone_eq_false {l : List Pend} {e : Pend} {x : Access} {scope : Nat} {off : Bool} (he : e ∈ l)
    (hx : e.kind = .access x) (hoff : off = true ∨ x.off = false) (hscope : scope ≠ 0 ∨ x.atCore = false) :
    coveredDone l scope off = false := by
  have uncovered : ((!off && x.off) || (scope == 0 && x.atCore)) = false := by
    rcases hoff with hoff | hoff <;> rcases hscope with hscope | hscope <;> simp [hoff, hscope]
  exact List.all_eq_false.mpr ⟨_, mem_accessesOf he hx, by simp [uncovered]⟩

section
variable {s : State} {k : Nat} {l : List Pend} {p : Pend} {scope : Nat}

theorem coveredDone_of_drain (hp : p.kind = .drain scope) (hmay : mayPerform s k l p = true) :
    coveredDone l scope (scope == 3) = true := by
  simpa only [mayPerform, hp] using hmay

/-- A release, other than a drop that does not count, covers what precedes it; a retire at sys what leaves the device, too. -/
theorem coveredDone_of_release {r : Release} (hp : p.kind = .release scope r)
    (hr : ∀ n slot, r = .signal n slot true → (s.phaser n slot).dropCounts (k / 4) (k % 4) = true)
    (hmay : mayPerform s k l p = true) :
    ∃ off, (∀ entry, r = .view entry → off = (scope == 3)) ∧ coveredDone l scope off = true := by
  simp only [mayPerform, hp, Bool.and_eq_true, Bool.or_eq_true] at hmay
  obtain ⟨free | done, -⟩ := hmay
  · split at free
    · next n slot => simp [hr n slot rfl] at free
    · cases free
  · exact ⟨_, by rintro entry rfl; rfl, done⟩

end

/-- An event that does not let a later access perform holds it back. -/
theorem eventsLet_eq_false {l : List Pend} {b : Nat} {a : Access} {q : Piece} {e : Pend} (he : e ∈ l) (hb : e.bundle ≠ b)
    (h : (offDevice q = false ∧ ((∃ sc, e.kind = .drain sc) ∨ (∃ sc, e.kind = .acquire sc)
        ∨ ((∃ sc r, e.kind = .release sc r) ∧ opWrites a.op = true)))
      ∨ e.kind = .drain 3 ∨ ∃ sc n slot, e.kind = .release sc (.signal n slot true)) : eventsLet l b a q = false := by
  refine List.all_eq_false.mpr ⟨e, he, ?_⟩
  rcases h with ⟨hq, ⟨sc, hk⟩ | ⟨sc, hk⟩ | ⟨⟨sc, r, hk⟩, ha⟩⟩ | hk | ⟨sc, n, slot, hk⟩
  · simp [hk, hb, hq]
  · simp [hk, hb, hq]
  · cases r with
    | signal n slot drop => cases drop <;> simp [hk, hb, hq, ha]
    | _ => simp [hk, hq, ha]
  · simp [hk, hb]
  · simp [hk, hb]

/-! ### The claims -/

theorem earlierAccessesHoldBack : Sys2Proof.Claim.EarlierAccessesHoldBack := by
  intro s k before mid after e p x a q rest hpend hid hx hp hq hcore core h
  refine exec_accessPerform_waits hpend hid (not_mayPerform_of_holdsBack (by simp) hx hp hq (Held.holdsBack hcore ?_))
  rcases h with ⟨hb, ha⟩ | ⟨hb, hw, hxv, hav, hy⟩ | ⟨hb, hql, y, hy, hyl⟩ | ⟨hxw, haw, hqc, y, hy, hyc⟩
    | ⟨hxw, haw, hxs, has, hoff, key, hkey⟩ | ⟨hb, hacq, hoff, hq⟩
  · exact .sameBundle hb ha
  · refine .meets hw (.inl ?_) (.inl hb)
    rw [mayMeet_of_no_view hxv hav]
    exact List.any_eq_true.mpr hy
  · exact .bothLocal hb y hy hyl hql
  · exact .columnStores hxw haw y hy hyc hqc
  · exact .strongStores hxw haw (strongHolds_mem hxs has hoff hkey)
  · exact .acquired hb hacq hoff hq

theorem releasesAndDrainsWait : Sys2Proof.Claim.ReleasesAndDrainsWait := by
  intro s k before mid after e p hpend hid
  have he : e ∈ before ++ e :: mid := by simp
  refine ⟨fun x scope hx hoff hscope hkind => ?_, fun x hx hkind => ?_, fun a q rest hp hq hb hev => ?_⟩
  · refine exec_accessPerform_waits hpend hid fun hmay => ?_
    have waits : ∀ off, coveredDone (before ++ e :: mid) scope off = false :=
      fun off => coveredDone_eq_false he hx (.inr hoff) hscope
    rcases hkind with hp | ⟨r, hp, hr⟩
    · simpa [waits] using coveredDone_of_drain hp hmay
    · obtain ⟨off, -, done⟩ := coveredDone_of_release hp hr hmay
      simp [waits] at done
  · refine exec_accessPerform_waits hpend hid fun hmay => ?_
    have waits : coveredDone (before ++ e :: mid) 3 true = false := coveredDone_eq_false he hx (.inl rfl) (.inl (by decide))
    rcases hkind with hp | ⟨entry, hp⟩
    · exact absurd (coveredDone_of_drain hp hmay) (by simp [waits])
    · obtain ⟨off, hoff, done⟩ := coveredDone_of_release hp (fun n slot h => by cases h) hmay
      rw [hoff entry rfl] at done
      exact absurd done (by simp [waits])
  · exact exec_accessPerform_waits hpend hid (not_mayPerform_of_eventsLet hp hq (eventsLet_eq_false he hb hev))

theorem otherAccessesMayPass : Sys2Proof.Claim.OtherAccessesMayPass := by
  intro s k hfwd
  have lets : ∀ id a q, fwdLets s k id a q = true := fun id a q => by simp [fwdLets, hfwd]
  refine ⟨fun p => ?_, fun e p x a q rest hx hp hq hb hacq hstrong hxv hav hxn han hpieces => ?_⟩
  · cases hk : p.kind with
    | access a =>
      cases hq : a.pieces with
      | nil => simp only [mayPerform, hk, hq]
      | cons q rest =>
        rw [mayPerform_access hk hq, pieceMay, lets]
        rfl
    | release scope r => simp [mayPerform, hk, coveredDone, accessesOf]
    | drain scope => simp [mayPerform, hk, coveredDone, accessesOf]
    | acquire scope => simp [mayPerform, hk, accessesOf]
  · have free : ¬ Held (k / 4) [e] e.bundle x p.bundle a q := by
      intro h
      cases h with
      | sameBundle hb' => exact hb hb'
      | meets _ hm =>
        rw [mayMeet_of_no_view hxv hav, sameVault_eq_false hxn han, List.any_eq_true] at hm
        obtain ⟨y, hy, hyq⟩ | hm := hm
        · simp [(hpieces y hy).1] at hyq
        · cases hm
      | sameByte _ _ _ _ y hy _ hyq => simp [(hpieces y hy).1] at hyq
      | bothLocal _ y hy hyl => simpa [(hpieces y hy).2] using ownColumn_of_ownLocal hyl
      | strongStores _ _ hs => rcases hstrong with h | h <;> simp [strongHolds, h] at hs
      | columnStores _ _ y hy hyc => simp [(hpieces y hy).2] at hyc
      | acquired _ hacq' => simp [hacq] at hacq'
    have passes : holdsBack (k / 4) [e] e.bundle x p.bundle a q = false := Bool.eq_false_iff.mpr fun h => free (held_of_holdsBack h)
    simp [mayPerform_access hp hq, pieceMay, lets, accessesOf, eventsLet, hx, passes]

/-- Settles O23: an earlier entry holds a later one back by the rules of the order, and by nothing else. -/
theorem accessOrder : Obligations.AccessOrder := ⟨earlierAccessesHoldBack, releasesAndDrainsWait, otherAccessesMayPass⟩

end Sys2Proof.Proofs.AccessOrder
end

section
/-! PROOFS. Tables and conversions: a whole word put into the register window, the engines that a micro-program write reaches,
and the bytes, lines and tiles that a conversion of a SPLIT clears (R34, R35, R62, R132, R305). -/
namespace Sys2Proof.Proofs.TablesAndConversions
open Sys2Proof.Machine

/-! ### Words of the register window -/

/-- Words at aligned places of one window have keys of their own. -/
theorem mmioKey_ne {die o off : Nat} (ho : o % 8 = 0) (hoff : off % 8 = 0) (h : o ≠ off) : mmioKey die o ≠ mmioKey die off := by
  simp only [mmioKey]
  omega

section
variable {s : State} (die off : Nat) (v : W64)

theorem mmioWord_setMmio (h : Tbl.rising s.mmio) : (s.setMmio die off v).mmioWord die off = v := by
  simp only [State.mmioWord, State.setMmio]
  split
  · next reset =>
    rw [tget_terase_self _ _ h]
    exact (beq_iff_eq.mp reset).symm
  · rw [tget_tset_self]
    rfl

theorem mmioWord_setMmio_ne (h : Tbl.rising s.mmio) {o : Nat} (hkey : mmioKey die o ≠ mmioKey die off) :
    (s.setMmio die off v).mmioWord die o = s.mmioWord die o := by
  simp only [State.mmioWord, State.setMmio]
  split
  · rw [tget_terase_ne _ h hkey]
  · rw [tget_tset_ne _ _ hkey]

end

/-- Places of the tables and of the micro-program stores: words that a write of 8 bytes sets whole. -/
def IsWhole (off : Nat) : Prop := isTable off = true ∨ (0x1000000 ≤ off ∧ off < 0x1800000)

theorem isTable_iff (off : Nat) : isTable off = true ↔ (0x100000 ≤ off ∧ off < 0x120000) ∨ (0x200000 ≤ off ∧ off < 0x280000) := by
  simp [isTable]

theorem mmioMerge_whole {off : Nat} (h : IsWhole off) (h8 : off % 8 = 0) (old v : W64) : mmioMerge old off 8 v = v := by
  have range : (0x100000 ≤ off ∧ off < 0x120000) ∨ (0x200000 ≤ off ∧ off < 0x280000) ∨ (0x1000000 ≤ off ∧ off < 0x1800000) := by
    rwa [IsWhole, isTable_iff, or_assoc] at h
  have word : off / 8 * 8 = off := by omega
  have full : BitVec.ofNat 64 0xFFFFFFFFFFFFFFFF = BitVec.allOnes 64 := rfl
  have masks : mmioMasks off = (BitVec.allOnes 64, 0) := by
    simp only [mmioMasks, beq_iff_eq, Bool.and_eq_true, decide_eq_true_eq, full]
    rcases range with range | range | range <;> simp (disch := omega) only [if_neg, if_pos]
  have clamp : ∀ w, mmioClamp off w = w := fun w => by
    simp only [mmioClamp, beq_iff_eq, Bool.and_eq_true, decide_eq_true_eq]
    rw [if_neg (by omega), if_neg (by omega), if_neg (by omega), if_neg (by omega)]
  simp only [mmioMerge, word, masks, clamp, beq_self_eq_true, if_true, BitVec.and_self, BitVec.not_allOnes, BitVec.and_zero,
    BitVec.zero_or, BitVec.and_allOnes, BitVec.not_zero, BitVec.ofNat_eq_ofNat]

theorem mmioPut_whole {off : Nat} (h : IsWhole off) (h8 : off % 8 = 0) (s : State) (die : Nat) (v : W64) :
    s.mmioPut die off 8 v = s.setMmio die off v := by
  rw [State.mmioPut, mmioMerge_whole h h8]

/-! ### Table writes and micro-program writes -/

theorem exec_tableWrite {s : State} (hs : s.devReady = true) {off : Nat} (ht : isTable off = true) (h8 : off % 8 = 0) (die : Nat)
    (v : W64) : exec (.tableWrite die off 8 v) s =
      .next ({ s with tableWrites := s.tableWrites.erase (off, 8, v) }.setMmio 0 off v) := by
  show Host.Outcome.next (written s (isTable off) (applyTable s off 8 v)) = _
  rw [written, hs, ht, applyTable, mmioPut_whole (.inl ht) h8]
  rfl

/-- A word of the store of an engine is a word of that engine alone. -/
theorem mprogTargets_store {i w : Nat} (hi : i < 128) (hw : w < 4096) :
    mprogTargets (0x1000000 + 0x8000 * i + 8 * w) = [(i, 0x1000000 + 0x8000 * i + 8 * w)] := by
  have engine : (0x1000000 + 0x8000 * i + 8 * w - 0x1000000) / 0x8000 = i := by omega
  simp only [mprogTargets, Bool.and_eq_true, decide_eq_true_eq]
  rw [if_pos (by omega), engine]

theorem exec_mprogWrite {s : State} (hs : s.devReady = true) {die i w : Nat} (hdie : die < 4) (hi : i < 128) (hw : w < 4096)
    (v : W64) :
    let x := s.engine (die * 128 + i)
    let off := 0x1000000 + 0x8000 * i + 8 * w
    exec (.mprogWrite die off v) s = .next (if x.queue = [] ∧ x.writes = [] then s.setMmio die off v
      else s.setEngine (die * 128 + i) { x with writes := x.writes ++ [(off, 8, v)] }) := by
  intro x off
  have h8 : off % 8 = 0 := by omega
  have whole : IsWhole off := .inr (by omega)
  show Host.Outcome.next (written s (die < 4 && off % 8 == 0) (writeMprog s die off 8 v)) = _
  rw [written, writeMprog, mprogTargets_store hi hw]
  simp only [hs, hdie, h8, List.foldl_cons, List.foldl_nil, mmioPut_whole whole h8, List.isEmpty_iff, Bool.and_eq_true, decide_true,
    beq_self_eq_true, Bool.and_self, if_true, x, off]

/-! ### Conversions -/

/-- The monitors that a conversion wakes are all that its wakes change. -/
theorem conversionWakes_eq (s : State) (core : Nat) : ∃ ctxs, conversionWakes s core = { s with ctxs := ctxs } := by
  have wakes : ∀ (ls : List Nat) (s : State), ∃ ctxs, ls.foldl (fun s l => wakeMonitors s l 2) s = { s with ctxs := ctxs } := by
    intro ls
    induction ls with
    | nil => exact fun s => ⟨s.ctxs, rfl⟩
    | cons l ls ih =>
      intro s
      obtain ⟨ctxs, h⟩ := ih (wakeMonitors s l 2)
      exact ⟨ctxs, h⟩
  exact wakes _ s

/-- A smaller L2 drops tags of its own and marks lines of the LLC, no more. -/
theorem shrinkL2_eq (s : State) (core ways : Nat) : ∃ l2 llc, shrinkL2 s core ways = { s with l2 := l2, llc := llc } := by
  have marks : ∀ (ls : List L2Line) (s : State), ∃ llc, ls.foldl (fun s l => llcDirty s l.line) s = { s with llc := llc } := by
    intro ls
    induction ls with
    | nil => exact fun s => ⟨s.llc, rfl⟩
    | cons l ls ih =>
      intro s
      obtain ⟨llc, h⟩ := ih (llcDirty s l.line)
      exact ⟨llc, h⟩
  obtain ⟨llc, h⟩ := marks _ { s with l2 := _ }
  exact ⟨_, llc, h⟩

/-- A conversion that takes place: the bytes, lines and tiles that it clears, the new SPLIT, and beside them monitors and tags. -/
theorem convertSplit_eq {s : State} {core new : Nat} (hnew : new ≠ s.split core) (h12 : new ≤ 12)
    (hreq : splitRequest s core = some new) (hquiet : columnQuiet s core = true) :
    ∃ ctxs l2 llc, convertSplit s core new = { s with
      ctxs := ctxs
      l2 := l2
      llc := llc
      mem := s.mem.filter fun c => !inWays core (12 - max (s.split core) new) (12 - min (s.split core) new) c.1
      emptyLines := s.emptyLines.filter fun l => !(Place.mem (l * 128)).inColumn core
      engineTiles := s.engineTiles.filter fun t => !(Place.mem (t * 4096)).inColumn core
      splits := if new == 0 then terase s.splits core else tset s.splits core new } := by
  obtain ⟨ctxs, hwakes⟩ := conversionWakes_eq s core
  obtain ⟨l2, llc, hshrink⟩ := shrinkL2_eq { s with ctxs := ctxs } core new
  have enabled : (splitRequest s core != some new || !columnQuiet s core || new == s.split core || decide (12 < new)) = false := by
    simp [hreq, hquiet, hnew, h12]
  unfold convertSplit
  simp only [enabled, Bool.false_eq_true, if_false, hwakes, hshrink]
  split
  · exact ⟨ctxs, l2, llc, rfl⟩
  · exact ⟨ctxs, s.l2, s.llc, rfl⟩

/-- A table without the keys that a test leaves out. -/
theorem tget_filter {α : Type} (keep : Nat → Bool) (a : Nat) {t : Tbl α} (h : t.rising) :
    tget (t.filter fun c => keep c.1) a = if keep a then tget t a else none := by
  induction t with
  | nil => simp [tget]
  | cons x r ih =>
    obtain ⟨hx, hr⟩ := List.pairwise_cons.mp h
    rcases Nat.lt_trichotomy x.1 a with hlt | heq | hgt
    · have later : ∀ u : Tbl α, tget (x :: u) a = tget u a := fun u => by
        simp only [tget, beq_iff_eq, Nat.ne_of_lt hlt, Nat.lt_asymm hlt, if_false]
      rw [List.filter_cons, later, ← ih hr]
      split
      · exact later _
      · rfl
    · subst heq
      rw [List.filter_cons]
      split
      · simp [tget]
      · exact tget_none_of_lt _ _ fun y hy => hx y (List.mem_filter.mp hy).1
    · have above : ∀ y ∈ x :: r, a < y.1 := fun y hy => by
        rcases List.mem_cons.mp hy with rfl | hy
        · exact hgt
        · exact Nat.lt_trans hgt (hx y hy)
      rw [tget_none_of_lt _ _ fun y hy => above y (List.mem_filter.mp hy).1, tget_none_of_lt _ _ above, ite_self]

/-- The bytes of the ways that change read 0, and every other byte reads as before. -/
theorem memGet_filter_inWays {m : List Host.Cell} (h : Memory.wf m = true) (core lo hi a : Nat) :
    memGet (m.filter fun c => !inWays core lo hi c.1) a = if inWays core lo hi a then 0 else memGet m a := by
  rw [memGet, tget_filter (fun x => !inWays core lo hi x) a (wf_rising m h)]
  cases inWays core lo hi a <;> rfl

theorem inWays_iff (core lo hi a : Nat) : inWays core lo hi a = true ↔
    isSp a = true ∧ spCore a = core ∧ lo * 2 ^ 18 ≤ spOff a ∧ spOff a < hi * 2 ^ 18 := by
  simp [inWays, and_assoc]

/-- A line or a tile lies in the column of each of its bytes. -/
theorem inColumn_block {a n : Nat} (ha : isSp a = true) (hn : n = 128 ∨ n = 4096) :
    (Place.mem (a / n * n)).inColumn (spCore a) = true := by
  simp only [isSp, decide_eq_true_eq] at ha
  simp only [Place.inColumn, isSp, spCore, Bool.and_eq_true, decide_eq_true_eq, beq_iff_eq]
  rcases hn with rfl | rfl <;> omega

section
variable {s : State} (core new : Nat)

theorem split_converted (h : Tbl.rising s.splits) :
    State.split { s with splits := if new == 0 then terase s.splits core else tset s.splits core new } core = new := by
  simp only [State.split]
  split
  · next zero =>
    rw [tget_terase_self _ _ h]
    exact (beq_iff_eq.mp zero).symm
  · rw [tget_tset_self]
    rfl

theorem split_converted_ne (h : Tbl.rising s.splits) {n : Nat} (hn : n ≠ core) :
    State.split { s with splits := if new == 0 then terase s.splits core else tset s.splits core new } n = s.split n := by
  simp only [State.split]
  split
  · rw [tget_terase_ne _ h hn]
  · rw [tget_tset_ne _ _ hn]

end

/-- Settles O48: a whole word is stored under its own key, and a conversion filters memory, lines and tiles. -/
theorem tablesAndConversions : Obligations.TablesAndConversions := by
  rintro s ⟨hmem, -, hmmio, hsplits, -⟩
  refine ⟨fun die off v hs ht h8 => ?_, fun die i w v hs hdie hi hw => ⟨fun hq hx => ?_, fun hbusy => ?_⟩,
    fun core new hnew h12 hreq hquiet => ?_⟩
  · exact ⟨_, exec_tableWrite hs ht h8 die v, mmioWord_setMmio 0 off v hmmio, rfl,
      fun o ho hne _ => mmioWord_setMmio_ne 0 off v hmmio (mmioKey_ne ho h8 hne), rfl⟩
  · refine ⟨_, exec_mprogWrite hs hdie hi hw v, ?_⟩
    rw [if_pos ⟨hq, hx⟩]
    exact ⟨mmioWord_setMmio die _ v hmmio, fun o ho hne _ => mmioWord_setMmio_ne die _ v hmmio (mmioKey_ne ho (by omega) hne), rfl⟩
  · rw [exec_mprogWrite hs hdie hi hw v, if_neg fun ⟨hq, hx⟩ => hbusy.elim (· hq) (· hx)]
  · obtain ⟨ctxs, l2, llc, hconv⟩ := convertSplit_eq hnew h12 hreq hquiet
    refine ⟨_, congrArg Host.Outcome.next hconv, split_converted core new hsplits,
      fun n hn => split_converted_ne core new hsplits hn, fun a => ⟨fun hout => ?_, fun hin => ?_, fun hsp hcore => ⟨?_, ?_⟩⟩, rfl, rfl⟩
    · rw [memGet_filter_inWays hmem, if_pos ((inWays_iff _ _ _ a).mpr hout)]
    · rw [memGet_filter_inWays hmem, if_neg (mt (inWays_iff _ _ _ a).mp hin)]
    · simp [← hcore, inColumn_block hsp (.inl rfl)]
    · simp [← hcore, inColumn_block hsp (.inr rfl)]

end Sys2Proof.Proofs.TablesAndConversions
end

section
/-! PROOFS. Time, power and heat: fields of a register, the flits in which a port's egress leaves, the clk that pass to a tick
boundary, and what the slew governor and heat make of their registers (R77, R78, R177, R357, R408, R413, R416). -/
namespace Sys2Proof.Proofs.TimePowerHeat
open Sys2Proof.Machine Sys2Proof.Proofs.TablesAndConversions
open Sys2Proof.Proofs.AddressSpaces (fld_eq_bitsFrom)
open Sys2Proof.Proofs.PerformedAccesses (tget_map)

/-! ### Fields of a register -/

section
variable (w : W64) {lo n : Nat} (v : Nat)

theorem getLsbD_setFld (i : Nat) : (setFld w lo n v).getLsbD i =
    if i < 64 ∧ lo ≤ i ∧ i < lo + n then v.testBit (i - lo) else w.getLsbD i := by
  simp only [setFld, BitVec.getLsbD_or, BitVec.getLsbD_and, BitVec.getLsbD_not, BitVec.getLsbD_ofNat, Nat.testBit_shiftLeft,
    Nat.testBit_two_pow_sub_one, Nat.testBit_mod_two_pow]
  by_cases h64 : i < 64
  · by_cases hlo : lo ≤ i
    · by_cases hn : i < lo + n
      · have inside : i - lo < n := by omega
        simp [h64, hlo, hn, inside]
      · have outside : ¬ i - lo < n := by omega
        simp [h64, hlo, hn, outside]
    · simp [h64, hlo]
  · simp [h64, BitVec.getLsbD_of_ge _ i (Nat.le_of_not_lt h64)]

theorem testBit_fld (i : Nat) : (fld w lo n).testBit i = (decide (i < n) && w.getLsbD (lo + i)) := by
  simp [fld, bits, BitVec.getLsbD]

theorem fld_setFld_self (h : lo + n ≤ 64) : fld (setFld w lo n v) lo n = v % 2 ^ n := by
  refine Nat.eq_of_testBit_eq fun i => ?_
  rw [testBit_fld, getLsbD_setFld, Nat.testBit_mod_two_pow]
  by_cases hi : i < n
  · rw [if_pos (by omega), Nat.add_sub_cancel_left]
  · simp [hi]

theorem fld_setFld_ne {lo' m : Nat} (h : lo' + m ≤ lo ∨ lo + n ≤ lo') : fld (setFld w lo n v) lo' m = fld w lo' m := by
  refine Nat.eq_of_testBit_eq fun i => ?_
  rw [testBit_fld, testBit_fld, getLsbD_setFld]
  by_cases hi : i < m
  · rw [if_neg (by omega)]
  · simp [hi]

end

/-! ### Tables and the register window -/

section
variable {α : Type} {t : Tbl α} {x : Nat × α}

theorem tget_cons_of_lt {k : Nat} (h : x.1 < k) : tget (x :: t) k = tget t k := by
  simp only [tget, beq_iff_eq, Nat.ne_of_lt h, Nat.lt_asymm h, if_false]

theorem tget_of_mem (h : t.rising) (hx : x ∈ t) : tget t x.1 = some x.2 := by
  induction t with
  | nil => exact nomatch hx
  | cons y t ih =>
    obtain ⟨hy, ht⟩ := List.pairwise_cons.mp h
    rcases List.mem_cons.mp hx with rfl | hx
    · simp [tget]
    · exact (tget_cons_of_lt (hy x hx)).trans (ih ht hx)

end

theorem rising_tset {α : Type} {t : Tbl α} (h : t.rising) (k : Nat) (v : α) : (tset t k v).rising := by
  induction t with
  | nil => exact List.pairwise_singleton _ _
  | cons x r ih =>
    obtain ⟨hx, hr⟩ := List.pairwise_cons.mp h
    unfold tset
    split
    · next below => exact List.pairwise_cons.mpr ⟨fun y hy => (List.mem_cons.mp hy).elim (fun e => e ▸ below)
        fun hy => Nat.lt_trans below (hx y hy), h⟩
    · next above =>
      split
      · next same =>
        cases beq_iff_eq.mp same
        exact List.pairwise_cons.mpr ⟨hx, hr⟩
      · next other =>
        have ne : x.1 ≠ k := fun e => other (beq_iff_eq.mpr e)
        refine List.pairwise_cons.mpr ⟨fun y hy => ?_, ih hr⟩
        rcases mem_tset r k v y hy with rfl | hy
        · show x.1 < k
          have : ¬ k < x.1 := above
          omega
        · exact hx y hy

theorem rising_terase {α : Type} {t : Tbl α} (h : t.rising) (k : Nat) : (terase t k).rising := by
  induction t with
  | nil => exact h
  | cons x r ih =>
    obtain ⟨hx, hr⟩ := List.pairwise_cons.mp h
    unfold terase
    split
    · exact hr
    · split
      · exact h
      · exact List.pairwise_cons.mpr ⟨fun y hy => hx y (mem_terase r k y hy), ih hr⟩

theorem rising_setMmio {s : State} (h : Tbl.rising s.mmio) (die off : Nat) (v : W64) : Tbl.rising (s.setMmio die off v).mmio := by
  simp only [State.setMmio]
  split
  · exact rising_terase h _
  · exact rising_tset h _ _

/-! ### Flits of an egress -/

theorem packSegments_length_le (n : Nat) (gs : List Segment) : (packSegments n gs).length ≤ n := by
  induction n generalizing gs with
  | zero => exact Nat.le_refl 0
  | succ n ih =>
    cases gs with
    | nil => exact Nat.zero_le _
    | cons g gs => exact Nat.succ_le_succ (ih _)

/-- Every segment goes into a flit, in order. -/
theorem packSegments_flatten {n : Nat} {gs : List Segment} (h : gs.length ≤ n) : (packSegments n gs).flatten = gs := by
  induction n generalizing gs with
  | zero => rw [List.length_eq_zero_iff.mp (Nat.le_zero.mp h)]; rfl
  | succ n ih =>
    cases gs with
    | nil => rfl
    | cons g gs =>
      have mine : (gs.take 8).takeWhile (·.circ == g.circ) <+: gs := (List.takeWhile_prefix _).trans (List.take_prefix 8 gs)
      have rest : (gs.drop ((gs.take 8).takeWhile (·.circ == g.circ)).length).length ≤ n := by
        rw [List.length_cons] at h
        rw [List.length_drop]
        omega
      rw [packSegments, List.flatten_cons, ih rest, List.cons_append]
      exact congrArg (g :: ·) (List.prefix_iff_eq_append.mp mine)

theorem segmentsOf_length (m : Msg) (circ : Bool) : (segmentsOf m circ).length = Config.moreSegments m + 1 := by simp [segmentsOf]

/-- A message has one last segment, which delivers it. -/
theorem segmentsOf_last (m : Msg) (circ : Bool) : ((segmentsOf m circ).filter (·.last)).map (·.msg) = [m] := by
  have early : ((List.range (Config.moreSegments m)).filter fun i => i == Config.moreSegments m) = [] := by
    simp only [List.filter_eq_nil_iff, List.mem_range, beq_iff_eq]
    exact fun i hi => Nat.ne_of_lt hi
  simp [segmentsOf, List.filter_map, Function.comp_def, List.range_succ, early]

/-- A port whose messages may all leave. -/
def released (q : Port) : Port := { q with egress := q.egress.map fun e => (e.1, true, e.2.2) }

theorem may_leave_of_mem_released {q : Port} {e : Msg × Bool × Bool} (h : e ∈ (released q).egress) : e.2.1 = true := by
  obtain ⟨x, -, rfl⟩ := List.mem_map.mp h
  rfl

/-- Every message at a port's egress has left (R408): in flits that are numbered in turn, carry their TAG and are kept. -/
def SentAll (q r : Port) : Prop :=
  r.egress = [] ∧ ∃ flits : List Flit, r.kept = q.kept ++ flits ∧ flits.flatMap (·.msgs) = q.egress.map (·.1)
    ∧ r.sent = q.sent + flits.length ∧ ∀ i (h : i < flits.length), flits[i].fseq = q.sent + i ∧ flits[i].tag = tagOf q.key flits[i]

theorem sentAll_drainEgress (src : Nat) {q : Port} (h : q.fits) : SentAll q (drainEgress src (released q)) := by
  let gs := q.egress.flatMap fun e => segmentsOf e.1 e.2.2
  have all : ((released q).egress.filter (·.2.1)).flatMap (fun e => segmentsOf e.1 e.2.2) = gs := by
    rw [List.filter_eq_self.mpr fun e => may_leave_of_mem_released]
    exact List.flatMap_map _ _ _
  have none_left : ((released q).egress.filter fun e => !e.2.1) = [] :=
    List.filter_eq_nil_iff.mpr fun e he => by
      rw [may_leave_of_mem_released he]
      decide
  have count : gs.length = (q.egress.map fun e => Config.moreSegments e.1 + 1).sum := by
    simp [gs, List.length_flatMap, segmentsOf_length]
  have room : ¬ 2 ^ 64 ≤ (released q).sent + (packSegments gs.length gs).length := by
    have bound := packSegments_length_le gs.length gs
    have fits : q.sent + (q.egress.map fun e => Config.moreSegments e.1 + 1).sum < 2 ^ 64 := h
    have sent : (released q).sent = q.sent := rfl
    omega
  simp only [drainEgress, all, none_left, if_neg room]
  refine ⟨rfl, _, rfl, ?_, by simp [released], fun i hi => ?_⟩
  · have msgs : ∀ l : List (List Segment × Nat), (l.map fun x => flitOf src q.key (q.sent + x.2) x.1).flatMap (·.msgs) =
        ((l.map (·.1)).flatten.filter (·.last)).map (·.msg) := fun l => by
      simp [flitOf, tagFlit, List.filter_flatten, List.map_flatten, List.flatMap_def, Function.comp_def]
    refine (msgs _).trans ?_
    rw [List.zipIdx_map_fst, packSegments_flatten (Nat.le_refl _)]
    simp only [gs, List.filter_flatMap, List.map_flatMap, segmentsOf_last]
    exact List.map_eq_flatMap.symm
  · simp only [List.getElem_map, List.getElem_zipIdx, Nat.zero_add]
    exact ⟨rfl, rfl⟩

/-! ### Ports that drain -/

/-- A port that drains is replaced; where FSEQ would wrap it goes down as well (log 110). -/
theorem drainPort_cases (s : State) (p : Nat) (q : Port) :
    ∃ r, drainPort s p q = s.setPort p r ∨ drainPort s p q = setPortBits (s.setPort p r) p 0 1 0 := by
  unfold drainPort
  split
  · refine ⟨drainEgress s.deviceId q, ?_⟩
    dsimp only
    split
    · exact .inr rfl
    · exact .inl rfl
  · exact ⟨q, .inl rfl⟩

/-- What the replacement of a port keeps, and that port's going down, the release of all egresses keeps. -/
theorem releaseEgress_keeps {P : State → Prop} (port : ∀ s p r, P s → P (s.setPort p r))
    (down : ∀ s p, P s → P (setPortBits s p 0 1 0)) {s : State} (h : P s) : P (releaseEgress s) := by
  refine List.foldlRecOn s.ports _ h fun t ht x _ => ?_
  show P (drainPort t x.1 (released x.2))
  obtain ⟨r, drained | drained⟩ := drainPort_cases t x.1 (released x.2)
  · exact drained ▸ port t x.1 r ht
  · exact drained ▸ down _ x.1 (port t x.1 r ht)

theorem releaseEgress_eq (s : State) : ∃ ports mmio, releaseEgress s = { s with ports := ports, mmio := mmio } := by
  refine releaseEgress_keeps (P := fun t => ∃ ports mmio, t = { s with ports := ports, mmio := mmio }) ?_ ?_ ⟨_, _, rfl⟩
  · rintro _ p r ⟨ports, mmio, rfl⟩
    exact ⟨_, _, rfl⟩
  · rintro _ p ⟨ports, mmio, rfl⟩
    exact ⟨_, _, rfl⟩

theorem releaseEgress_frame (s : State) : { releaseEgress s with ports := s.ports, mmio := s.mmio } = s := by
  obtain ⟨ports, mmio, ht⟩ := releaseEgress_eq s
  rw [ht]

/-- The words below FPORT stay as they are. -/
theorem mmioWord_releaseEgress {s : State} (h : Tbl.rising s.mmio) {off : Nat} (hoff : off < 0x1000) :
    (releaseEgress s).mmioWord 0 off = s.mmioWord 0 off := by
  have kept := releaseEgress_keeps (P := fun t => Tbl.rising t.mmio ∧ t.mmioWord 0 off = s.mmioWord 0 off) (s := s)
    (fun _ _ _ ht => ht) ?_ ⟨h, rfl⟩
  · exact kept.2
  · rintro t p ⟨rising, same⟩
    have key : mmioKey 0 off ≠ mmioKey 0 (0x1000 + 16 * p) := by
      simp only [mmioKey]
      omega
    exact ⟨rising_setMmio rising _ _ _, (mmioWord_setMmio_ne _ _ _ rising key).trans same⟩

/-- A port after its release: it sends all while it is up. -/
def outgoing (s : State) (p : Nat) (q : Port) : Port :=
  if s.portUp p then drainEgress s.deviceId (released q) else released q

theorem drainPort_released (s : State) (p : Nat) {q : Port} (h : q.fits) :
    drainPort s p (released q) = s.setPort p (outgoing s p q) := by
  unfold drainPort outgoing
  split
  · simp [(sentAll_drainEgress s.deviceId h).1]
  · rfl

/-- Ports with room in FSEQ drain one by one into the table of ports, and touch nothing else. -/
theorem foldl_drainPort (s : State) {l : Tbl Port} (h : ∀ x ∈ l, x.2.fits) (ports : Tbl Port) :
    l.foldl (fun s x => drainPort s x.1 (released x.2)) { s with ports := ports } =
      { s with ports := l.foldl (fun t x => tset t x.1 (outgoing s x.1 x.2)) ports } := by
  induction l generalizing ports with
  | nil => rfl
  | cons x l ih =>
    obtain ⟨fits, rest⟩ := List.forall_mem_cons.mp h
    rw [List.foldl_cons, drainPort_released _ x.1 fits]
    exact ih rest _

/-- A table written over by the entries of another. -/
theorem tget_foldl_tset {α : Type} (f : Nat → α → α) {l : Tbl α} (h : l.rising) (t : Tbl α) (p : Nat) :
    tget (l.foldl (fun t x => tset t x.1 (f x.1 x.2)) t) p = (tget l p).elim (tget t p) fun q => some (f p q) := by
  induction l generalizing t with
  | nil => rfl
  | cons x l ih =>
    obtain ⟨hx, hl⟩ := List.pairwise_cons.mp h
    rw [List.foldl_cons, ih hl]
    rcases Nat.lt_trichotomy p x.1 with below | rfl | above
    · rw [tget_none_of_lt l p fun y hy => Nat.lt_trans below (hx y hy), tget_none_of_lt (x :: l) p, Option.elim_none,
        Option.elim_none, tget_tset_ne _ _ (Nat.ne_of_lt below)]
      exact fun y hy => (List.mem_cons.mp hy).elim (fun e => e ▸ below) fun hy => Nat.lt_trans below (hx y hy)
    · rw [tget_none_of_lt l x.1 hx, Option.elim_none, tget_tset_self]
      simp [tget]
    · rw [tget_cons_of_lt above, tget_tset_ne _ _ (Nat.ne_of_gt above)]

theorem port_eq_of_mem {s : State} (h : Tbl.rising s.ports) {x : Nat × Port} (hx : x ∈ s.ports) : s.port x.1 = x.2 := by
  rw [State.port, tget_of_mem h hx]
  rfl

section
variable {s : State} (hports : Tbl.rising s.ports) (hfits : ∀ p, (s.port p).fits)
include hports hfits

theorem releaseEgress_of_fits :
    releaseEgress s = { s with ports := s.ports.foldl (fun t x => tset t x.1 (outgoing s x.1 x.2)) s.ports } :=
  foldl_drainPort s (fun x hx => port_eq_of_mem hports hx ▸ hfits x.1) s.ports

theorem mmio_releaseEgress : (releaseEgress s).mmio = s.mmio := by rw [releaseEgress_of_fits hports hfits]

theorem port_releaseEgress (p : Nat) : (releaseEgress s).port p = outgoing s p (s.port p) := by
  have idle : outgoing s p Port.reset = Port.reset := by
    unfold outgoing
    split <;> rfl
  rw [releaseEgress_of_fits hports hfits, State.port, tget_foldl_tset (outgoing s) hports]
  cases listed : tget s.ports p with
  | none => simp [State.port, listed, idle]
  | some q => simp [State.port, listed]

theorem sentAll_releaseEgress {p : Nat} (up : s.portUp p = true) : SentAll (s.port p) ((releaseEgress s).port p) := by
  rw [port_releaseEgress hports hfits, outgoing, if_pos up]
  exact sentAll_drainEgress _ (hfits p)

/-- A port that is not up keeps its messages (R409). -/
theorem egress_releaseEgress (p : Nat) : ((releaseEgress s).port p).egress.map (·.1) =
    if s.portUp p then [] else (s.port p).egress.map (·.1) := by
  cases up : s.portUp p with
  | true => simp [(sentAll_releaseEgress hports hfits up).1]
  | false => simp [port_releaseEgress hports hfits, outgoing, up, released]

end

/-! ### The clk that pass to a tick boundary -/

/-- The issuing context of a core waits for the view directory (R51). -/
def stalls (s : State) (i : Nat) (c : Core) : Bool :=
  match c.cur.bind fun x => (s.ctx (i * 4 + x)).wait with
  | some (.directory _ _) => true
  | _ => false

/-- A core after some clk (R177). -/
def clocked (s : State) (n i : Nat) (c : Core) : Core :=
  if stalls s i c then { c with viewStall := c.viewStall + BitVec.ofNat 64 n } else c

theorem passClk_eq (s : State) (n : Nat) :
    passClk s n = { s with clk := s.clk + n, cores := s.cores.map fun x => (x.1, clocked s n x.1 x.2) } := rfl

theorem stalls_iff (s : State) (n : Nat) : stalls s n (s.core n) = true ↔ s.viewStalls n := by
  constructor
  · intro h
    unfold stalls at h
    split at h
    · next asked slot waits =>
      obtain ⟨x, hx, hw⟩ := Option.bind_eq_some_iff.mp waits
      exact ⟨x, asked, slot, hx, hw⟩
    · cases h
  · rintro ⟨x, asked, slot, hx, hw⟩
    simp [stalls, hx, hw]

theorem core_passClk (s : State) (n k : Nat) : (passClk s n).core k = clocked s n k (s.core k) := by
  rw [passClk_eq, State.core, tget_map (clocked s n)]
  cases listed : tget s.cores k with
  | none => simp [State.core, listed, clocked, stalls, Core.reset]
  | some c => simp [State.core, listed]

/-- VIEWSTALL counts the clk that pass while the core stalls, and no others (R177). -/
theorem viewStall_passClk (s : State) (n k : Nat) :
    ∃ more : Nat, (passClk s n).core k = { s.core k with viewStall := (s.core k).viewStall + BitVec.ofNat 64 more }
      ∧ (s.viewStalls k → more = n) ∧ (¬ s.viewStalls k → more = 0) := by
  rw [core_passClk, clocked, ← stalls_iff]
  split
  · next waits => exact ⟨n, rfl, fun _ => rfl, fun h => absurd waits h⟩
  · next runs => exact ⟨0, by simp, fun h => absurd h runs, fun _ => rfl⟩

theorem passClk_zero (s : State) : passClk s 0 = s := by
  have same : ∀ x : Nat × Core, (x.1, clocked s 0 x.1 x.2) = x := fun x => by simp [clocked]
  rw [passClk_eq, List.map_congr_left fun x _ => same x, List.map_id']
  rfl

/-- How many clk pass before a tick event takes place: none where a boundary is past already (log 50). -/
def clkToBoundary (s : State) : Nat :=
  if s.ticked < tickNow s then 0 else s.timeClk + (6 * ((tickNow s + 1) * 2000 - s.timeNs) + 4) / 5 - s.clk

/-- The boundary has come, and what is sent at one is due. -/
def boundary (s : State) : State :=
  { passClk s (clkToBoundary s) with
    ticked := tickNow (passClk s (clkToBoundary s))
    agenda := (let jobs := (slotJobs s).filter (wlEn s)
      (Instr.collCheckTick :: .logTickSend :: (jobs.map (fun j => Instr.wlTreeTick j) ++ jobs.map fun j => Instr.wlBalanceTick j)).map
        Turn.event ++ s.agenda) }

/-- A tick event comes to a boundary, and with DET = 1 releases the egresses there (R78). -/
theorem tick_eq (s : State) : tick s = if s.det then releaseEgress (boundary s) else boundary s := by
  have passed : (if s.ticked < tickNow s then s
      else passClk s (s.timeClk + (6 * ((tickNow s + 1) * 2000 - s.timeNs) + 4) / 5 - s.clk)) = passClk s (clkToBoundary s) := by
    unfold clkToBoundary
    split
    · exact (passClk_zero s).symm
    · rfl
  simp only [tick, passed]
  rfl

theorem exec_tickRelease (s : State) : ∃ ports mmio, exec .tickRelease s = .next { boundary s with ports := ports, mmio := mmio }
    ∧ (s.det = false → ports = s.ports ∧ mmio = s.mmio)
    ∧ (s.det = true → { boundary s with ports := ports, mmio := mmio } = releaseEgress (boundary s)) := by
  have hexec : exec .tickRelease s = .next (if s.det then releaseEgress (boundary s) else boundary s) :=
    congrArg Host.Outcome.next (tick_eq s)
  cases det : s.det with
  | false => exact ⟨s.ports, s.mmio, by rw [hexec, det]; rfl, fun _ => ⟨rfl, rfl⟩, (nomatch ·)⟩
  | true =>
    obtain ⟨ports, mmio, ht⟩ := releaseEgress_eq (boundary s)
    exact ⟨ports, mmio, by rw [hexec, det, ← ht]; rfl, (nomatch ·), fun _ => ht.symm⟩

/-- Local time moves past the last boundary, and no farther than the next (R77). -/
theorem tickNow_boundary (s : State) :
    tickNow (passClk s (clkToBoundary s)) = if s.ticked < tickNow s then tickNow s else tickNow s + 1 := by
  by_cases h : s.ticked < tickNow s
  · rw [clkToBoundary, if_pos h, if_pos h, passClk_zero]
  · rw [clkToBoundary, if_neg h, if_neg h, passClk_eq]
    simp only [tickNow, localTime]
    omega

/-! ### TICKCTL -/

/-- A bit of TICKCTL set or cleared: bit 0 is DET, bit 1 LOCK (R77). -/
def setTick (s : State) (bit v : Nat) : State := s.setMmio 0 0x200 (setFld (s.mmioWord 0 0x200) bit 1 v)

section
variable {s : State} (hmmio : Tbl.rising s.mmio) (v : Nat)
include hmmio

theorem getLsbD_setTick (bit i : Nat) : ((setTick s bit v).mmioWord 0 0x200).getLsbD i =
    if i < 64 ∧ bit ≤ i ∧ i < bit + 1 then v.testBit (i - bit) else (s.mmioWord 0 0x200).getLsbD i := by
  rw [setTick, mmioWord_setMmio _ _ _ hmmio, getLsbD_setFld]

theorem det_setTick_det : (setTick s 0 v).det = v.testBit 0 := getLsbD_setTick hmmio v 0 0

theorem det_setTick_lock : (setTick s 1 v).det = s.det := getLsbD_setTick hmmio v 1 0

theorem tickLock_setTick_det : (setTick s 0 v).tickLock = s.tickLock := getLsbD_setTick hmmio v 0 1

theorem tickLock_setTick_lock : (setTick s 1 v).tickLock = v.testBit 0 := getLsbD_setTick hmmio v 1 1

theorem portUp_setTick (bit p : Nat) : (setTick s bit v).portUp p = s.portUp p := by
  have key : mmioKey 0 (0x1000 + 16 * p) ≠ mmioKey 0 0x200 := by
    simp only [mmioKey]
    omega
  simp only [State.portUp, State.fport, setTick, mmioWord_setMmio_ne _ _ _ hmmio key]

theorem det_releaseEgress : (releaseEgress s).det = s.det := by
  rw [State.det, mmioWord_releaseEgress hmmio (by decide)]
  rfl

theorem tickLock_releaseEgress : (releaseEgress s).tickLock = s.tickLock := by
  rw [State.tickLock, mmioWord_releaseEgress hmmio (by decide)]
  rfl

end

theorem exec_tickDetWrite {s : State} (ready : s.devReady = true) (v : W32) :
    exec (.tickDetWrite v) s = .next (writeDet s v) := by
  show Host.Outcome.next (written s true (writeDet s v)) = _
  rw [written, ready]
  rfl

section
variable {s : State} {v : W32}

theorem writeDet_set_unlocked (set : v.getLsbD 0 = true) (unlocked : s.tickLock = false) : writeDet s v = s := by
  simp only [writeDet, set, unlocked, Bool.false_eq_true, if_true, if_false]

theorem writeDet_set_locked (set : v.getLsbD 0 = true) (locked : s.tickLock = true) :
    writeDet s v = setTick s 0 1 := by
  simp only [writeDet, set, locked, if_true, setTick]

theorem writeDet_clear (clear : v.getLsbD 0 = false) : writeDet s v = releaseEgress (setTick s 0 0) := by
  simp only [writeDet, clear, Bool.false_eq_true, if_false, setTick]

end

/-! ### Time -/

theorem exec_ptpSync (s : State) (time : Nat) : exec (.ptpSync time) s = .next (sync s time) := rfl

/-- The distance of a sync message from local time, and the sync messages in a row within 100 ns (R77, R413). -/
def syncOffset (s : State) (time : Nat) : Nat := (time - localTime s) + (localTime s - time)

/-- See `syncOffset`. -/
def syncsAfter (s : State) (time : Nat) : Nat := if syncOffset s time ≤ 100 then min (s.syncs + 1) 16 else 0

/-- Local time follows a sync message (R413). -/
def synced (s : State) (time : Nat) : State := { s with syncs := syncsAfter s time, timeClk := s.clk, timeNs := time }

/-- LOCK is cleared, set or left by a sync message (R77). -/
theorem sync_eq (s : State) (time : Nat) : sync s time =
    if 500 < syncOffset s time then setTick (synced s time) 1 0
    else if syncsAfter s time = 16 then setTick (synced s time) 1 1 else synced s time := by
  simp only [sync, beq_iff_eq]
  rfl

theorem sync_frame (s : State) (time : Nat) : ∃ mmio, sync s time = { synced s time with mmio := mmio } := by
  rw [sync_eq]
  split
  · exact ⟨_, rfl⟩
  · split
    · exact ⟨_, rfl⟩
    · exact ⟨s.mmio, rfl⟩

theorem syncsAfter_eq_max (s : State) (time : Nat) : syncsAfter s time = 16 ↔ syncOffset s time ≤ 100 ∧ 15 ≤ s.syncs := by
  unfold syncsAfter
  split <;> omega

section
variable {s : State} (hmmio : Tbl.rising s.mmio) (time : Nat)
include hmmio

theorem det_sync : (sync s time).det = s.det := by
  rw [sync_eq]
  split
  · exact det_setTick_lock (s := synced s time) hmmio 0
  · split
    · exact det_setTick_lock (s := synced s time) hmmio 1
    · rfl

theorem tickLock_sync : (sync s time).tickLock = if 500 < syncOffset s time then false
    else if syncOffset s time ≤ 100 ∧ 15 ≤ s.syncs then true else s.tickLock := by
  simp only [sync_eq, syncsAfter_eq_max]
  split
  · exact tickLock_setTick_lock (s := synced s time) hmmio 0
  · split
    · exact tickLock_setTick_lock (s := synced s time) hmmio 1
    · rfl

end

theorem timeAndTicks : Sys2Proof.Claim.TimeAndTicks := by
  rintro s ⟨-, -, hmmio, -, -⟩
  refine ⟨fun time => ?_, ?_, fun v ready => ⟨fun set unlocked => ?_, fun set locked => ?_, fun clear => ?_⟩⟩
  · obtain ⟨mmio, ht⟩ := sync_frame s time
    refine ⟨_, exec_ptpSync s time, ?_, ?_, tickLock_sync hmmio time, det_sync hmmio time, ?_⟩
    · rw [ht]
      simp [localTime, synced]
    · rw [ht]
      rfl
    · rw [ht]
      rfl
  · obtain ⟨ports, mmio, hexec, hkeep, hrelease⟩ := exec_tickRelease s
    refine ⟨_, hexec, tickNow_boundary s, rfl, Nat.le_add_right _ _, fun past => ?_, rfl, fun n => ?_, hkeep,
      fun det hports hfits => ?_, rfl⟩
    · show s.clk + clkToBoundary s = s.clk
      rw [clkToBoundary, if_pos past, Nat.add_zero]
    · obtain ⟨more, hcore, waits, runs⟩ := viewStall_passClk s (clkToBoundary s) n
      exact ⟨more, hcore, fun h => (waits h).trans (Nat.add_sub_cancel_left _ _).symm, runs⟩
    · rw [hrelease det]
      exact ⟨mmio_releaseEgress (s := boundary s) hports hfits, fun p => ⟨egress_releaseEgress (s := boundary s) hports hfits p,
        fun up => (sentAll_releaseEgress (s := boundary s) hports hfits up).2⟩⟩
  · rw [exec_tickDetWrite ready, writeDet_set_unlocked set unlocked]
  · refine ⟨_, exec_tickDetWrite ready v, ?_⟩
    rw [writeDet_set_locked set locked]
    exact ⟨det_setTick_det hmmio 1, (tickLock_setTick_det hmmio 1).trans locked, rfl⟩
  · have rising : Tbl.rising (setTick s 0 0).mmio := rising_setMmio hmmio _ _ _
    refine ⟨_, exec_tickDetWrite ready v, ?_⟩
    rw [writeDet_clear clear]
    exact ⟨(det_releaseEgress rising).trans (det_setTick_det hmmio 0),
      (tickLock_releaseEgress rising).trans (tickLock_setTick_det hmmio 0),
      fun hports hfits p up => (sentAll_releaseEgress (s := setTick s 0 0) hports hfits ((portUp_setTick hmmio 0 0 p).trans up)).1,
      congrArg (fun t : State => { t with mmio := s.mmio }) (releaseEgress_frame (setTick s 0 0))⟩

/-! ### The slew governor -/

/-- GOV after an interval of the governor (R357, R416). -/
def govAfter (s : State) (rise : Bool) : Nat :=
  if rise = true ∨ s.tripped ≠ [] then gov s - 1 else min 15 (gov s + 1)

/-- The word with IEST, HOLD and GOV after an interval of the governor. -/
def statAfter (s : State) (iest : Nat) (rise : Bool) : W64 :=
  setFld (setFld (setFld (s.mmioWord 0 0x308) 0 16 iest) 32 4 (govAfter s rise)) 16 1 (if rise then 1 else 0)

theorem govAfter_lt (s : State) (rise : Bool) : govAfter s rise < 16 := by
  have old : gov s < 2 ^ 4 := Nat.mod_lt _ (by decide)
  unfold govAfter
  split <;> omega

section
variable {s : State} (iest : Nat) (rise : Bool)

theorem iest_statAfter (h : iest ≤ 65535) : fld (statAfter s iest rise) 0 16 = iest := by
  rw [statAfter, fld_setFld_ne _ _ (by decide), fld_setFld_ne _ _ (by decide), fld_setFld_self _ _ (by decide)]
  exact Nat.mod_eq_of_lt (by omega)

theorem hold_statAfter : (statAfter s iest rise).getLsbD 16 = rise := by
  rw [statAfter, getLsbD_setFld]
  cases rise <;> rfl

theorem gov_statAfter : fld (statAfter s iest rise) 32 4 = govAfter s rise := by
  rw [statAfter, fld_setFld_ne _ _ (by decide), fld_setFld_self _ _ (by decide)]
  exact Nat.mod_eq_of_lt (govAfter_lt s rise)

/-- The estimate of an interval is stored in IEST. -/
def withIest (s : State) (iest : Nat) : State := s.setMmio 0 0x308 (setFld (s.mmioWord 0 0x308) 0 16 iest)

section
variable (hmmio : Tbl.rising s.mmio)
include hmmio

theorem mmioWord_withIest : (withIest s iest).mmioWord 0 0x308 = setFld (s.mmioWord 0 0x308) 0 16 iest :=
  mmioWord_setMmio _ _ _ hmmio

theorem gov_withIest : gov (withIest s iest) = gov s := by
  rw [gov, mmioWord_withIest iest hmmio, fld_setFld_ne _ _ (by decide), gov]

theorem mmioWord_setGov_withIest :
    (setGov (withIest s iest) (govAfter s rise) rise).mmioWord 0 0x308 = statAfter s iest rise := by
  rw [setGov, mmioWord_withIest iest hmmio]
  exact mmioWord_setMmio _ _ _ (rising_setMmio hmmio _ _ _)

/-- A sample within the slew limit is taken, and GOV moves by one step (R357). -/
theorem slew_eq (top : iest ≤ 65535) (fall : fld (s.mmioWord 0 0x308) 0 16 ≤ iest + 10 * fld (s.mmioWord 0 0x300) 0 8)
    (climb : iest ≤ fld (s.mmioWord 0 0x308) 0 16 + 10 * fld (s.mmioWord 0 0x300) 0 8) :
    slew s iest rise = setGov (withIest s iest) (govAfter s rise) rise := by
  simp only [slew, Bool.or_eq_true, decide_eq_true_eq]
  rw [if_neg (by omega), govAfter, ← gov_withIest iest hmmio]
  cases rise with
  | true => rfl
  | false => cases hot : s.tripped <;> simp [hot, withIest]

end

end

/-! ### Heat -/

theorem mem_tripped_reheat (s : State) (d : Nat) :
    d ∈ (reheat s).tripped ↔ d < 4 ∧ (ttrip s ≤ tempOf s d ∨ (d ∈ s.tripped ∧ tlim s ≤ tempOf s d)) := by
  simp [reheat]

theorem exec_heat {s : State} {die value : Nat} (hdie : die < 4) (hvalue : value < 256) {e : Instr × Prop}
    (he : e ∈ [(.thermalLimit die value, tlim s ≤ value), (.thermalTrip die value, ttrip s ≤ value),
      (.thermalRecover die value, value < tlim s)]) (enabled : e.2) : exec e.1 s = .next (setTemp s die value) := by
  simp only [List.mem_cons, List.not_mem_nil, or_false] at he
  rcases he with rfl | rfl | rfl
  · show Host.Outcome.next (heatLimit s die value) = _
    have enabled : tlim s ≤ value := enabled
    simp [heatLimit, hdie, hvalue, enabled]
  · show Host.Outcome.next (heatTrip s die value) = _
    have enabled : ttrip s ≤ value := enabled
    simp [heatTrip, hdie, hvalue, enabled]
  · show Host.Outcome.next (heatRecover s die value) = _
    have enabled : value < tlim s := enabled
    simp [heatRecover, hdie, enabled]

section
variable {s : State} (hmmio : Tbl.rising s.mmio) (die value : Nat)
include hmmio

theorem mmioWord_setTemp : (setTemp s die value).mmioWord 0 0x328 = setFld (s.mmioWord 0 0x328) (8 * die) 8 value :=
  mmioWord_setMmio _ _ _ hmmio

theorem mmioWord_setTemp_ne {off : Nat} (h8 : off % 8 = 0) (hoff : off ≠ 0x328) :
    (setTemp s die value).mmioWord 0 off = s.mmioWord 0 off :=
  mmioWord_setMmio_ne _ _ _ hmmio (mmioKey_ne h8 rfl hoff)

theorem tempOf_setTemp (hdie : die < 4) (hvalue : value < 256) : tempOf (setTemp s die value) die = value := by
  rw [tempOf, mmioWord_setTemp hmmio, fld_setFld_self _ _ (by omega)]
  exact Nat.mod_eq_of_lt hvalue

theorem tempOf_setTemp_ne {d : Nat} (h : d ≠ die) : tempOf (setTemp s die value) d = tempOf s d := by
  rw [tempOf, mmioWord_setTemp hmmio, fld_setFld_ne _ _ (by omega), tempOf]

/-- The dies that are tripped after a change of TEMP (R416). -/
theorem mem_tripped_setTemp (d : Nat) : d ∈ (setTemp s die value).tripped ↔
    d < 4 ∧ (ttrip s ≤ tempOf (setTemp s die value) d ∨ (d ∈ s.tripped ∧ tlim s ≤ tempOf (setTemp s die value) d)) := by
  have limits : (setTemp s die value).mmioWord 0 0x320 = s.mmioWord 0 0x320 := mmioWord_setTemp_ne hmmio _ _ (by decide) (by decide)
  rw [ttrip, tlim, ← limits]
  exact mem_tripped_reheat _ d

end

/-! ### Power and heat -/

theorem powerAndHeat : Sys2Proof.Claim.PowerAndHeat := by
  rintro s ⟨-, -, hmmio, -, -⟩
  simp only [← fld_eq_bitsFrom]
  refine ⟨fun iest rise top fall climb => ?_, fun die value hdie hvalue e he enabled => ?_⟩
  · have word := mmioWord_setGov_withIest iest rise hmmio
    refine ⟨_, congrArg Host.Outcome.next (slew_eq iest rise hmmio top fall climb), ?_, ?_, ?_, rfl⟩
    · rw [word, iest_statAfter iest rise top]
    · rw [word, hold_statAfter]
    · rw [word, gov_statAfter]
      rfl
  · exact ⟨_, exec_heat hdie hvalue he enabled, tempOf_setTemp hmmio die value hdie hvalue,
      fun d _ other => tempOf_setTemp_ne hmmio die value other, mmioWord_setTemp_ne hmmio die value (by decide) (by decide),
      mem_tripped_setTemp hmmio die value, rfl⟩

/-- Settles O47: what drains from an egress is exactly its segments, and each register of time, power and heat reads field by
field. -/
theorem timePowerHeat : Obligations.TimePowerHeat := ⟨timeAndTicks, powerAndHeat⟩

end Sys2Proof.Proofs.TimePowerHeat
end
